-- ==== Sys2Proof/Word.lean ====
section
/-! DEFINITION. The words of the machine: the bit vectors the manual reads as bits (R2, R5), and nothing else. -/

namespace Sys2Proof

/-- A scalar register, a PC, an effective address: 64 bits (R154). -/
abbrev W64 := BitVec 64
/-- One sequencer instruction word, one word of a configuration image (R60, R101). -/
abbrev W32 := BitVec 32
/-- One byte of memory. -/
abbrev Byte := BitVec 8
/-- One 512-bit payload beat (R18). -/
abbrev Beat := BitVec 512
/-- A scalar register number (R6). -/
abbrev SReg := BitVec 5
/-- A predicate number (R6). -/
abbrev PReg := BitVec 3

end Sys2Proof
end

