-- ==== Sys2Proof/Config.lean ====
section
/-! DEFINITION. What one part fixes, and the free values: constants with no body, so that no proof rests on a number.
A free value is applied to the counter `State.free`, which every use of one advances. -/

namespace Sys2Proof.Config

/-- Does an access use the cached translation while a cached and a walked translation differ? (R152, R153) -/
opaque useCached : Nat → Bool
/-- A fresh P-384 private scalar of the security block (R130, R132), before reduction. -/
opaque freshScalar : Nat → BitVec 384
/-- The key of one direction of a Lotar link, by the shared secret of its exchange and the members it leads from and to
(R132). -/
opaque linkKey : Nat → Nat → Nat → BitVec 256
/-- A fresh nonce of an ECDSA signature (R129, R130), before reduction. -/
opaque signNonce : Nat → BitVec 384
/-- The bytes of a read-back item or save-image entry whose layout the spec does not give, by its kind and what it holds
(R427, R434). -/
opaque layout : Nat → List Nat → List Byte
/-- A payload that the spec does not state (log entry 12). -/
opaque freeBeat : Nat → Beat
/-- The 384-bit unique device seed (R119). -/
opaque seed : BitVec 384
/-- The mode fuse (R123): true for DEBUG. -/
opaque debugFuse : Bool
/-- The fused SHA-384 of the Grenesk firmware key (R119). -/
opaque firmwareKeyHash : BitVec 384
/-- The identity certificate chain, DER, leaf first (R125). -/
opaque certificateChain : List Byte

end Sys2Proof.Config
end

