-- ==== Sys2Proof/Syntax.lean ====
section
/-! DEFINITION. The operations and events of the device: one constructor of `Instr` for each row of the opcode table.
The encoded control instructions carry their fields (R60 to R66). The other rows are the device's own steps
(95_what_each_step_holds.md); they carry the agent that takes the step and what reaches it from outside the package. -/

namespace Sys2Proof

/-- The nine scopes in code order (R65, R358). -/
inductive Scope where
  | tile | region | cluster | die | package | group | domain | network | system
  deriving DecidableEq, Repr

/-- The W bit of format Y: a 32-bit or a 64-bit access (R60). -/
inductive Width where
  | w32 | w64
  deriving DecidableEq, Repr

/-- The compare conditions in code order (R65, R173). -/
inductive Cond where
  | eq | ne | lt | ge | ltn | gen | le | gt | len | gtn | tst | ntst
  deriving DecidableEq, Repr

/-- The two control ports (R102). -/
inductive PortId where
  | a | b
  deriving DecidableEq, Repr

/-- The three read-back chains (R433). -/
inductive ChainId where
  | a | b | mc
  deriving DecidableEq, Repr

/-- Which core moves: the management core, or the sequencer of a region (R154). -/
inductive CoreId where
  | mc
  | seq (region : Nat)
  deriving DecidableEq, Repr

/-- Who issued an engine command (R341): a core, or an EREQ element. -/
inductive Issuer where
  | core (c : CoreId)
  | ereq (region site : Nat)
  deriving DecidableEq, Repr

/-- An agent that can park (R405): an element copy, or an engine's command, named by its issuer and issue number. -/
inductive AgentId where
  | elem (region site : Nat)
  | engine (e : Nat) (issuer : Issuer) (n : BitVec 32)
  deriving DecidableEq, Repr

/-- What a Lotar link learns from its peer at training (R132, R339, R454): its member number and the members that are reached
through it, its identity public key, the fresh public key it offers with its signature, and its credit total for this
member. -/
structure LotarPeer where
  member : Nat
  beyond : List Nat
  keyX : BitVec 384
  keyY : BitVec 384
  freshX : BitVec 384
  freshY : BitVec 384
  sigR : BitVec 384
  sigS : BitVec 384
  cred : Nat
  deriving DecidableEq, Repr

/-- The peers that stand at Lotar ports. -/
abbrev LotarPeers := List (Nat × LotarPeer)

/-- What the other members of a collective bring to it (R350): their source bytes by rank, or the news that the
paired blocks disagree, or that a member ended early. -/
inductive PeerParts where
  | parts (byRank : List (List Byte))
  | mismatch
  | ended
  deriving DecidableEq, Repr

/-- What one region's monitors measured over a tick (R459, R460): the timing replays in its four quadrants and the energy
of its rail in whole nanojoules. -/
structure RegionTick where
  region : Nat
  replays : Vector Nat 4
  nanojoules : Nat
  deriving DecidableEq, Repr

/-- The answer of a give's receiver (R452): DONE or CAP. -/
inductive GiveAnswer where
  | done | cap
  deriving DecidableEq, Repr

/-- The operations and events of the opcode table, one constructor for each row. -/
inductive Instr where
  /-- ADD (R168): Writes sd := sa + sb modulo 2^64. -/
  | add (d a b : SReg)
  /-- SUB (R168): Writes sd := sa − sb modulo 2^64. -/
  | sub (d a b : SReg)
  /-- MUL (R168): Writes the low 64 bits of sa × sb. -/
  | mul (d a b : SReg)
  /-- MULH (R168): Writes the high 64 bits of the signed 128-bit product. -/
  | mulh (d a b : SReg)
  /-- MULHN (R168): Writes the high 64 bits of the unsigned 128-bit product. -/
  | mulhn (d a b : SReg)
  /-- DIV (R169): Writes the signed quotient truncated toward zero, with fixed results for division by zero and overflow. -/
  | div (d a b : SReg)
  /-- DIVN (R169): Writes the unsigned quotient, all ones on division by zero. -/
  | divn (d a b : SReg)
  /-- REM (R169): Writes the signed remainder with the sign of sa. -/
  | rem (d a b : SReg)
  /-- REMN (R169): Writes the unsigned remainder. -/
  | remn (d a b : SReg)
  /-- AND (R168): Writes sa and sb. -/
  | and (d a b : SReg)
  /-- OR (R168): Writes sa or sb. -/
  | or (d a b : SReg)
  /-- XOR (R168): Writes sa xor sb. -/
  | xor (d a b : SReg)
  /-- ANDN (R168): Writes sa and not sb. -/
  | andn (d a b : SReg)
  /-- SLL (R168): Shifts sa left by sb[5:0]. -/
  | sll (d a b : SReg)
  /-- SRL (R168): Shifts sa logically right by sb[5:0]. -/
  | srl (d a b : SReg)
  /-- SRA (R168): Shifts sa arithmetically right by sb[5:0]. -/
  | sra (d a b : SReg)
  /-- MIN (R168): Writes the signed minimum of sa and sb. -/
  | min (d a b : SReg)
  /-- MAX (R168): Writes the signed maximum of sa and sb. -/
  | max (d a b : SReg)
  /-- MINN (R168): Writes the unsigned minimum of sa and sb. -/
  | minn (d a b : SReg)
  /-- MAXN (R168): Writes the unsigned maximum of sa and sb. -/
  | maxn (d a b : SReg)
  /-- POPC (R168): Writes the number of 1 bits of sa. -/
  | popc (d a : SReg)
  /-- CLZ (R168): Writes the leading zero count of sa, 64 for zero. -/
  | clz (d a : SReg)
  /-- SH1ADD (R168): Writes (sa << 1) + sb. -/
  | sh1add (d a b : SReg)
  /-- SH2ADD (R168): Writes (sa << 2) + sb. -/
  | sh2add (d a b : SReg)
  /-- SH3ADD (R168): Writes (sa << 3) + sb. -/
  | sh3add (d a b : SReg)
  /-- ADDI (R170): Writes sa plus the sign-extended immediate. -/
  | addi (d a : SReg) (imm : BitVec 16)
  /-- ANDI (R170): Writes sa and the zero-extended immediate. -/
  | andi (d a : SReg) (imm : BitVec 16)
  /-- ORI (R170): Writes sa or the zero-extended immediate. -/
  | ori (d a : SReg) (imm : BitVec 16)
  /-- XORI (R170): Writes sa xor the zero-extended immediate. -/
  | xori (d a : SReg) (imm : BitVec 16)
  /-- SLLI (R170): Shifts sa left by the immediate amount. -/
  | slli (d a : SReg) (amount : BitVec 6)
  /-- SRLI (R170): Shifts sa logically right by the immediate amount. -/
  | srli (d a : SReg) (amount : BitVec 6)
  /-- SRAI (R170): Shifts sa arithmetically right by the immediate amount. -/
  | srai (d a : SReg) (amount : BitVec 6)
  /-- LIZ (R171): Places imm16 in halfword hw of sd with the other halfwords zero. -/
  | liz (d : SReg) (hw : BitVec 2) (imm : BitVec 16)
  /-- LIN (R171): Places imm16 in halfword hw of sd with the other halfwords all ones. -/
  | lin (d : SReg) (hw : BitVec 2) (imm : BitVec 16)
  /-- LIK (R171): Places imm16 in halfword hw of sd keeping the other halfwords. -/
  | lik (d : SReg) (hw : BitVec 2) (imm : BitVec 16)
  /-- EXT (R172): Zero-extends the bitfield of sa at pos of length len into sd. -/
  | ext (d a : SReg) (pos lenm : BitVec 6)
  /-- EXTS (R172): Sign-extends the bitfield of sa at pos of length len into sd. -/
  | exts (d a : SReg) (pos lenm : BitVec 6)
  /-- INS (R172): Inserts the low len bits of sa into sd at pos. -/
  | ins (d a : SReg) (pos lenm : BitVec 6)
  /-- CMP (R173): Sets predicate pd to the truth of the condition on sa and sb. -/
  | cmp (p : PReg) (c : Cond) (a b : SReg)
  /-- CMPI (R173): Sets predicate pd to the truth of the condition on sa and the sign-extended imm14. -/
  | cmpi (p : PReg) (c : Cond) (a : SReg) (imm : BitVec 14)
  /-- PLOG (R174): Sets pd from a 4-bit truth table indexed by pa and pb. -/
  | plog (d a b : PReg) (tt : BitVec 4)
  /-- SEL (R175): Writes sa to sd when predicate p is true and sb otherwise. -/
  | sel (d a b : SReg) (p : PReg)
  /-- BRC (R176): Branches by a word offset when predicate p is true. -/
  | brc (p : PReg) (off : BitVec 22)
  /-- BRC_NOT (R176): Branches by a word offset when predicate p is false. -/
  | brcNot (p : PReg) (off : BitVec 22)
  /-- JAL (R177): Writes the link PC + 4 to sd and jumps by a word offset. -/
  | jal (d : SReg) (off : BitVec 21)
  /-- JALR (R178): Jumps to sa plus the sign-extended immediate, writing the link, or traps MISALIGNED. -/
  | jalr (d a : SReg) (imm : BitVec 16)
  /-- LD_I8 (R179): Loads and sign-extends one byte at sa + off12, observing presence. -/
  | ldI8 (d a : SReg) (off : BitVec 12)
  /-- LD_I16 (R179): Loads and sign-extends two bytes at sa + off12. -/
  | ldI16 (d a : SReg) (off : BitVec 12)
  /-- LD_I32 (R179): Loads and sign-extends four bytes at sa + off12. -/
  | ldI32 (d a : SReg) (off : BitVec 12)
  /-- LD_64 (R179): Loads eight bytes at sa + off12. -/
  | ld64 (d a : SReg) (off : BitVec 12)
  /-- LD_N8 (R179): Loads and zero-extends one byte at sa + off12. -/
  | ldN8 (d a : SReg) (off : BitVec 12)
  /-- LD_N16 (R179): Loads and zero-extends two bytes at sa + off12. -/
  | ldN16 (d a : SReg) (off : BitVec 12)
  /-- LD_N32 (R179): Loads and zero-extends four bytes at sa + off12. -/
  | ldN32 (d a : SReg) (off : BitVec 12)
  /-- ST_8 (R179): Stores sd[7:0] at sa + off12, filling an EMPTY single-assignment granule. -/
  | st8 (d a : SReg) (off : BitVec 12)
  /-- ST_16 (R179): Stores sd[15:0] at sa + off12. -/
  | st16 (d a : SReg) (off : BitVec 12)
  /-- ST_32 (R179): Stores sd[31:0] at sa + off12. -/
  | st32 (d a : SReg) (off : BitVec 12)
  /-- ST_64 (R179): Stores sd[63:0] at sa + off12. -/
  | st64 (d a : SReg) (off : BitVec 12)
  /-- LDA (R386): Loads a 32- or 64-bit value at sa and acts as an acquire at its scope. -/
  | lda (d a : SReg) (scope : Scope) (w : Width)
  /-- STL (R386): Stores sb at sa as a release at its scope. -/
  | stl (a b : SReg) (scope : Scope) (w : Width)
  /-- AADD (R387): Atomically adds sb to memory and returns the old value. -/
  | aadd (d a b : SReg) (scope : Scope) (w : Width)
  /-- AAND (R387): Atomically ands sb into memory and returns the old value. -/
  | aand (d a b : SReg) (scope : Scope) (w : Width)
  /-- AOR (R387): Atomically ors sb into memory and returns the old value. -/
  | aor (d a b : SReg) (scope : Scope) (w : Width)
  /-- AXOR (R387): Atomically xors sb into memory and returns the old value. -/
  | axor (d a b : SReg) (scope : Scope) (w : Width)
  /-- AMIN (R387): Atomically stores the signed minimum and returns the old value. -/
  | amin (d a b : SReg) (scope : Scope) (w : Width)
  /-- AMAX (R387): Atomically stores the signed maximum and returns the old value. -/
  | amax (d a b : SReg) (scope : Scope) (w : Width)
  /-- AMINN (R387): Atomically stores the unsigned minimum and returns the old value. -/
  | aminn (d a b : SReg) (scope : Scope) (w : Width)
  /-- AMAXN (R387): Atomically stores the unsigned maximum and returns the old value. -/
  | amaxn (d a b : SReg) (scope : Scope) (w : Width)
  /-- ASWP (R387): Atomically swaps sb into memory and returns the old value. -/
  | aswp (d a b : SReg) (scope : Scope) (w : Width)
  /-- ACAS (R387): Atomically writes sb when memory equals the comparand in sd and returns the old value. -/
  | acas (d a b : SReg) (scope : Scope) (w : Width)
  /-- FENCE (R388): Acts as acquire and release fence at its scope. -/
  | fence (scope : Scope)
  /-- FENCE_ACQ (R388): Acts as an acquire fence at its scope, ordering earlier loads. -/
  | fenceAcq (scope : Scope)
  /-- FENCE_REL (R388): Acts as a release fence at its scope, ordering later stores. -/
  | fenceRel (scope : Scope)
  /-- LDF (R389): Loads a single-assignment granule, waiting while EMPTY, then acquires at its scope. -/
  | ldf (d a : SReg) (scope : Scope) (w : Width)
  /-- PCLR (R389): Makes a single-assignment granule EMPTY. -/
  | pclr (a : SReg)
  /-- PROBE (R389): Returns the presence state of a granule without waiting. -/
  | probe (d a : SReg)
  /-- SCLD (R391): Loads through the SC ring in the total SC order, an acquire at PACKAGE. -/
  | scld (d a : SReg) (w : Width)
  /-- SCST (R391): Stores through the SC ring in the total SC order, a release at PACKAGE. -/
  | scst (a b : SReg) (w : Width)
  /-- PREF (R195): Starts a background fetch and check of a configuration image into the cache. -/
  | pref (a : SReg)
  /-- CFG (R194): Commits a STAGED instance of a configuration, fetching and checking its image if needed. -/
  | cfg (a : SReg)
  /-- RUN (R197): Makes the oldest STAGED instance LIVE on a fabric with none LIVE. -/
  | run
  /-- SWO (R199): Switches over to the oldest STAGED instance by delivering SWITCHOVER to the old instance's sources. -/
  | swo (a : SReg)
  /-- INJ_DATA (R206): Places a DATA token built from sa and sb on the arc of a sequencer output port. -/
  | injData (a b : SReg) (port : BitVec 4)
  /-- INJ_DATA_P (R206): Places a poisoned DATA token on the arc of a sequencer output port. -/
  | injDataP (a b : SReg) (port : BitVec 4)
  /-- INJ_STOP (R206): Places a STOP token of depth sa[2:0] on the arc of a sequencer output port. -/
  | injStop (a b : SReg) (port : BitVec 4)
  /-- TAKE (R207): Removes the head DATA or STOP token of a sequencer input port into sd. -/
  | take (d : SReg) (port : BitVec 4)
  /-- WEX (R205): Takes the next exit and branches through the sending instance's exit table. -/
  | wex (d : SReg)
  /-- HALTA (R208): Halts an arc of the youngest LIVE instance for debug. -/
  | halta (arc : BitVec 10)
  /-- RELA (R208): Releases a halted arc. -/
  | rela (arc : BitVec 10)
  /-- ICOMMA (R209): Delivers a COMMA to every source of every LIVE instance, beginning a checkpoint snapshot. -/
  | icomma (a : SReg)
  /-- IMODE (R210): Delivers a MODE token with a mode word to every source of the youngest LIVE instance. -/
  | imode (m : BitVec 8)
  /-- BAR (R383): Arrives at the cluster barrier and waits until every sequencer has arrived. -/
  | bar (scope : Scope)
  /-- LAUNCH (R117): Copies a 128-byte launch record into an EMPTY launch cell, granule 1 then granule 0 with the launch mark. -/
  | launch (d a b : SReg)
  /-- SEMA (R381): Requests a hardware semaphore and waits for its grant. -/
  | sema (n : BitVec 6)
  /-- SEMR (R381): Releases a held hardware semaphore. -/
  | semr (n : BitVec 6)
  /-- COPY (R342): Issues a command block to a transfer engine and returns a ticket. -/
  | copy (d a : SReg) (e : BitVec 5)
  /-- CONV (R342): Issues a command block to a conversion engine and returns a ticket. -/
  | conv (d a : SReg) (e : BitVec 5)
  /-- COLL (R342): Issues a command block to a collective engine and returns a ticket. -/
  | coll (d a : SReg) (e : BitVec 5)
  /-- EWAIT (R346): Waits for the engine commands named by a ticket to end and acquires their writes. -/
  | ewait (a : SReg)
  /-- CSRR (R191): Reads a CSR into sd. -/
  | csrr (d : SReg) (csr : BitVec 12)
  /-- CSRW (R191): Writes sa to a CSR under R166. -/
  | csrw (a : SReg) (csr : BitVec 12)
  /-- CSRX (R191): Exchanges sa with a CSR as one access. -/
  | csrx (d a : SReg) (csr : BitVec 12)
  /-- TRAP (R188): Raises cause TRAP with a 12-bit code, or halts on a sequencer for code 0xFFF. -/
  | trap (code : BitVec 12)
  /-- RTT (R187): Returns from a trap to TPC, restoring graph or management level. -/
  | rtt
  /-- WFE (R189): Waits until a pending event selected by EVT_MASK is set. -/
  | wfe
  /-- HALT (R190): Ends the region program, or stops the management core. -/
  | halt
  /-- EVT_PEND (R167): Write-1-to-clear of pending event bits. -/
  | evtPend (v : W64)
  /-- ALERT_PEND (R447): Write-1-to-clear of the management core's alert bits. -/
  | alertPend (v : W64)
  /-- MC_ASINVAL (R165): Writing a count invalidates cached translations of a range and completes when accesses are performed. -/
  | mcAsinval (v : W64)
  /-- METER_STEP (R440): Writing sets the MC request of the selected quadrant and recomputes its effective step. -/
  | meterStep (v : W64)
  /-- MEMBER (R165): Writing sets the domain member number and discards every cached translation. -/
  | member (v : W64)
  /-- CSR_WRITE (R166): A write of a CSR with no behaviour of its own replaces its value or raises ILLEGAL. -/
  | csrWrite (csr : BitVec 12) (v : W64)
  /-- SEM_ACQ (R108): Control command acquiring a semaphore; its reply waits until the grant. -/
  | semAcq (port : PortId)
  /-- SEM_REL (R104): Control command releasing a semaphore the port holds. -/
  | semRel (port : PortId)
  /-- CAR_REG (R110): Registers a caravan with ASID, PFLOOR and first cell. -/
  | carReg (port : PortId)
  /-- CAR_UNREG (R110): Unregisters a caravan and cancels its deferred reads. -/
  | carUnreg (port : PortId)
  /-- AS_SET_SET (R147): Creates or replaces an address space's root and fault queue. -/
  | asSetSet (port : PortId)
  /-- AS_SET_REMOVE (R147): Removes an address space with its log, keys and session. -/
  | asSetRemove (port : PortId)
  /-- AS_SET_INVAL (R152): Invalidates cached translations of a range, performs affected accesses, then replies. -/
  | asSetInval (port : PortId)
  /-- RES_SET (R138): Reserves a region to a caravan or frees its reservation. -/
  | resSet (port : PortId)
  /-- PORT_RESET (R109): Releases every semaphore the port holds and ends its session. -/
  | portReset (port : PortId)
  /-- CELL_CLR (R105): Returns consumed address-space-0 granules to EMPTY with zero bytes. -/
  | cellClr (port : PortId)
  /-- GET_CERT (R125): Writes the identity certificate chain to the body buffer. -/
  | getCert (port : PortId)
  /-- ATTEST (R129): Writes a signed attestation report and peer table. -/
  | attest (port : PortId)
  /-- KEY_AGREE (R130): Binds a tenant public key to an address space and derives its keys. -/
  | keyAgree (port : PortId)
  /-- SESSION_OPEN (R134): Gives the port the session of an ASID after a valid tag. -/
  | sessionOpen (port : PortId)
  /-- SESSION_CLOSE (R134): Ends the session of an ASID and discards its read-back captures. -/
  | sessionClose (port : PortId)
  /-- READ (R433): Read-back request returning 32 bytes of an item, capturing it at offset 0. -/
  | read (chain : ChainId)
  /-- POWER_ON (R119): Runs the start-up sequence from key derivation to posting the first chain reads. -/
  | powerOn
  /-- LINK_TRAIN (R132): A Lotar link trains with a signed ECDH exchange and reconciles budget tokens. -/
  | linkTrain (lotar : Nat) (peer : LotarPeer)
  /-- LINK_REKEY (R132): A link is retrained and rekeyed before its IV counter wraps. -/
  | linkRekey (lotar : Nat)
  /-- LINK_DOWN (R109): The management core declares a port's link down, releasing its semaphores. -/
  | linkDown (port : PortId)
  /-- LINK_UP (R103): The management core declares a port's link up, restarting its stopped chains. -/
  | linkUp (port : PortId)
  /-- LAUNCH_RECORD_READ (R111): Both granules of a caravan head fill and the dispatcher reads and checks the record. -/
  | launchRecordRead (caravan : Nat)
  /-- DEPENDENCE_FILL (R114): A dependence granule fills, possibly making the record ready. -/
  | dependenceFill (caravan : Nat)
  /-- IMAGE_MEASURE (R126): A ready record's image is read and its SHA-384 checked against DIGEST. -/
  | imageMeasure (caravan : Nat)
  /-- ARBITRATION_ROUND (R115): The dispatcher places ready heads by priority and round-robin. -/
  | arbitrationRound
  /-- CONFIG_LOAD (R196): A staged record is loaded into a site's next configuration register. -/
  | configLoad (region site : Nat)
  /-- PREFETCH_CHECK (R195): A background fetch and loader check of an image completes into a FETCHED entry. -/
  | prefetchCheck (region : Nat)
  /-- PREDICTOR_FETCH (R212): After an exit the predictor may fetch an expected image. -/
  | predictorFetch (region cfgid : Nat)
  /-- ELEMENT_ADOPT (R200): An element adopts its next configuration when SWITCHOVER heads every consumed port. -/
  | elementAdopt (region site : Nat)
  /-- SWITCHOVER_DISCARD (R201): An element discards a head token blocking adoption and counts it. -/
  | switchoverDiscard (region site port : Nat)
  /-- STOP_HANDLING (R226): An element aligns STOPs on its needed ports, discarding DATA, and emits one STOP. -/
  | stopHandling (region site : Nat)
  /-- MODE_HANDLING (R227): An element aligns MODE tokens, takes the new mode word and emits MODE. -/
  | modeHandling (region site : Nat)
  /-- EXIT_ARRIVAL (R203): An exit token reaches sequencer port 15 and sets the EXIT event. -/
  | exitArrival (region : Nat)
  /-- INSTANCE_RETIRE (R211): An instance retires in commit order, discarding leftover tokens and freeing its entry. -/
  | instanceRetire (region : Nat)
  /-- STORE_MODE_CHANGE (R293): A memory tile takes a newer instance's store-mode words once all relevant elements adopted. -/
  | storeModeChange (region tile : Nat)
  /-- ACCESS_PERFORMED (R338): A bank or stack port performs one access in arrival order. -/
  | accessPerformed (k : Nat)
  /-- SC_ACCESS_PERFORM (R374): An SC node holding the serialising token performs an SC access. -/
  | scAccessPerform
  /-- TE_COPY (R347): A transfer engine moves rows of bytes from source to destination. -/
  | teCopy (e : Nat)
  /-- CV_CAST (R348): A conversion engine converts rows of elements between types. -/
  | cvCast (e : Nat)
  /-- CV_CSR (R349): A conversion engine packs a dense matrix into CSR arrays in two phases. -/
  | cvCsr (e : Nat)
  /-- CL_ALLREDUCE (R350): A collective engine reduces elements over every group member. -/
  | clAllreduce (e : Nat) (peers : PeerParts)
  /-- CL_REDSCAT (R350): A collective engine reduces and scatters rows by rank. -/
  | clRedscat (e : Nat) (peers : PeerParts)
  /-- CL_ALLGATHER (R350): A collective engine gathers every member's rows in rank order. -/
  | clAllgather (e : Nat) (peers : PeerParts)
  /-- CL_BCAST (R350): A collective engine copies the root's rows to every member. -/
  | clBcast (e : Nat) (peers : PeerParts)
  /-- ENGINE_COMMAND_END (R345): An engine command ends, writes its status cell and sets the ENGINE event. -/
  | engineCommandEnd (e : Nat)
  /-- PHASE_MESSAGE (R402): A pacing sideband message records a member's phase and updates MINPH and requests. -/
  | phaseMessage (member gtag : Nat) (phase : W64)
  /-- PACING_DESCRIPTOR_VALID (R401): The firmware sets V on a pacing descriptor, zeroing its phases. -/
  | pacingDescriptorValid (idx : Nat)
  /-- PARK_COMPLETE (R408): A parking agent becomes PARKED once its performable accesses are performed. -/
  | parkComplete (agent : AgentId)
  /-- FAULT_RECORD_WRITE (R410): The dispatcher writes the next fault record of an ASID into its queue. -/
  | faultRecordWrite (asid : Nat)
  /-- FQ_LINK_READ (R409): The dispatcher reads a fault-queue link cell to find the next cell. -/
  | fqLinkRead (asid : Nat)
  /-- RESUME (R413): A RESUME reply is taken and the parked agent replays its held accesses. -/
  | resume (asid : Nat)
  /-- SUBSTITUTE (R414): A SUBSTITUTE reply replaces a poisoned token with a loaded beat and replays. -/
  | substitute (asid : Nat)
  /-- ABORT (R408): An ABORT reply aborts the cluster or ends the engine command ABORTED. -/
  | abort (asid : Nat)
  /-- CLUSTER_ABORT (R417): The dispatcher takes a fatal fault, stops the cluster, voids granules and writes the record. -/
  | clusterAbort
  /-- ELEMENT_FREEZE (R422): An element freezes when a COMMA reaches an input and emits COMMA on its outputs. -/
  | elementFreeze (region site : Nat)
  /-- SNAPSHOT_COMPLETE (R424): Once all froze and quiesced, the save image is written and the cluster is released or thawed. -/
  | snapshotComplete (cluster : Nat)
  /-- CLUSTER_COMPLETE (R463): A finished cluster's completion record is written, granule 1 then granule 0. -/
  | clusterComplete (cluster : Nat)
  /-- SENSOR_SWEEP (R441): Every 64 ticks all sensors are read and readings, suspects, zones, trips and alerts change. -/
  | sensorSweep (raw : List Int) (pwr : Nat)
  /-- TICK_END (R456): At each tick end regions form droop signatures, match learned entries and charge energy. -/
  | tickEnd (ticks : List RegionTick)
  /-- DROOP (R455): A supply droop or replay burst sets an emergency request and teaches the droop table. -/
  | droop (region quadrant : Nat)
  /-- EMERGENCY_EXPIRE (R455): The emergency droop request ends after 8 ticks. -/
  | emergencyExpire (region quadrant : Nat)
  /-- LEARNED_HOLD_EXPIRE (R458): A learned pre-throttle hold ends, updating QUIET and STEP. -/
  | learnedHoldExpire (region : Nat)
  /-- GIVE (R451): The firmware's GO store gives budget tokens to another member. -/
  | give
  /-- GIVE_RECEIVE (R453): A member receiving a GIVE credits it or answers CAP. -/
  | giveReceive (member count : Nat)
  /-- GIVE_ANSWER (R452): The answer to a give arrives, GRES is written and GO cleared. -/
  | giveAnswer (res : GiveAnswer)
  /-- ILLEGAL_INSTRUCTION (R68): A fetched word with a reserved opcode, reserved sub-field or nonzero must-be-zero field raises ILLEGAL at decode. -/
  | illegalInstruction (w : W32)
  /-- FETCH (R156): A fetch at PC beyond the program, handler window or SRAM, or one that faults, raises a FETCH trap with no instruction executed. -/
  | fetch
  /-- POWER_REMOVAL (R120): Removal of power ends the failed-signature state, the mc_stop halt and the fixed FWM. -/
  | powerRemoval
  /-- LOTAR_LINK_DOWN (R447): A Lotar link goes down, setting ALERT_PEND LINK and making a pending give answer LOST. -/
  | lotarLinkDown (lotar : Nat)
  /-- GROUP_SET_WRITE (R360): The management firmware writes the package's GROUP_SET when the domain forms, the device keeping bit MEMBER set. -/
  | groupSetWrite (bits : BitVec 576)
  /-- VE_ADD (R244): Adds lanes of two beats with one rounding. -/
  | veAdd (region site : Nat)
  /-- VE_SUB (R244): Subtracts lanes of two beats with one rounding. -/
  | veSub (region site : Nat)
  /-- VE_MUL (R244): Multiplies lanes of two beats with one rounding. -/
  | veMul (region site : Nat)
  /-- VE_FMA (R244): Computes a × b + c lane by lane with one rounding. -/
  | veFma (region site : Nat)
  /-- VE_FMS (R244): Computes a × b − c lane by lane with one rounding. -/
  | veFms (region site : Nat)
  /-- VE_NEG (R245): Negates each lane exactly. -/
  | veNeg (region site : Nat)
  /-- VE_ABS (R245): Takes the magnitude of each lane exactly. -/
  | veAbs (region site : Nat)
  /-- VE_MIN (R245): Takes the lane-wise minimum. -/
  | veMin (region site : Nat)
  /-- VE_MAX (R245): Takes the lane-wise maximum. -/
  | veMax (region site : Nat)
  /-- VE_CLAMP (R245): Clamps each lane between lo and hi. -/
  | veClamp (region site : Nat)
  /-- VE_CMP (R246): Compares lanes and emits a bit per lane. -/
  | veCmp (region site : Nat)
  /-- VE_SELECT (R237): Chooses lanes from A or B by control bits. -/
  | veSelect (region site : Nat)
  /-- VE_CVT (R247): Consumes a token and converts its lanes into the output type, emitting full beats. -/
  | veCvt (region site : Nat)
  /-- VE_CVT_EMIT (R247): Emits held or part-built converted lanes in a firing needing the output alone. -/
  | veCvtEmit (region site : Nat)
  /-- VE_RINT (R249): Rounds each lane to an integral value. -/
  | veRint (region site : Nat)
  /-- VE_SCALE (R250): Multiplies each lane by a power of two. -/
  | veScale (region site : Nat)
  /-- VE_SHL (R251): Shifts each lane left. -/
  | veShl (region site : Nat)
  /-- VE_SHR (R251): Shifts each lane logically right. -/
  | veShr (region site : Nat)
  /-- VE_SAR (R251): Shifts each lane arithmetically right. -/
  | veSar (region site : Nat)
  /-- VE_AND (R251): Ands two beats bit by bit. -/
  | veAnd (region site : Nat)
  /-- VE_OR (R251): Ors two beats bit by bit. -/
  | veOr (region site : Nat)
  /-- VE_XOR (R251): Xors two beats bit by bit. -/
  | veXor (region site : Nat)
  /-- VE_NOT (R251): Inverts a beat bit by bit. -/
  | veNot (region site : Nat)
  /-- VE_ANDN (R251): Computes a and not b bit by bit. -/
  | veAndn (region site : Nat)
  /-- VE_EXP2 (R252): Computes exp2 of each lane, correctly rounded. -/
  | veExp2 (region site : Nat)
  /-- VE_LOG2 (R252): Computes log2 of each lane, correctly rounded. -/
  | veLog2 (region site : Nat)
  /-- VE_RCP (R252): Computes the reciprocal of each lane, correctly rounded. -/
  | veRcp (region site : Nat)
  /-- VE_RSQRT (R252): Computes the reciprocal square root of each lane. -/
  | veRsqrt (region site : Nat)
  /-- VE_SQRT (R252): Computes the square root of each lane. -/
  | veSqrt (region site : Nat)
  /-- VE_TANH (R252): Computes tanh of each lane. -/
  | veTanh (region site : Nat)
  /-- VE_LOGISTIC (R252): Computes the logistic function of each lane. -/
  | veLogistic (region site : Nat)
  /-- VE_BCAST (R253): Copies one lane to every lane. -/
  | veBcast (region site : Nat)
  /-- VE_PERM (R253): Permutes lanes by an index table or index beat. -/
  | vePerm (region site : Nat)
  /-- VE_ROT (R253): Rotates lanes by a constant. -/
  | veRot (region site : Nat)
  /-- VE_RSUM (R254): Sums the lanes of a beat through the fixed pairwise tree. -/
  | veRsum (region site : Nat)
  /-- VE_PSUM (R254): Forms inclusive prefix sums of the lanes by doubling distances. -/
  | vePsum (region site : Nat)
  /-- VE_RMAX (R255): Writes the largest lane into lane 0. -/
  | veRmax (region site : Nat)
  /-- VE_RMIN (R255): Writes the smallest lane into lane 0. -/
  | veRmin (region site : Nat)
  /-- VE_TACC (R256): Accumulates a DATA token lane by lane into the open sum. -/
  | veTacc (region site : Nat)
  /-- VE_TACC_CLOSE (R256): At a STOP rounds and emits the accumulated sum, then passes the STOP and resets. -/
  | veTaccClose (region site : Nat)
  /-- VE_MXPACK (R257): Consumes input values into the MX staging buffer. -/
  | veMxpack (region site : Nat)
  /-- VE_MXPACK_EMIT (R257): Emits the scale beat or an element beat of a closed MX group. -/
  | veMxpackEmit (region site : Nat)
  /-- VE_MXUNPACK (R258): Consumes a scale or element beat of an MX stream. -/
  | veMxunpack (region site : Nat)
  /-- VE_MXUNPACK_EMIT (R258): Emits the next output beat of a held MX element beat. -/
  | veMxunpackEmit (region site : Nat)
  /-- VE_AMASK (R259): Replaces masked-out lanes by minus infinity. -/
  | veAmask (region site : Nat)
  /-- VE_CONST (R260): Emits a fixed beat, once as a source or per trigger. -/
  | veConst (region site : Nat)
  /-- VE_STEER (R232): Emits D on the port chosen by the control value. -/
  | veSteer (region site : Nat)
  /-- VE_MERGE (R233): Emits the token of the arm chosen by the control value. -/
  | veMerge (region site : Nat)
  /-- VE_CARRY (R234): Passes the initial token, then loop tokens while the control is true. -/
  | veCarry (region site : Nat)
  /-- VE_INV (R235): Holds a value and emits it for each true control token. -/
  | veInv (region site : Nat)
  /-- VE_FORK (R236): Copies a token onto every arc of both output ports. -/
  | veFork (region site : Nat)
  /-- VE_SINK (R236): Consumes a token and emits nothing. -/
  | veSink (region site : Nat)
  /-- SQ_LOOPA (R266): Emits the next index of an affine loop run or its closing STOP. -/
  | sqLoopa (region site : Nat)
  /-- SQ_LOOPT (R266): Starts a loop run from a bound token and emits its indices and STOP. -/
  | sqLoopt (region site : Nat)
  /-- SQ_MXCMD (R268): Turns a trigger into a matrix command token from the template. -/
  | sqMxcmd (region site : Nat)
  /-- SQ_SEQ (R269): Controller passing one permit at a time and returning dones. -/
  | sqSeq (region site : Nat)
  /-- SQ_PIPE (R269): Controller passing up to E0 permits outstanding and returning dones. -/
  | sqPipe (region site : Nat)
  /-- SQ_STREAM (R269): Controller passing permits without limit and returning dones. -/
  | sqStream (region site : Nat)
  /-- SQ_PERMIT (R270): Source emitting n numbered permits and STOP(0). -/
  | sqPermit (region site : Nat)
  /-- SQ_DONE (R271): Collects children's DATA and STOPs and emits done tokens. -/
  | sqDone (region site : Nat)
  /-- SQ_COUNT (R272): Emits a running count per DATA token and a wrap token at the limit. -/
  | sqCount (region site : Nat)
  /-- SQ_EXIT (R273): Consumes DATA and at the first STOP emits the exit token. -/
  | sqExit (region site : Nat)
  /-- MX_MMA (R279): Consumes an MMA command, zeroing the active register when ACC is 0. -/
  | mxMma (region site : Nat)
  /-- MX_MMT (R282): Consumes an MMT command running one structured term. -/
  | mxMmt (region site : Nat)
  /-- MX_MRES (R283): Consumes an MRES command applying residual entries. -/
  | mxMres (region site : Nat)
  /-- MX_TXCH (R285): Exchanges the roles of the two tile registers. -/
  | mxTxch (region site : Nat)
  /-- MX_DRAIN (R284): Consumes a DRAIN command that emits the active register. -/
  | mxDrain (region site : Nat)
  /-- MX_LDACC (R285): Consumes an LDACC command loading the loading register from port 3. -/
  | mxLdacc (region site : Nat)
  /-- MX_ZERO (R285): Zeroes the active register and clears its poison. -/
  | mxZero (region site : Nat)
  /-- MX_ERROR_COMMAND (R278): Consumes an error or malformed command alone, poisoning the active register. -/
  | mxErrorCommand (region site : Nat)
  /-- MX_STEP (R280): Consumes one beat from each operand side and updates every accumulator. -/
  | mxStep (region site : Nat)
  /-- MX_LDACC_BEAT (R285): Consumes one accumulator-load beat into the loading register. -/
  | mxLdaccBeat (region site : Nat)
  /-- MX_DRAIN_BEAT (R284): Emits one converted beat of the active register. -/
  | mxDrainBeat (region site : Nat)
  /-- MX_STOP_BOUNDARY (R287): At a STOP on commands, aligns STOPs on all inputs and emits a deeper STOP. -/
  | mxStopBoundary (region site : Nat)
  /-- AG_ALOAD (R302): Performs a load run over a pattern, as a source or per trigger. -/
  | agAload (region site : Nat)
  /-- AG_ASTORE (R307): Stores a DATA beat at the next point of the run. -/
  | agAstore (region site : Nat)
  /-- AG_GATHER (R303): Performs a load run at an index-scaled offset. -/
  | agGather (region site : Nat)
  /-- AG_SCATTER (R308): Stores beats over a run at an index-scaled offset through the scatter set. -/
  | agScatter (region site : Nat)
  /-- AG_DLOAD (R333): Reads a sparse tile and decomposes it into terms and residual entries. -/
  | agDload (region site : Nat)
  /-- AG_DLOAD_EMIT (R334): Emits one A beat and index beat, or one residual beat, of a decomposed tile. -/
  | agDloadEmit (region site : Nat)
  /-- AG_PCLEAR (R309): Makes the granule at every point EMPTY. -/
  | agPclear (region site : Nat)
  /-- AG_FILL (R309): Writes a constant beat at every point. -/
  | agFill (region site : Nat)
  /-- AG_RESPONSE_EMIT (R306): Emits the next load result in point order once performed. -/
  | agResponseEmit (region site : Nat)
  /-- AG_COMPLETION (R310): Emits a completion token once every counted access is performed. -/
  | agCompletion (region site : Nat)
  /-- HD_BVSCAN (R317): Consumes and combines bit-vector beats. -/
  | hdBvscan (region site : Nat)
  /-- HD_BTSCAN (R318): Consumes a summary or leaf beat of a two-level bit tree. -/
  | hdBtscan (region site : Nat)
  /-- HD_SCAN_EMIT (R317): Emits the position of the next set bit. -/
  | hdScanEmit (region site : Nat)
  /-- HD_MCLASS (R327): Classifies a position pair as FULL, PARTIAL or EMPTY and emits class tokens. -/
  | hdMclass (region site : Nat)
  /-- HD_PMASK (R328): Consumes a pair and begins its per-row masks. -/
  | hdPmask (region site : Nat)
  /-- HD_PMASK_ROW (R328): Emits the exact mask of one row of a pair. -/
  | hdPmaskRow (region site : Nat)
  /-- OW_OADD (R396): Adds an operand beat into an owned line atomically. -/
  | owOadd (region site : Nat)
  /-- OW_OMIN (R396): Takes the lane-wise minimum into an owned line. -/
  | owOmin (region site : Nat)
  /-- OW_OMAX (R396): Takes the lane-wise maximum into an owned line. -/
  | owOmax (region site : Nat)
  /-- OW_OAND (R396): Ands an operand into an owned line. -/
  | owOand (region site : Nat)
  /-- OW_OOR (R396): Ors an operand into an owned line. -/
  | owOor (region site : Nat)
  /-- OW_OXOR (R396): Xors an operand into an owned line. -/
  | owOxor (region site : Nat)
  /-- OW_OSWP (R396): Swaps an operand into an owned line. -/
  | owOswp (region site : Nat)
  /-- OW_OCAS (R396): Compares and swaps lanes of an owned line by bit pattern. -/
  | owOcas (region site : Nat)
  /-- OW_OINC (R397): Increments the n32 bins named by 16 lanes. -/
  | owOinc (region site : Nat)
  /-- OW_OMXACC (R398): Accumulates an MX group into 64 stored blocks. -/
  | owOmxacc (region site : Nat)
  /-- OW_OREAD (R399): Reads an owned line in the owner's arrival order. -/
  | owOread (region site : Nat)
  /-- OW_COMPLETION (R400): At a segment STOP emits a completion once the segment's updates are applied. -/
  | owCompletion (region site : Nat)
  /-- BR_EREQ (R354): Issues a command block from a token to an engine. -/
  | brEreq (region site : Nat)
  /-- BR_ERESP (R354): Emits the response of an ended engine command in request order. -/
  | brEresp (region site : Nat)
  /-- BR_RLOAD (R355): Loads a remote beat at a descriptor-based virtual address. -/
  | brRload (region site : Nat)
  /-- BR_RSTORE (R355): Stores a beat at a descriptor-based virtual address. -/
  | brRstore (region site : Nat)
  /-- BR_RATOM (R356): Performs a scoped atomic at a token's address and emits the old value. -/
  | brRatom (region site : Nat)
  deriving DecidableEq, Repr

end Sys2Proof
end

