-- ==== Sys2Proof/WellFormed.lean ====
section
/-! DEFINITION. Which instructions have a word: the limits R64 to R67 put on the sub-fields. -/

namespace Sys2Proof

/-- The CSR numbers of the CSR map (R164) and the cores on which each is accessible: `(number, S, M)`. -/
def csrMap : List (Nat × Bool × Bool) :=
  [(0x000, true, false), (0x001, true, false), (0x002, true, false), (0x003, true, false),
   (0x004, true, false), (0x005, true, false), (0x006, true, false), (0x007, true, false),
   (0x008, true, true), (0x009, true, true), (0x00A, true, true), (0x00B, true, false), (0x00C, true, true),
   (0x010, true, false), (0x011, true, false), (0x012, true, false), (0x018, true, false), (0x019, true, false),
   (0x400, true, true), (0x401, true, true), (0x402, true, true), (0x403, true, true), (0x404, true, true),
   (0x405, true, true), (0x406, true, true), (0x407, true, true),
   (0x800, false, true), (0x801, false, true), (0x802, false, true), (0x803, false, true), (0x804, false, true),
   (0x805, false, true), (0x806, false, true), (0x807, false, true), (0x808, false, true), (0x809, false, true)]

/-- The CSR is named in the CSR map for some core (R67, R164). -/
def csrNamed (c : BitVec 12) : Bool := csrMap.any (fun e => e.1 == c.toNat)

/-- A mode word without a reserved field value (R43, R44). -/
def modeWordOk (m : BitVec 8) : Bool := (m.extractLsb' 6 2 == 0#2) && decide ((m.extractLsb' 0 3).toNat ≤ 4)

/-- The instruction has an encoding, and its fields keep the limits of R64 to R67. The device's own steps have no word. -/
def Instr.wf : Instr → Bool
  | .ext _ _ pos lenm => decide (pos.toNat + lenm.toNat + 1 ≤ 64)
  | .exts _ _ pos lenm => decide (pos.toNat + lenm.toNat + 1 ≤ 64)
  | .ins _ _ pos lenm => decide (pos.toNat + lenm.toNat + 1 ≤ 64)
  | .injData _ _ p => decide (p.toNat ≤ 14)
  | .injDataP _ _ p => decide (p.toNat ≤ 14)
  | .injStop _ _ p => decide (p.toNat ≤ 14)
  | .take _ p => decide (p.toNat ≤ 14)
  | .imode m => modeWordOk m
  | .copy _ _ e => decide (e.toNat ≤ 23)
  | .conv _ _ e => decide (e.toNat ≤ 23)
  | .coll _ _ e => decide (e.toNat ≤ 23)
  | .csrr _ c => csrNamed c
  | .csrw _ c => csrNamed c
  | .csrx _ _ c => csrNamed c
  | .add _ _ _ => true
  | .sub _ _ _ => true
  | .mul _ _ _ => true
  | .mulh _ _ _ => true
  | .mulhn _ _ _ => true
  | .div _ _ _ => true
  | .divn _ _ _ => true
  | .rem _ _ _ => true
  | .remn _ _ _ => true
  | .and _ _ _ => true
  | .or _ _ _ => true
  | .xor _ _ _ => true
  | .andn _ _ _ => true
  | .sll _ _ _ => true
  | .srl _ _ _ => true
  | .sra _ _ _ => true
  | .min _ _ _ => true
  | .max _ _ _ => true
  | .minn _ _ _ => true
  | .maxn _ _ _ => true
  | .popc _ _ => true
  | .clz _ _ => true
  | .sh1add _ _ _ => true
  | .sh2add _ _ _ => true
  | .sh3add _ _ _ => true
  | .addi _ _ _ => true
  | .andi _ _ _ => true
  | .ori _ _ _ => true
  | .xori _ _ _ => true
  | .slli _ _ _ => true
  | .srli _ _ _ => true
  | .srai _ _ _ => true
  | .liz _ _ _ => true
  | .lin _ _ _ => true
  | .lik _ _ _ => true
  | .cmp _ _ _ _ => true
  | .cmpi _ _ _ _ => true
  | .plog _ _ _ _ => true
  | .sel _ _ _ _ => true
  | .brc _ _ => true
  | .brcNot _ _ => true
  | .jal _ _ => true
  | .jalr _ _ _ => true
  | .ldI8 _ _ _ => true
  | .ldI16 _ _ _ => true
  | .ldI32 _ _ _ => true
  | .ld64 _ _ _ => true
  | .ldN8 _ _ _ => true
  | .ldN16 _ _ _ => true
  | .ldN32 _ _ _ => true
  | .st8 _ _ _ => true
  | .st16 _ _ _ => true
  | .st32 _ _ _ => true
  | .st64 _ _ _ => true
  | .lda _ _ _ _ => true
  | .stl _ _ _ _ => true
  | .aadd _ _ _ _ _ => true
  | .aand _ _ _ _ _ => true
  | .aor _ _ _ _ _ => true
  | .axor _ _ _ _ _ => true
  | .amin _ _ _ _ _ => true
  | .amax _ _ _ _ _ => true
  | .aminn _ _ _ _ _ => true
  | .amaxn _ _ _ _ _ => true
  | .aswp _ _ _ _ _ => true
  | .acas _ _ _ _ _ => true
  | .fence _ => true
  | .fenceAcq _ => true
  | .fenceRel _ => true
  | .ldf _ _ _ _ => true
  | .pclr _ => true
  | .probe _ _ => true
  | .scld _ _ _ => true
  | .scst _ _ _ => true
  | .pref _ => true
  | .cfg _ => true
  | .run => true
  | .swo _ => true
  | .wex _ => true
  | .halta _ => true
  | .rela _ => true
  | .icomma _ => true
  | .bar _ => true
  | .launch _ _ _ => true
  | .sema _ => true
  | .semr _ => true
  | .ewait _ => true
  | .trap _ => true
  | .rtt => true
  | .wfe => true
  | .halt => true
  | .evtPend _ => false
  | .alertPend _ => false
  | .mcAsinval _ => false
  | .meterStep _ => false
  | .member _ => false
  | .csrWrite _ _ => false
  | .semAcq _ => false
  | .semRel _ => false
  | .carReg _ => false
  | .carUnreg _ => false
  | .asSetSet _ => false
  | .asSetRemove _ => false
  | .asSetInval _ => false
  | .resSet _ => false
  | .portReset _ => false
  | .cellClr _ => false
  | .getCert _ => false
  | .attest _ => false
  | .keyAgree _ => false
  | .sessionOpen _ => false
  | .sessionClose _ => false
  | .read _ => false
  | .powerOn => false
  | .linkTrain _ _ => false
  | .linkRekey _ => false
  | .linkDown _ => false
  | .linkUp _ => false
  | .launchRecordRead _ => false
  | .dependenceFill _ => false
  | .imageMeasure _ => false
  | .arbitrationRound => false
  | .configLoad _ _ => false
  | .prefetchCheck _ => false
  | .predictorFetch _ _ => false
  | .elementAdopt _ _ => false
  | .switchoverDiscard _ _ _ => false
  | .stopHandling _ _ => false
  | .modeHandling _ _ => false
  | .exitArrival _ => false
  | .instanceRetire _ => false
  | .storeModeChange _ _ => false
  | .accessPerformed _ => false
  | .scAccessPerform => false
  | .teCopy _ => false
  | .cvCast _ => false
  | .cvCsr _ => false
  | .clAllreduce _ _ => false
  | .clRedscat _ _ => false
  | .clAllgather _ _ => false
  | .clBcast _ _ => false
  | .engineCommandEnd _ => false
  | .phaseMessage _ _ _ => false
  | .pacingDescriptorValid _ => false
  | .parkComplete _ => false
  | .faultRecordWrite _ => false
  | .fqLinkRead _ => false
  | .resume _ => false
  | .substitute _ => false
  | .abort _ => false
  | .clusterAbort => false
  | .elementFreeze _ _ => false
  | .snapshotComplete _ => false
  | .clusterComplete _ => false
  | .sensorSweep _ _ => false
  | .tickEnd _ => false
  | .droop _ _ => false
  | .emergencyExpire _ _ => false
  | .learnedHoldExpire _ => false
  | .give => false
  | .giveReceive _ _ => false
  | .giveAnswer _ => false
  | .veAdd _ _ => false
  | .veSub _ _ => false
  | .veMul _ _ => false
  | .veFma _ _ => false
  | .veFms _ _ => false
  | .veNeg _ _ => false
  | .veAbs _ _ => false
  | .veMin _ _ => false
  | .veMax _ _ => false
  | .veClamp _ _ => false
  | .veCmp _ _ => false
  | .veSelect _ _ => false
  | .veCvt _ _ => false
  | .veCvtEmit _ _ => false
  | .veRint _ _ => false
  | .veScale _ _ => false
  | .veShl _ _ => false
  | .veShr _ _ => false
  | .veSar _ _ => false
  | .veAnd _ _ => false
  | .veOr _ _ => false
  | .veXor _ _ => false
  | .veNot _ _ => false
  | .veAndn _ _ => false
  | .veExp2 _ _ => false
  | .veLog2 _ _ => false
  | .veRcp _ _ => false
  | .veRsqrt _ _ => false
  | .veSqrt _ _ => false
  | .veTanh _ _ => false
  | .veLogistic _ _ => false
  | .veBcast _ _ => false
  | .vePerm _ _ => false
  | .veRot _ _ => false
  | .veRsum _ _ => false
  | .vePsum _ _ => false
  | .veRmax _ _ => false
  | .veRmin _ _ => false
  | .veTacc _ _ => false
  | .veTaccClose _ _ => false
  | .veMxpack _ _ => false
  | .veMxpackEmit _ _ => false
  | .veMxunpack _ _ => false
  | .veMxunpackEmit _ _ => false
  | .veAmask _ _ => false
  | .veConst _ _ => false
  | .veSteer _ _ => false
  | .veMerge _ _ => false
  | .veCarry _ _ => false
  | .veInv _ _ => false
  | .veFork _ _ => false
  | .veSink _ _ => false
  | .sqLoopa _ _ => false
  | .sqLoopt _ _ => false
  | .sqMxcmd _ _ => false
  | .sqSeq _ _ => false
  | .sqPipe _ _ => false
  | .sqStream _ _ => false
  | .sqPermit _ _ => false
  | .sqDone _ _ => false
  | .sqCount _ _ => false
  | .sqExit _ _ => false
  | .mxMma _ _ => false
  | .mxMmt _ _ => false
  | .mxMres _ _ => false
  | .mxTxch _ _ => false
  | .mxDrain _ _ => false
  | .mxLdacc _ _ => false
  | .mxZero _ _ => false
  | .mxErrorCommand _ _ => false
  | .mxStep _ _ => false
  | .mxLdaccBeat _ _ => false
  | .mxDrainBeat _ _ => false
  | .mxStopBoundary _ _ => false
  | .agAload _ _ => false
  | .agAstore _ _ => false
  | .agGather _ _ => false
  | .agScatter _ _ => false
  | .agDload _ _ => false
  | .agDloadEmit _ _ => false
  | .agPclear _ _ => false
  | .agFill _ _ => false
  | .agResponseEmit _ _ => false
  | .agCompletion _ _ => false
  | .hdBvscan _ _ => false
  | .hdBtscan _ _ => false
  | .hdScanEmit _ _ => false
  | .hdMclass _ _ => false
  | .hdPmask _ _ => false
  | .hdPmaskRow _ _ => false
  | .owOadd _ _ => false
  | .owOmin _ _ => false
  | .owOmax _ _ => false
  | .owOand _ _ => false
  | .owOor _ _ => false
  | .owOxor _ _ => false
  | .owOswp _ _ => false
  | .owOcas _ _ => false
  | .owOinc _ _ => false
  | .owOmxacc _ _ => false
  | .owOread _ _ => false
  | .owCompletion _ _ => false
  | .brEreq _ _ => false
  | .brEresp _ _ => false
  | .brRload _ _ => false
  | .brRstore _ _ => false
  | .brRatom _ _ => false
  | .illegalInstruction _ => false
  | .fetch => false
  | .powerRemoval => false
  | .lotarLinkDown _ => false
  | .groupSetWrite _ => false

end Sys2Proof
end

