-- ==== Sys2Proof/Decode.lean ====
section
/-! DEFINITION. The decoder of the sequencer instruction words (R60 to R68), total on every word, and the encoder written
from the same tables. -/

namespace Sys2Proof

/-- Why a word is no instruction (R68 step 1, first three cases). -/
inductive DecodeError where
  /-- OP is reserved (R63). -/
  | reservedOpcode
  /-- A sub-field or code of R64 to R67 is reserved. -/
  | reservedSubField
  /-- A field that R62 requires to be zero is nonzero. -/
  | nonzeroField
  deriving DecidableEq, Repr

/-- The bits `[lo + n - 1 : lo]` of a word (R2). -/
abbrev field (w : W32) (lo n : Nat) : BitVec n := w.extractLsb' lo n

/-- A scope from its code (R65). -/
def Scope.ofCode : Nat → Option Scope
  | 0 => some .tile | 1 => some .region | 2 => some .cluster | 3 => some .die | 4 => some .package
  | 5 => some .group | 6 => some .domain | 7 => some .network | 8 => some .system
  | _ => none

/-- A scope's code (R65). -/
def Scope.code : Scope → BitVec 4
  | .tile => 0 | .region => 1 | .cluster => 2 | .die => 3 | .package => 4
  | .group => 5 | .domain => 6 | .network => 7 | .system => 8

/-- A condition from its code (R65). -/
def Cond.ofCode : Nat → Option Cond
  | 0 => some .eq | 1 => some .ne | 2 => some .lt | 3 => some .ge | 4 => some .ltn | 5 => some .gen
  | 6 => some .le | 7 => some .gt | 8 => some .len | 9 => some .gtn | 10 => some .tst | 11 => some .ntst
  | _ => none

/-- A condition's code (R65). -/
def Cond.code : Cond → BitVec 4
  | .eq => 0 | .ne => 1 | .lt => 2 | .ge => 3 | .ltn => 4 | .gen => 5
  | .le => 6 | .gt => 7 | .len => 8 | .gtn => 9 | .tst => 10 | .ntst => 11

/-- The W bit (R60). -/
def Width.ofBit (b : BitVec 1) : Width := if b = 1 then .w64 else .w32

/-- The W bit of a width (R60). -/
def Width.bit : Width → BitVec 1
  | .w32 => 0
  | .w64 => 1

/-- The instruction `i` when the must-be-zero field `z` is zero (R62). -/
def mustZero (n : Nat) (z : BitVec n) (i : Except DecodeError Instr) : Except DecodeError Instr :=
  if z = 0#n then i else .error .nonzeroField

/-- The instruction when it keeps the limits of R64 to R67. -/
def limited (i : Instr) : Except DecodeError Instr :=
  if i.wf then .ok i else .error .reservedSubField

/-- The instruction of a scope code, when the code is one (R65). -/
def withScope (w : W32) (f : Scope → Except DecodeError Instr) : Except DecodeError Instr :=
  match Scope.ofCode (field w 7 4).toNat with
  | some sc => f sc
  | none => .error .reservedSubField

/-- Major opcode 0x01 (R64): the ALU functions. -/
def decodeAlu (w : W32) : Except DecodeError Instr :=
  let d := field w 21 5
  let a := field w 16 5
  let b := field w 11 5
  mustZero 5 (field w 6 5) <|
    match (field w 0 6).toNat with
    | 0x00 => .ok (.add d a b)
    | 0x01 => .ok (.sub d a b)
    | 0x02 => .ok (.mul d a b)
    | 0x03 => .ok (.mulh d a b)
    | 0x04 => .ok (.mulhn d a b)
    | 0x05 => .ok (.div d a b)
    | 0x06 => .ok (.divn d a b)
    | 0x07 => .ok (.rem d a b)
    | 0x08 => .ok (.remn d a b)
    | 0x09 => .ok (.and d a b)
    | 0x0A => .ok (.or d a b)
    | 0x0B => .ok (.xor d a b)
    | 0x0C => .ok (.andn d a b)
    | 0x0D => .ok (.sll d a b)
    | 0x0E => .ok (.srl d a b)
    | 0x0F => .ok (.sra d a b)
    | 0x10 => .ok (.min d a b)
    | 0x11 => .ok (.max d a b)
    | 0x12 => .ok (.minn d a b)
    | 0x13 => .ok (.maxn d a b)
    | 0x14 => mustZero 5 b (.ok (.popc d a))
    | 0x15 => mustZero 5 b (.ok (.clz d a))
    | 0x16 => .ok (.sh1add d a b)
    | 0x17 => .ok (.sh2add d a b)
    | 0x18 => .ok (.sh3add d a b)
    | _ => .error .reservedSubField

/-- Major opcodes 0x09 and 0x0A: the wide immediates (R171) and the bit fields (R172). -/
def decodeWide (w : W32) : Except DecodeError Instr :=
  let d := field w 21 5
  let h := field w 19 2
  let i := field w 0 16
  mustZero 1 (field w 16 1) <|
    match (field w 17 2).toNat with
    | 0 => .ok (.liz d h i)
    | 1 => .ok (.lin d h i)
    | 2 => .ok (.lik d h i)
    | _ => .error .reservedSubField

def decodeBits (w : W32) : Except DecodeError Instr :=
  let d := field w 21 5
  let a := field w 16 5
  let p := field w 10 6
  let l := field w 4 6
  match (field w 0 4).toNat with
  | 0 => limited (.ext d a p l)
  | 1 => limited (.exts d a p l)
  | 2 => limited (.ins d a p l)
  | _ => .error .reservedSubField

/-- Major opcodes 0x0B to 0x0D: compares and predicate logic (R173, R174). -/
def decodeCmp (w : W32) : Except DecodeError Instr :=
  match Cond.ofCode (field w 19 4).toNat with
  | some c => mustZero 9 (field w 0 9) (.ok (.cmp (field w 23 3) c (field w 14 5) (field w 9 5)))
  | none => .error .reservedSubField

def decodeCmpi (w : W32) : Except DecodeError Instr :=
  match Cond.ofCode (field w 19 4).toNat with
  | some c => .ok (.cmpi (field w 23 3) c (field w 14 5) (field w 0 14))
  | none => .error .reservedSubField

/-- Major opcode 0x14: the scalar loads (R179). -/
def decodeLd (w : W32) : Except DecodeError Instr :=
  let d := field w 21 5
  let a := field w 16 5
  let o := field w 0 12
  match (field w 12 4).toNat with
  | 0 => .ok (.ldI8 d a o)
  | 1 => .ok (.ldI16 d a o)
  | 2 => .ok (.ldI32 d a o)
  | 3 => .ok (.ld64 d a o)
  | 4 => .ok (.ldN8 d a o)
  | 5 => .ok (.ldN16 d a o)
  | 6 => .ok (.ldN32 d a o)
  | _ => .error .reservedSubField

/-- Major opcode 0x15: the scalar stores (R179). -/
def decodeSt (w : W32) : Except DecodeError Instr :=
  let d := field w 21 5
  let a := field w 16 5
  let o := field w 0 12
  match (field w 12 4).toNat with
  | 0 => .ok (.st8 d a o)
  | 1 => .ok (.st16 d a o)
  | 2 => .ok (.st32 d a o)
  | 3 => .ok (.st64 d a o)
  | _ => .error .reservedSubField

/-- Major opcode 0x18: the atomics (R387). -/
def decodeAtomic (w : W32) : Except DecodeError Instr :=
  let d := field w 21 5
  let a := field w 16 5
  let b := field w 11 5
  let wd := Width.ofBit (field w 6 1)
  withScope w fun sc =>
    match (field w 0 6).toNat with
    | 0 => .ok (.aadd d a b sc wd)
    | 1 => .ok (.aand d a b sc wd)
    | 2 => .ok (.aor d a b sc wd)
    | 3 => .ok (.axor d a b sc wd)
    | 4 => .ok (.amin d a b sc wd)
    | 5 => .ok (.amax d a b sc wd)
    | 6 => .ok (.aminn d a b sc wd)
    | 7 => .ok (.amaxn d a b sc wd)
    | 8 => .ok (.aswp d a b sc wd)
    | 9 => .ok (.acas d a b sc wd)
    | _ => .error .reservedSubField

/-- Major opcode 0x19: the fences (R388). W is zero. -/
def decodeFence (w : W32) : Except DecodeError Instr :=
  mustZero 15 (field w 11 15) <| mustZero 1 (field w 6 1) <| withScope w fun sc =>
    match (field w 0 6).toNat with
    | 0 => .ok (.fence sc)
    | 1 => .ok (.fenceAcq sc)
    | 2 => .ok (.fenceRel sc)
    | _ => .error .reservedSubField

/-- Major opcode 0x1A: the presence instructions (R389). -/
def decodePresence (w : W32) : Except DecodeError Instr :=
  let d := field w 21 5
  let a := field w 16 5
  mustZero 5 (field w 11 5) <|
    match (field w 0 6).toNat with
    | 0 => withScope w fun sc => .ok (.ldf d a sc (Width.ofBit (field w 6 1)))
    | 1 => mustZero 5 (field w 6 5) <| mustZero 5 d (.ok (.pclr a))
    | 2 => mustZero 5 (field w 6 5) (.ok (.probe d a))
    | _ => .error .reservedSubField

/-- Major opcode 0x1B: the SC accesses (R391), whose scope field is 4. -/
def decodeSc (w : W32) : Except DecodeError Instr :=
  let wd := Width.ofBit (field w 6 1)
  if field w 7 4 = 4#4 then
    match (field w 0 6).toNat with
    | 0 => mustZero 5 (field w 11 5) (.ok (.scld (field w 21 5) (field w 16 5) wd))
    | 1 => mustZero 5 (field w 21 5) (.ok (.scst (field w 16 5) (field w 11 5) wd))
    | _ => .error .reservedSubField
  else .error .reservedSubField

/-- Major opcodes 0x20 and 0x21: staging and starting (R194 to R199). -/
def decodeStage (w : W32) : Except DecodeError Instr :=
  mustZero 5 (field w 21 5) <| mustZero 5 (field w 11 5) <| mustZero 8 (field w 0 8) <|
    match (field w 8 3).toNat with
    | 0 => .ok (.pref (field w 16 5))
    | 1 => .ok (.cfg (field w 16 5))
    | _ => .error .reservedSubField

def decodeRun (w : W32) : Except DecodeError Instr :=
  mustZero 5 (field w 21 5) <| mustZero 5 (field w 11 5) <| mustZero 8 (field w 0 8) <|
    match (field w 8 3).toNat with
    | 0 => mustZero 5 (field w 16 5) (.ok .run)
    | 1 => .ok (.swo (field w 16 5))
    | _ => .error .reservedSubField

/-- Major opcode 0x22: INJ and TAKE (R206, R207). -/
def decodePort (w : W32) : Except DecodeError Instr :=
  let a := field w 16 5
  let b := field w 11 5
  let p := field w 5 4
  mustZero 1 (field w 0 1) <|
    match (field w 9 2).toNat, (field w 2 3).toNat, (field w 1 1).toNat with
    | 0, 0, 0 => mustZero 5 (field w 21 5) (limited (.injData a b p))
    | 0, 0, _ => mustZero 5 (field w 21 5) (limited (.injDataP a b p))
    | 0, 1, 0 => mustZero 5 (field w 21 5) (limited (.injStop a b p))
    | 0, _, _ => .error .reservedSubField
    | 1, _, _ => mustZero 4 (field w 1 4) <| mustZero 5 a <| mustZero 5 b (limited (.take (field w 21 5) p))
    | _, _, _ => .error .reservedSubField

/-- Major opcodes 0x23 to 0x25. -/
def decodeFabric (w : W32) : Except DecodeError Instr :=
  match (field w 26 6).toNat with
  | 0x23 => mustZero 21 (field w 0 21) (.ok (.wex (field w 21 5)))
  | 0x24 => mustZero 15 (field w 11 15) <|
      if field w 10 1 = 0#1 then .ok (.halta (field w 0 10)) else .ok (.rela (field w 0 10))
  | _ =>
    match (field w 9 2).toNat with
    | 0 => mustZero 5 (field w 21 5) <| mustZero 5 (field w 11 5) <|
        mustZero 9 (field w 0 9) (.ok (.icomma (field w 16 5)))
    | 1 => mustZero 15 (field w 11 15) <| mustZero 1 (field w 8 1) (limited (.imode (field w 0 8)))
    | _ => .error .reservedSubField

/-- Major opcode 0x2C: the engine instructions (R342). -/
def decodeEngine (w : W32) : Except DecodeError Instr :=
  let d := field w 21 5
  let a := field w 16 5
  let e := field w 3 5
  mustZero 5 (field w 11 5) <| mustZero 3 (field w 0 3) <|
    match (field w 8 3).toNat with
    | 0 => limited (.copy d a e)
    | 1 => limited (.conv d a e)
    | 2 => limited (.coll d a e)
    | 3 => mustZero 5 d <| mustZero 5 e (.ok (.ewait a))
    | _ => .error .reservedSubField

/-- Major opcode 0x30: the CSR instructions (R191). -/
def decodeCsr (w : W32) : Except DecodeError Instr :=
  let d := field w 21 5
  let a := field w 16 5
  let c := field w 0 12
  match (field w 12 4).toNat with
  | 0 => mustZero 5 a (limited (.csrr d c))
  | 1 => mustZero 5 d (limited (.csrw a c))
  | 2 => limited (.csrx d a c)
  | _ => .error .reservedSubField

/-- Major opcode 0x31: TRAP, RTT, WFE, HALT (R187 to R190). -/
def decodeSystem (w : W32) : Except DecodeError Instr :=
  mustZero 10 (field w 16 10) <|
    match (field w 12 4).toNat with
    | 0 => .ok (.trap (field w 0 12))
    | 1 => mustZero 12 (field w 0 12) (.ok .rtt)
    | 2 => mustZero 12 (field w 0 12) (.ok .wfe)
    | 3 => mustZero 12 (field w 0 12) (.ok .halt)
    | _ => .error .reservedSubField

/-- Decode one instruction word (R60 to R67): the instruction, or why the word is none. -/
def decode (w : W32) : Except DecodeError Instr :=
  let d := field w 21 5
  let a := field w 16 5
  let i := field w 0 16
  match (field w 26 6).toNat with
  | 0x01 => decodeAlu w
  | 0x02 => .ok (.addi d a i)
  | 0x03 => .ok (.andi d a i)
  | 0x04 => .ok (.ori d a i)
  | 0x05 => .ok (.xori d a i)
  | 0x06 => mustZero 10 (field w 6 10) (.ok (.slli d a (field w 0 6)))
  | 0x07 => mustZero 10 (field w 6 10) (.ok (.srli d a (field w 0 6)))
  | 0x08 => mustZero 10 (field w 6 10) (.ok (.srai d a (field w 0 6)))
  | 0x09 => decodeWide w
  | 0x0A => decodeBits w
  | 0x0B => decodeCmp w
  | 0x0C => decodeCmpi w
  | 0x0D => mustZero 13 (field w 0 13) (.ok (.plog (field w 23 3) (field w 20 3) (field w 17 3) (field w 13 4)))
  | 0x0E => mustZero 8 (field w 0 8) (.ok (.sel d a (field w 11 5) (field w 8 3)))
  | 0x10 => if field w 22 1 = 0#1 then .ok (.brc (field w 23 3) (field w 0 22))
            else .ok (.brcNot (field w 23 3) (field w 0 22))
  | 0x11 => .ok (.jal d (field w 0 21))
  | 0x12 => .ok (.jalr d a i)
  | 0x14 => decodeLd w
  | 0x15 => decodeSt w
  | 0x16 => mustZero 5 (field w 11 5) <| withScope w fun sc =>
      if field w 0 6 = 0#6 then .ok (.lda d a sc (Width.ofBit (field w 6 1))) else .error .reservedSubField
  | 0x17 => mustZero 5 d <| withScope w fun sc =>
      if field w 0 6 = 0#6 then .ok (.stl a (field w 11 5) sc (Width.ofBit (field w 6 1)))
      else .error .reservedSubField
  | 0x18 => decodeAtomic w
  | 0x19 => decodeFence w
  | 0x1A => decodePresence w
  | 0x1B => decodeSc w
  | 0x20 => decodeStage w
  | 0x21 => decodeRun w
  | 0x22 => decodePort w
  | 0x23 => decodeFabric w
  | 0x24 => decodeFabric w
  | 0x25 => decodeFabric w
  | 0x28 => mustZero 15 (field w 11 15) <| mustZero 7 (field w 0 7) <| withScope w fun sc => .ok (.bar sc)
  | 0x29 => mustZero 11 (field w 0 11) (.ok (.launch d a (field w 11 5)))
  | 0x2A => mustZero 15 (field w 11 15) <| mustZero 4 (field w 6 4) <|
      if field w 10 1 = 0#1 then .ok (.sema (field w 0 6)) else .ok (.semr (field w 0 6))
  | 0x2C => decodeEngine w
  | 0x30 => decodeCsr w
  | 0x31 => decodeSystem w
  | _ => .error .reservedOpcode

/-- A little-endian word from its bytes, the lowest address first (R3). -/
def wordOfBytes : List Byte → W32
  | [b0, b1, b2, b3] => b3 ++ b2 ++ b1 ++ b0
  | _ => 0

/-- The bytes of a word, the lowest address first (R3). -/
def bytesOfWord (w : W32) : List Byte :=
  [w.extractLsb' 0 8, w.extractLsb' 8 8, w.extractLsb' 16 8, w.extractLsb' 24 8]

/-- Decode the four bytes of an instruction as they stand in memory (R60). -/
def decodeBytes (bs : List Byte) : Except DecodeError Instr := decode (wordOfBytes bs)

/-- The instruction the decoder reads from a table row's word: `w` numbered from bit 0 up, bits at `nbits` and above zero. -/
def decodeTableWord (nbits w : Nat) : Option Instr :=
  if nbits ≤ 32 then (decodeBytes (bytesOfWord (BitVec.ofNat 32 (w % 2 ^ nbits)))).toOption else none

/-- Format A: OP, sd, sa, sb, fn (R60). -/
def fmtA (op : BitVec 6) (d a b : BitVec 5) (fn : BitVec 11) : W32 := op ++ d ++ a ++ b ++ fn
/-- Format I: OP, sd, sa, imm16 (R60). -/
def fmtI (op : BitVec 6) (d a : BitVec 5) (imm : BitVec 16) : W32 := op ++ d ++ a ++ imm
/-- Format W: OP, sd, hw, fn, 0, imm16 (R60). -/
def fmtW (d : BitVec 5) (hw fn : BitVec 2) (imm : BitVec 16) : W32 := 0x09#6 ++ d ++ hw ++ fn ++ 0#1 ++ imm
/-- Format F: OP, sd, sa, pos, lenm, fn (R60). -/
def fmtF (d a : BitVec 5) (pos lenm : BitVec 6) (fn : BitVec 4) : W32 := 0x0A#6 ++ d ++ a ++ pos ++ lenm ++ fn
/-- Format M: OP, sd, sa, k, off12 (R60). -/
def fmtM (op : BitVec 6) (d a : BitVec 5) (k : BitVec 4) (off : BitVec 12) : W32 := op ++ d ++ a ++ k ++ off
/-- Format Y: OP, sd, sa, sb, scope, W, fn (R60). -/
def fmtY (op : BitVec 6) (d a b : BitVec 5) (sc : BitVec 4) (w : BitVec 1) (fn : BitVec 6) : W32 :=
  op ++ d ++ a ++ b ++ sc ++ w ++ fn

/-- The word of an instruction under the encoding tables of R60 to R67; the device's own steps have none. -/
def encode : Instr → Option W32
  | .add d a b => some (fmtA 0x01 d a b 0x00)
  | .sub d a b => some (fmtA 0x01 d a b 0x01)
  | .mul d a b => some (fmtA 0x01 d a b 0x02)
  | .mulh d a b => some (fmtA 0x01 d a b 0x03)
  | .mulhn d a b => some (fmtA 0x01 d a b 0x04)
  | .div d a b => some (fmtA 0x01 d a b 0x05)
  | .divn d a b => some (fmtA 0x01 d a b 0x06)
  | .rem d a b => some (fmtA 0x01 d a b 0x07)
  | .remn d a b => some (fmtA 0x01 d a b 0x08)
  | .and d a b => some (fmtA 0x01 d a b 0x09)
  | .or d a b => some (fmtA 0x01 d a b 0x0A)
  | .xor d a b => some (fmtA 0x01 d a b 0x0B)
  | .andn d a b => some (fmtA 0x01 d a b 0x0C)
  | .sll d a b => some (fmtA 0x01 d a b 0x0D)
  | .srl d a b => some (fmtA 0x01 d a b 0x0E)
  | .sra d a b => some (fmtA 0x01 d a b 0x0F)
  | .min d a b => some (fmtA 0x01 d a b 0x10)
  | .max d a b => some (fmtA 0x01 d a b 0x11)
  | .minn d a b => some (fmtA 0x01 d a b 0x12)
  | .maxn d a b => some (fmtA 0x01 d a b 0x13)
  | .popc d a => some (fmtA 0x01 d a 0 0x14)
  | .clz d a => some (fmtA 0x01 d a 0 0x15)
  | .sh1add d a b => some (fmtA 0x01 d a b 0x16)
  | .sh2add d a b => some (fmtA 0x01 d a b 0x17)
  | .sh3add d a b => some (fmtA 0x01 d a b 0x18)
  | .addi d a i => some (fmtI 0x02 d a i)
  | .andi d a i => some (fmtI 0x03 d a i)
  | .ori d a i => some (fmtI 0x04 d a i)
  | .xori d a i => some (fmtI 0x05 d a i)
  | .slli d a n => some (fmtI 0x06 d a (0#10 ++ n))
  | .srli d a n => some (fmtI 0x07 d a (0#10 ++ n))
  | .srai d a n => some (fmtI 0x08 d a (0#10 ++ n))
  | .liz d h i => some (fmtW d h 0 i)
  | .lin d h i => some (fmtW d h 1 i)
  | .lik d h i => some (fmtW d h 2 i)
  | .ext d a p l => some (fmtF d a p l 0)
  | .exts d a p l => some (fmtF d a p l 1)
  | .ins d a p l => some (fmtF d a p l 2)
  | .cmp p c a b => some (0x0B#6 ++ p ++ c.code ++ a ++ b ++ 0#9)
  | .cmpi p c a i => some (0x0C#6 ++ p ++ c.code ++ a ++ i)
  | .plog d a b t => some (0x0D#6 ++ d ++ a ++ b ++ t ++ 0#13)
  | .sel d a b p => some (fmtA 0x0E d a b (p ++ 0#8))
  | .brc p o => some (0x10#6 ++ p ++ 0#1 ++ o)
  | .brcNot p o => some (0x10#6 ++ p ++ 1#1 ++ o)
  | .jal d o => some (0x11#6 ++ d ++ o)
  | .jalr d a i => some (fmtI 0x12 d a i)
  | .ldI8 d a o => some (fmtM 0x14 d a 0 o)
  | .ldI16 d a o => some (fmtM 0x14 d a 1 o)
  | .ldI32 d a o => some (fmtM 0x14 d a 2 o)
  | .ld64 d a o => some (fmtM 0x14 d a 3 o)
  | .ldN8 d a o => some (fmtM 0x14 d a 4 o)
  | .ldN16 d a o => some (fmtM 0x14 d a 5 o)
  | .ldN32 d a o => some (fmtM 0x14 d a 6 o)
  | .st8 d a o => some (fmtM 0x15 d a 0 o)
  | .st16 d a o => some (fmtM 0x15 d a 1 o)
  | .st32 d a o => some (fmtM 0x15 d a 2 o)
  | .st64 d a o => some (fmtM 0x15 d a 3 o)
  | .lda d a sc w => some (fmtY 0x16 d a 0 sc.code w.bit 0)
  | .stl a b sc w => some (fmtY 0x17 0 a b sc.code w.bit 0)
  | .aadd d a b sc w => some (fmtY 0x18 d a b sc.code w.bit 0)
  | .aand d a b sc w => some (fmtY 0x18 d a b sc.code w.bit 1)
  | .aor d a b sc w => some (fmtY 0x18 d a b sc.code w.bit 2)
  | .axor d a b sc w => some (fmtY 0x18 d a b sc.code w.bit 3)
  | .amin d a b sc w => some (fmtY 0x18 d a b sc.code w.bit 4)
  | .amax d a b sc w => some (fmtY 0x18 d a b sc.code w.bit 5)
  | .aminn d a b sc w => some (fmtY 0x18 d a b sc.code w.bit 6)
  | .amaxn d a b sc w => some (fmtY 0x18 d a b sc.code w.bit 7)
  | .aswp d a b sc w => some (fmtY 0x18 d a b sc.code w.bit 8)
  | .acas d a b sc w => some (fmtY 0x18 d a b sc.code w.bit 9)
  | .fence sc => some (fmtY 0x19 0 0 0 sc.code 0 0)
  | .fenceAcq sc => some (fmtY 0x19 0 0 0 sc.code 0 1)
  | .fenceRel sc => some (fmtY 0x19 0 0 0 sc.code 0 2)
  | .ldf d a sc w => some (fmtY 0x1A d a 0 sc.code w.bit 0)
  | .pclr a => some (fmtY 0x1A 0 a 0 0 0 1)
  | .probe d a => some (fmtY 0x1A d a 0 0 0 2)
  | .scld d a w => some (fmtY 0x1B d a 0 4 w.bit 0)
  | .scst a b w => some (fmtY 0x1B 0 a b 4 w.bit 1)
  | .pref a => some (fmtA 0x20 0 a 0 0)
  | .cfg a => some (fmtA 0x20 0 a 0 0x100)
  | .run => some (fmtA 0x21 0 0 0 0)
  | .swo a => some (fmtA 0x21 0 a 0 0x100)
  | .injData a b p => some (fmtA 0x22 0 a b (0#2 ++ p ++ 0#3 ++ 0#1 ++ 0#1))
  | .injDataP a b p => some (fmtA 0x22 0 a b (0#2 ++ p ++ 0#3 ++ 1#1 ++ 0#1))
  | .injStop a b p => some (fmtA 0x22 0 a b (0#2 ++ p ++ 1#3 ++ 0#1 ++ 0#1))
  | .take d p => some (fmtA 0x22 d 0 0 (1#2 ++ p ++ 0#5))
  | .wex d => some (fmtA 0x23 d 0 0 0)
  | .halta a => some (fmtA 0x24 0 0 0 (0#1 ++ a))
  | .rela a => some (fmtA 0x24 0 0 0 (1#1 ++ a))
  | .icomma a => some (fmtA 0x25 0 a 0 0)
  | .imode m => some (fmtA 0x25 0 0 0 (1#2 ++ 0#1 ++ m))
  | .bar sc => some (fmtA 0x28 0 0 0 (sc.code ++ 0#7))
  | .launch d a b => some (fmtA 0x29 d a b 0)
  | .sema n => some (fmtA 0x2A 0 0 0 (0#5 ++ n))
  | .semr n => some (fmtA 0x2A 0 0 0 (1#1 ++ 0#4 ++ n))
  | .copy d a e => some (fmtA 0x2C d a 0 (0#3 ++ e ++ 0#3))
  | .conv d a e => some (fmtA 0x2C d a 0 (1#3 ++ e ++ 0#3))
  | .coll d a e => some (fmtA 0x2C d a 0 (2#3 ++ e ++ 0#3))
  | .ewait a => some (fmtA 0x2C 0 a 0 (3#3 ++ 0#5 ++ 0#3))
  | .csrr d c => some (fmtI 0x30 d 0 (0#4 ++ c))
  | .csrw a c => some (fmtI 0x30 0 a (1#4 ++ c))
  | .csrx d a c => some (fmtI 0x30 d a (2#4 ++ c))
  | .trap c => some (fmtI 0x31 0 0 (0#4 ++ c))
  | .rtt => some (fmtI 0x31 0 0 0x1000)
  | .wfe => some (fmtI 0x31 0 0 0x2000)
  | .halt => some (fmtI 0x31 0 0 0x3000)
  | .evtPend _ => none
  | .alertPend _ => none
  | .mcAsinval _ => none
  | .meterStep _ => none
  | .member _ => none
  | .csrWrite _ _ => none
  | .semAcq _ => none
  | .semRel _ => none
  | .carReg _ => none
  | .carUnreg _ => none
  | .asSetSet _ => none
  | .asSetRemove _ => none
  | .asSetInval _ => none
  | .resSet _ => none
  | .portReset _ => none
  | .cellClr _ => none
  | .getCert _ => none
  | .attest _ => none
  | .keyAgree _ => none
  | .sessionOpen _ => none
  | .sessionClose _ => none
  | .read _ => none
  | .powerOn => none
  | .linkTrain _ _ => none
  | .linkRekey _ => none
  | .linkDown _ => none
  | .linkUp _ => none
  | .launchRecordRead _ => none
  | .dependenceFill _ => none
  | .imageMeasure _ => none
  | .arbitrationRound => none
  | .configLoad _ _ => none
  | .prefetchCheck _ => none
  | .predictorFetch _ _ => none
  | .elementAdopt _ _ => none
  | .switchoverDiscard _ _ _ => none
  | .stopHandling _ _ => none
  | .modeHandling _ _ => none
  | .exitArrival _ => none
  | .instanceRetire _ => none
  | .storeModeChange _ _ => none
  | .accessPerformed _ => none
  | .scAccessPerform => none
  | .teCopy _ => none
  | .cvCast _ => none
  | .cvCsr _ => none
  | .clAllreduce _ _ => none
  | .clRedscat _ _ => none
  | .clAllgather _ _ => none
  | .clBcast _ _ => none
  | .engineCommandEnd _ => none
  | .phaseMessage _ _ _ => none
  | .pacingDescriptorValid _ => none
  | .parkComplete _ => none
  | .faultRecordWrite _ => none
  | .fqLinkRead _ => none
  | .resume _ => none
  | .substitute _ => none
  | .abort _ => none
  | .clusterAbort => none
  | .elementFreeze _ _ => none
  | .snapshotComplete _ => none
  | .clusterComplete _ => none
  | .sensorSweep _ _ => none
  | .tickEnd _ => none
  | .droop _ _ => none
  | .emergencyExpire _ _ => none
  | .learnedHoldExpire _ => none
  | .give => none
  | .giveReceive _ _ => none
  | .giveAnswer _ => none
  | .veAdd _ _ => none
  | .veSub _ _ => none
  | .veMul _ _ => none
  | .veFma _ _ => none
  | .veFms _ _ => none
  | .veNeg _ _ => none
  | .veAbs _ _ => none
  | .veMin _ _ => none
  | .veMax _ _ => none
  | .veClamp _ _ => none
  | .veCmp _ _ => none
  | .veSelect _ _ => none
  | .veCvt _ _ => none
  | .veCvtEmit _ _ => none
  | .veRint _ _ => none
  | .veScale _ _ => none
  | .veShl _ _ => none
  | .veShr _ _ => none
  | .veSar _ _ => none
  | .veAnd _ _ => none
  | .veOr _ _ => none
  | .veXor _ _ => none
  | .veNot _ _ => none
  | .veAndn _ _ => none
  | .veExp2 _ _ => none
  | .veLog2 _ _ => none
  | .veRcp _ _ => none
  | .veRsqrt _ _ => none
  | .veSqrt _ _ => none
  | .veTanh _ _ => none
  | .veLogistic _ _ => none
  | .veBcast _ _ => none
  | .vePerm _ _ => none
  | .veRot _ _ => none
  | .veRsum _ _ => none
  | .vePsum _ _ => none
  | .veRmax _ _ => none
  | .veRmin _ _ => none
  | .veTacc _ _ => none
  | .veTaccClose _ _ => none
  | .veMxpack _ _ => none
  | .veMxpackEmit _ _ => none
  | .veMxunpack _ _ => none
  | .veMxunpackEmit _ _ => none
  | .veAmask _ _ => none
  | .veConst _ _ => none
  | .veSteer _ _ => none
  | .veMerge _ _ => none
  | .veCarry _ _ => none
  | .veInv _ _ => none
  | .veFork _ _ => none
  | .veSink _ _ => none
  | .sqLoopa _ _ => none
  | .sqLoopt _ _ => none
  | .sqMxcmd _ _ => none
  | .sqSeq _ _ => none
  | .sqPipe _ _ => none
  | .sqStream _ _ => none
  | .sqPermit _ _ => none
  | .sqDone _ _ => none
  | .sqCount _ _ => none
  | .sqExit _ _ => none
  | .mxMma _ _ => none
  | .mxMmt _ _ => none
  | .mxMres _ _ => none
  | .mxTxch _ _ => none
  | .mxDrain _ _ => none
  | .mxLdacc _ _ => none
  | .mxZero _ _ => none
  | .mxErrorCommand _ _ => none
  | .mxStep _ _ => none
  | .mxLdaccBeat _ _ => none
  | .mxDrainBeat _ _ => none
  | .mxStopBoundary _ _ => none
  | .agAload _ _ => none
  | .agAstore _ _ => none
  | .agGather _ _ => none
  | .agScatter _ _ => none
  | .agDload _ _ => none
  | .agDloadEmit _ _ => none
  | .agPclear _ _ => none
  | .agFill _ _ => none
  | .agResponseEmit _ _ => none
  | .agCompletion _ _ => none
  | .hdBvscan _ _ => none
  | .hdBtscan _ _ => none
  | .hdScanEmit _ _ => none
  | .hdMclass _ _ => none
  | .hdPmask _ _ => none
  | .hdPmaskRow _ _ => none
  | .owOadd _ _ => none
  | .owOmin _ _ => none
  | .owOmax _ _ => none
  | .owOand _ _ => none
  | .owOor _ _ => none
  | .owOxor _ _ => none
  | .owOswp _ _ => none
  | .owOcas _ _ => none
  | .owOinc _ _ => none
  | .owOmxacc _ _ => none
  | .owOread _ _ => none
  | .owCompletion _ _ => none
  | .brEreq _ _ => none
  | .brEresp _ _ => none
  | .brRload _ _ => none
  | .brRstore _ _ => none
  | .brRatom _ _ => none
  | .illegalInstruction _ => none
  | .fetch => none
  | .powerRemoval => none
  | .lotarLinkDown _ => none
  | .groupSetWrite _ => none

end Sys2Proof
end

