-- ==== Sys2Proof/Machine/State.lean ====
section
/-! DEFINITION. The state of the device as plain data: every piece of state the spec gives it, grouped by the agent that
holds it; the reasons a step can stop; and the device right after reset.

Three things of the model's own stand beside the spec's state: `agenda`, which says what moves next (log entry 1), `cur`,
the core that moves when the agenda is empty (log entry 1), and `free`, the counter that free values are applied to. -/

namespace Sys2Proof.Machine

/-- A table keyed by a number, in ascending order of key: a key that is not listed has its default. -/
abbrev Table (α : Type) := List (Nat × α)

/-! ## Tokens -/

/-- The token kinds (R19). -/
inductive Kind where
  | data | stop | mode | switchover | comma
  deriving DecidableEq, Repr

/-- A token: tag and payload (R18). -/
structure Token where
  kind : Kind
  poison : Bool
  err : Bool
  payload : Beat
  deriving DecidableEq, Repr

/-- The events a lane raises (R38, R48). -/
structure Ev where
  invalid : Bool
  overflow : Bool
  deriving DecidableEq, Repr

/-! ## Memory -/

/-- The presence state of a single-assignment granule (R151, R370). -/
inductive Gst where
  | empty | full | void
  deriving DecidableEq, Repr

/-- Where a byte lies once an address is resolved: HBM (R150), an island bank (R139), a tile store (R289), the management
core's SRAM (R158), a host window by port (R340). The package's own HBM is numbered by local address; the HBM of another
member m by (m + 1) × 2^47 + local address. -/
inductive Place where
  | hbm (a : Nat)
  | bank (bank byte : Nat)
  | tile (region tile off : Nat)
  | sram (a : Nat)
  | host (port : PortId) (off : Nat)
  deriving DecidableEq, Repr

/-- The contents of every memory. Each list of bytes is in one canonical form: addresses strictly rising, no entry equal
to 0, which an unlisted address reads as (log entry 4). Island banks are keyed bank × 262144 + byte and tile stores
(region × 64 + tile) × 196608 + offset. -/
structure Mems where
  hbm : List Host.Cell
  bank : List Host.Cell
  tile : List Host.Cell
  sram : List Host.Cell
  hostA : List Host.Cell
  hostB : List Host.Cell
  /-- Presence of HBM granules by address / 64; an unlisted granule is EMPTY (R151). -/
  gstHbm : Table Gst
  /-- Presence of island granules by bank key / 64; an unlisted granule is EMPTY (R141). -/
  gstBank : Table Gst
  /-- HBM granules that carry a launch mark, ascending (R118). -/
  marks : List Nat
  /-- HBM units whose key bit is set, ascending (R131). -/
  keyBits : List Nat
  /-- Granules (any memory) with an uncorrectable error: an input (R179, R289, R338, R404). -/
  ecc : List Place
  deriving DecidableEq, Repr

/-! ## Cores -/

/-- The privilege levels (R154, R155). -/
inductive Priv where
  | graph | supervisor | management
  deriving DecidableEq, Repr

/-- Whether a core runs: not started, running, frozen for a snapshot (R162), after HALT (R190), wedged by a double fault
(R185), stopped by a cluster abort (R417) or by mc_stop (R186). -/
inductive CoreRun where
  | off | running | frozen | halted | wedged | stopped
  deriving DecidableEq, Repr

/-- What a waiting instruction of a core has already done: RUN has made its instance LIVE (R197), SEMA stands requested
(R381), a BAR has arrived and waits, with its word (R383), an SC access is posted, or has been performed as a store or a
load with the value it read (R391). -/
inductive CoreWait where
  | none
  | run (cseq : Nat)
  | sema (n : Nat)
  | bar (word : W32)
  | scPosted
  | scDone (stored : Bool) (v : W64)
  deriving DecidableEq, Repr

/-- The trap CSRs (R164). -/
structure TrapRegs where
  status : W64
  pc : W64
  cause : W64
  addr : W64
  word : W64
  info : W64
  scratch0 : W64
  scratch1 : W64
  deriving DecidableEq, Repr

/-- The state of a sequencer or of the management core (R154, R164, R193, R204, R341, R495). -/
structure Core where
  /-- s0 to s31; s0 reads as zero whatever stands at index 0 (R154). -/
  regs : Vector W64 32
  /-- p0 to p7; p0 reads as true whatever stands in bit 0 (R154). -/
  preds : BitVec 8
  pc : W64
  priv : Priv
  iter : W64
  seqDiscard : W32
  evtPend : BitVec 5
  evtMask : BitVec 5
  insnCount : W64
  cfgReject : W64
  /-- CFG_STATUS fields that are held: LTAG, DISC, UCAUSE, ERR (R193). -/
  ltag : Byte
  disc : Bool
  ucause : BitVec 5
  cfgErr : BitVec 3
  exitLast : W64
  trap : TrapRegs
  /-- The issue numbers n[0] to n[23] (R341). -/
  issue : Vector W32 24
  run : CoreRun
  wait : CoreWait
  /-- The word of the instruction that waits: it has been fetched once and is not fetched again (R156). -/
  fetched : Option W32
  deriving DecidableEq, Repr

/-- The management core's own CSRs (R164, R165, R447, R450). -/
structure McRegs where
  mtvec : W64
  member : BitVec 10
  invalBase : W64
  sensSel : BitVec 10
  meterSel : BitVec 9
  budget : Nat
  alertPend : BitVec 4
  deriving DecidableEq, Repr

/-! ## Configurations -/

/-- An element record (R69, R70), with the sites of its copies, copy 0 first (R144, R228). -/
structure Rec where
  site : Nat
  sites : List Nat
  mode0 : Byte
  seed : W32
  opc : Nat
  nx : Nat
  repm : Nat
  pv : Nat
  ro : Nat
  sat : Bool
  inMask : Nat
  oc1 : Nat
  oc0 : Nat
  md : Nat
  ext : List W32
  deriving DecidableEq, Repr

/-- An arc word (R77), with the elastic crossings E and the latch slots L of its route (R217), and the neighbour channels
that its route drives, each as 32 × tile + output channel (R79, R202). -/
structure ArcWord where
  ty : Nat
  slots : Nat
  pseq : Bool
  psite : Nat
  pport : Nat
  cseq : Bool
  csite : Nat
  cport : Nat
  elastic : Nat
  latch : Nat
  chans : List Nat
  deriving DecidableEq, Repr

/-- A route entry: a switch word and its tile (R79, R101). -/
structure Route where
  tile : Nat
  inch : Nat
  outch : Nat
  latch : Nat
  elastic : Bool
  deriving DecidableEq, Repr

/-- A store entry: a tile and its store-mode word (R81, R101). -/
structure Store where
  tile : Nat
  word : W32
  deriving DecidableEq, Repr

/-- One atom of a mask program (R82). -/
structure Atom where
  aop : Nat
  neg : Bool
  eoc : Bool
  eop : Bool
  p : Nat
  b : W32
  deriving DecidableEq, Repr

/-- The checked words of a configuration, as staged under the cluster's offset (R101, R144, R192). -/
structure Cfg where
  cfgid : Nat
  recs : List Rec
  arcs : List ArcWord
  routes : List Route
  stores : List Store
  masks : List (List Atom)
  pool : List (List W32)
  deriving DecidableEq, Repr

/-- The states of a cache entry other than FREE (R192); a prefetch that fails a loader check leaves it rejected (R195). -/
inductive EntryState where
  | fetched | rejected | staged | live
  deriving DecidableEq, Repr

/-- How far an exit of an instance has come (R203): not sent, its token at the head of port 15, swept, or taken by WEX. -/
inductive ExitState where
  | unsent
  | arrived (n : Nat)
  | swept
  | taken
  deriving DecidableEq, Repr

/-- An entry of the configuration cache that is not FREE (R192). -/
structure Entry where
  state : EntryState
  cfgid : Nat
  /-- Place in commit order, counted from 1 in the region; 0 when not committed. -/
  cseq : Nat
  /-- When the entry was fetched: a larger number is later (R192). -/
  age : Nat
  cfg : Cfg
  /-- The exit targets of the directory entry (R100). -/
  exits : List W32
  /-- The CFG_REJECT value of a rejected entry (R195). -/
  reject : W64
  /-- Fetched by the predictor and not yet used (R212). -/
  byPred : Bool
  exitSt : ExitState
  deriving DecidableEq, Repr

/-! ## Element state -/

/-- A record register of a site: the instance it belongs to and the record, none for an empty record (R196); `copy` is
the copy of a replicated operator that the site holds (R228). -/
structure Loaded where
  cseq : Nat
  cfgid : Nat
  recd : Option Rec
  copy : Nat
  deriving DecidableEq, Repr

/-- The spaces an element access names (R298, R299). -/
inductive Space where
  | tile (t : Nat)
  | island
  | virt
  deriving DecidableEq, Repr

/-- What an element access does at its port: load, store, clear to EMPTY (R305, R309, R311), or an atomic (R356). -/
inductive AccKind where
  | load | store | clear | atom
  deriving DecidableEq, Repr

/-- An access of an element copy that has issued or is held (R306, R407). -/
structure Access where
  region : Nat
  site : Nat
  /-- Issue number within the copy. -/
  id : Nat
  kind : AccKind
  space : Space
  addr : Nat
  /-- The beat stored; for an atomic its operand in bits 63:0 and its comparand in bits 127:64. -/
  data : Beat
  /-- The point counters of its point (R410). -/
  j : List Nat
  /-- The resolved place, none before it passes translation, and whether its page is single-assignment. -/
  place : Option Place
  sa : Bool
  /-- Base and size of the page it was translated through (R152). -/
  page : Option (Nat × Nat)
  /-- The ASID it translates through and its cluster. -/
  asid : Nat
  cluster : Nat
  deriving DecidableEq, Repr

/-- The parking states (R408). -/
inductive Park where
  | running | parking | parked | replaying | stopped
  deriving DecidableEq, Repr

/-- One item of a response buffer, in point order (R306): a load not yet performed, with the poison and record its beat will
carry (R302), a token, or the end of a run. -/
inductive RespItem where
  | load (id : Nat) (poison : Bool) (recd : Option W32)
  | tok (t : Token)
  | endRun
  deriving DecidableEq, Repr

/-- A poisoned token at a storing element, held while it parks (R311, R414). -/
structure HeldToken where
  port : Nat
  token : Token
  deriving DecidableEq, Repr

/-- The memory side of an AG, HD, OW or BR copy (R295, R353, R392, R408). -/
structure Agent where
  park : Park
  resp : List RespItem
  replay : List Access
  heldTok : Option HeldToken
  nextId : Nat
  /-- Issued stores and clears not yet performed. -/
  outst : List Nat
  written : W32
  notWritten : W32
  /-- The error record of the first bad run or update of the segment (R308, R400). -/
  segErr : Option W32
  segPoison : Bool
  deriving DecidableEq, Repr

/-- CVT: lanes not yet emitted with their events, and the poison of the tokens that gave them (R247). -/
structure CvtState where
  lanes : List (W32 × Ev)
  poison : Bool
  recd : Option W32
  deriving DecidableEq, Repr

/-- TACC (R256). -/
structure TaccState where
  acc : List W64
  ev : Ev
  poison : Bool
  recd : Option W32
  closing : Bool
  deriving DecidableEq, Repr

/-- MXPACK (R257): the staged FP32 values; once the group is closed, the beats still to be emitted. -/
structure MxpackState where
  vals : List W32
  poison : Bool
  recd : Option W32
  emit : List Beat
  emitPoison : Bool
  deriving DecidableEq, Repr

/-- MXUNPACK (R258): the scale beat, the element beats consumed of the group, and the held element beat with the number
of output beats already emitted from it. -/
structure MxunpackState where
  scale : Option Token
  beats : Nat
  held : Option Token
  sent : Nat
  deriving DecidableEq, Repr

/-- An open run of a loop generator (R266). -/
structure LoopRun where
  start : Int
  stop : Int
  j : Nat
  poison : Bool
  err : Bool
  recd : W32
  /-- LOOPT on a poisoned bound token: one zero token and STOP(0) (R267). -/
  single : Bool
  deriving DecidableEq, Repr

/-- DONE (R271). -/
structure DoneState where
  collected : W32
  count : W32
  poison : Bool
  recd : Option W32
  deriving DecidableEq, Repr

/-- The framing of an MX operand stream at a matrix element (R40, R280): the scale beat in force and the element beats
consumed since it. -/
structure MxFrame where
  scale : Option Beat
  beats : Nat
  deriving DecidableEq, Repr

/-- An open command of a matrix element and its progress (R274, R279). -/
structure MxCmd where
  word : W32
  /-- Steps done, B beats taken, drain beats emitted, LDACC beats taken. -/
  steps : Nat
  bBeats : Nat
  drained : Nat
  loaded : Nat
  /-- The steps ended early under R287, so that the drain is due. -/
  cut : Bool
  deriving DecidableEq, Repr

/-- Command progress of a matrix element (R274). -/
structure MxState where
  cmd : Option MxCmd
  aFrame : MxFrame
  bFrame : MxFrame
  /-- A residual or index stream needs no frame; LDACC: poison and record of the earliest poisoned beat (R285). -/
  ldPoison : Bool
  ldRec : Option W32
  /-- A STOP of this depth has been consumed at port 0 and waits for the other ports (R287). -/
  boundary : Option Nat
  deriving DecidableEq, Repr

/-- The tile registers and counters of a matrix element, kept across configurations (R274). -/
structure MxRegs where
  t0 : Vector W32 1024
  t1 : Vector W32 1024
  pz0 : Bool
  pz1 : Bool
  rec0 : Option W32
  rec1 : Option W32
  act : Bool
  /-- B window: entry (k, j) at 32k + j, element pattern in bits 7:0 or 15:0 and E8M0 scale beside it (R281). -/
  window : Vector (BitVec 16 × Byte) 2048
  /-- The type of the values at each window position, so that a read gives the value that was written (R281). -/
  wty : Vector (BitVec 5) 64
  steps : W64
  early : W64
  deriving DecidableEq, Repr

/-- A decomposed tile of DLOAD being emitted (R334): the firings still due, each a pair of A beat (absent for residual
beats) and X beat, with the poison and record of the tile. -/
structure DloadOut where
  beats : List (Option Beat × Beat)
  poison : Bool
  recd : Option W32
  deriving DecidableEq, Repr

/-- The run state of an address generator copy (R295, R300, R302, R303, R307). Copy 0 counts the runs of all copies. -/
structure AgState where
  isOpen : Bool
  off : Int
  /-- Point counters j0 to j4: those of the next point. -/
  j : List Nat
  /-- Poison and error record of the run's trigger. -/
  poison : Bool
  recd : Option W32
  /-- The run makes no access: one such token stands in place of each point (R303), or its beats count as not written. -/
  bad : Option Token
  /-- Every point has been visited while the run stays open: a storing run, or a tile of DLOAD. -/
  past : Bool
  /-- Runs begun, and the run whose responses or completion are emitted next (R313). -/
  runs : Nat
  emitRun : Nat
  /-- A STOP has ended the segment and its completion is still due (R307, R308). -/
  closing : Option Nat
  /-- DLOAD: the tile being emitted. -/
  dl : Option DloadOut
  /-- An access of the open run has issued (R291). -/
  touched : Bool
  deriving DecidableEq, Repr

/-- BVSCAN and BTSCAN (R317, R318). -/
structure ScanState where
  /-- The beat or leaf whose bits are being emitted: the bits left, its poison, its record, and the first position it stands
  for. With no bit left, the one poisoned token of R319 is due. -/
  cur : Option (Beat × Bool × Option W32 × Nat)
  /-- Beats or summaries, and indices, since the last STOP. -/
  nb : W32
  ord : W32
  /-- BTSCAN: the summary bits whose leaves have not been read, its poison, record and first position. -/
  summary : Option (Beat × Bool × Option W32 × Nat)
  /-- The summary has yielded an index. -/
  yielded : Bool
  deriving DecidableEq, Repr

/-- PMASK: the pair being masked, its class, none where its run table was VOID, and the next row (R314, R328). -/
structure PmaskState where
  pair : Option Token
  cls : Option Nat
  row : Nat
  deriving DecidableEq, Repr

/-- An owner's update in progress (R395 to R400): the tokens it has consumed, the next lane or block, whether all its tokens
are there, whether it counts as not applied (R414), and the STOP whose completion is due. -/
structure OwState where
  toks : List Token
  blk : Nat
  applying : Bool
  skip : Bool
  closing : Option Nat
  deriving DecidableEq, Repr

/-- One request in order at an ERESP (R354): a command awaited, its response, or a token passed on. -/
inductive BrItem where
  | cmd (ereq : Nat) (n : W32) (scope : Nat)
  | answer (payload : Beat)
  | tok (t : Token)
  deriving DecidableEq, Repr

/-- The operation state of an element, by operation (R238, R263, R274, R295, R314, R353, R392). -/
inductive OpState where
  | none
  | cvt (c : CvtState)
  | tacc (t : TaccState)
  | mxpack (m : MxpackState)
  | mxunpack (m : MxunpackState)
  /-- CONST as a source: 0 nothing emitted, 1 the beat emitted, 2 STOP(0) emitted (R260). -/
  | const (phase : Nat)
  | carry (loop : Bool)
  | inv (held : Option Token)
  | loop (open? : Option LoopRun) (started : Bool)
  | ctl (out : W32) (drain : Bool)
  | permit (k : Nat) (stopped : Bool)
  | done (d : DoneState)
  | count (c : W32)
  | exit (sent : Bool)
  | mx (m : MxState)
  | ag (a : AgState)
  | scan (b : ScanState)
  | pmask (p : PmaskState)
  | ow (o : OwState)
  | br (out : List BrItem)
  deriving DecidableEq, Repr

/-- Counters of a site kept from placement to teardown: AG_BEATS, BR_ACCESSES or OW_UPDATES (R295, R353, R392), the HD
counters (R314, R329) and the DL counters (R337). -/
structure Kept where
  beats : W64
  hdFull : W64
  hdPartial : W64
  hdEmpty : W64
  hdSkipb : W64
  dlTiles : W64
  dlDense : W64
  dlTerms : W64
  dlResid : W64
  dlDrop : W64
  dlDropmag : W32
  deriving DecidableEq, Repr

/-- One element site (R238, R263, R274, R295, R314, R353, R392). -/
structure Site where
  active : Option Loaded
  next : Option Loaded
  mode : Byte
  lfsr : W32
  /-- IW0 to IW3, OB0, OB1 (R215). -/
  stalls : Vector W32 6
  stalled : Bool
  discard : W32
  op : OpState
  agent : Agent
  kept : Kept
  mx : Option MxRegs
  /-- Control tokens the sequencer has delivered to a source and the instance they are for (R198, R199, R209, R210). -/
  deliv : List (Nat × Token)
  /-- A source has emitted its last DATA and its closing STOP (R198). -/
  srcEnd : Bool
  /-- Firings since adoption, for the dealing of R229. -/
  fired : Nat
  /-- Place of the next token in its group, for an output port of an MX type: 0 where a scale beat is due (R40). -/
  frame : Vector Nat 2
  /-- The same for the next token that an input port of an MX type consumes. -/
  frameIn : Vector Nat 4
  /-- At an owner, the site of the element whose request it served last: its own updates and the OREADs are taken in turn (R30,
  R395). -/
  served : Nat
  frozen : Bool
  deriving DecidableEq, Repr

/-- The tokens of an arc (R25, R216, R421, R208): slots and head register from the head on, the control part, the comma
flag, the debug halt. -/
structure Arc where
  queue : List Token
  ctl : Option Token
  comma : Bool
  halted : Bool
  deriving DecidableEq, Repr

/-- The state of one line region of a tile store (R290): its word and the MULTI, FIFO or LINE state. -/
structure StoreRegion where
  word : W32
  /-- MULTI: which buffers are FULL; w and r. -/
  full : BitVec 4
  w : BitVec 2
  r : BitVec 2
  /-- FIFO: head and count. -/
  head : BitVec 12
  count : BitVec 12
  /-- LINE: Wn and O. -/
  wn : W64
  o : W64
  deriving DecidableEq, Repr

/-- A memory tile's store modes and the instance they were taken from (R290, R293). -/
structure TileStore where
  cseq : Nat
  regions : List StoreRegion
  deriving DecidableEq, Repr

/-- The meter requests of one quadrant (R438, R439); DROOP is the larger of the last two, and the pacing request is what
`State.paceOf` computes (R403). -/
structure Meter where
  mc : BitVec 4
  gov : BitVec 4
  zone : BitVec 4
  trip : BitVec 4
  emergency : BitVec 4
  learned : BitVec 4
  /-- Ticks left of the emergency request (R455). -/
  emergencyTicks : Nat
  droops : W32
  replays : W64
  /-- Admissions of the last tick, and of the tick that runs (R456). -/
  admitted : Nat
  admitting : Nat
  deriving DecidableEq, Repr

/-- A droop table entry (R457). -/
structure DroopEntry where
  hits : Byte
  valid : Bool
  quiet : BitVec 6
  hold : Byte
  step : BitVec 4
  sig : W32
  deriving DecidableEq, Repr

/-- A learned pre-throttle in force: the entry that matched and the ticks left, and whether a droop fell in it (R458). -/
structure LearnedHold where
  entry : Nat
  ticks : Nat
  drooped : Bool
  deriving DecidableEq, Repr

/-- One region: its sequencer, configuration cache, sites, arcs, tile stores and power state. -/
structure Region where
  core : Core
  /-- The eight-entry configuration cache: entries that are not FREE (R192). -/
  cache : List Entry
  nextCseq : Nat
  nextAge : Nat
  /-- Prefetches begun and not completed, by identifier (R195). -/
  prefetch : List Nat
  sites : Table Site
  /-- Arcs keyed cseq × 1024 + arc number. -/
  arcs : Table Arc
  /-- The instance (cseq) whose arc each sequencer input port 0 to 15 stands at (R207, R495). -/
  ports : Table Nat
  tiles : Table TileStore
  predUsed : W32
  predEvicted : W32
  /-- An exit has been taken since the predictor last fetched (R212). -/
  predReady : Bool
  meters : Vector Meter 4
  /-- Signature of the last tick (R456). -/
  sig : W32
  droop : Table DroopEntry
  hold : Option LearnedHold
  /-- The cluster that holds the region (R136), and the ASID it belongs to until teardown. -/
  cluster : Option Nat
  deriving DecidableEq, Repr

/-! ## Clusters, engines, faults -/

/-- A launch record (R112). -/
structure LaunchRec where
  image : W64
  next : W64
  compl : W64
  asidField : BitVec 16
  prio : Byte
  shape : Byte
  csize : Byte
  rect : Byte
  part : BitVec 16
  ndep : Byte
  deps : List W64
  args : List W64
  /-- Every reserved byte is zero. -/
  clean : Bool
  deriving DecidableEq, Repr

/-- The fields of a graph image header the device uses (R99). -/
structure Header where
  ncfg : Nat
  progOff : W64
  progLen : W64
  cdirOff : W64
  imageLen : W64
  digest : BitVec 384
  deriving DecidableEq, Repr

/-- The counts an ABORTED record holds, taken at step 1 of R417 (R464): bytes 8 to 111. -/
structure Counts where
  exitLast : W64
  iters : W64
  hd : List W64
  dl : List W64
  dropmag : W32
  deriving DecidableEq, Repr

/-- A cluster's abort (R417 to R419): class, region, site, index; counts; whether the record is written. -/
structure Abort where
  cls : Byte
  region : Nat
  site : Nat
  cidx : Nat
  counts : Counts
  written : Bool
  deriving DecidableEq, Repr

/-- A snapshot under way (R420): the caravan whose head a pre-emption makes room for (R116), none for a checkpoint. -/
structure Snap where
  preempt : Option Nat
  number : W32
  deriving DecidableEq, Repr

/-- A save image in the save store (R416): its 64 KiB pages of the store in order, its length in bytes, and whether it is
encrypted with its address space's KX; one that is not stands under the device save key (R131). -/
structure Stored where
  pages : List Nat
  len : Nat
  keyed : Bool
  deriving DecidableEq, Repr

/-- A placed cluster (R136, R383, R424, R460, R464). -/
structure Cluster where
  caravan : Nat
  asid : Nat
  recd : LaunchRec
  header : Header
  /-- Regions by CLUSTER_INDEX. -/
  regions : List Nat
  /-- The partition's bank list (R139). -/
  banks : List Nat
  dx : Int
  dy : Int
  barArrived : BitVec 128
  barGen : W32
  snapCount : W32
  /-- Energy accumulator in nJ (R460). -/
  energy : W64
  placedTick : Nat
  order : Nat
  abort : Option Abort
  snap : Option Snap
  /-- The checkpoint image kept under R424. -/
  checkpoint : Option Stored
  deriving DecidableEq, Repr

/-- A command block (R343). -/
structure Block where
  kind : Nat
  spc : Nat
  stype : Nat
  dtype : Nat
  modeb : Byte
  opts : Nat
  scope : Nat
  src : Nat
  dst : Nat
  rowlen : Nat
  rows : Nat
  sstr : Int
  dstr : Nat
  aux : Nat
  aux2 : Nat
  status : Nat
  deriving DecidableEq, Repr

/-- An engine command and its progress record (R341, R345, R352). -/
structure Cmd where
  issuer : Issuer
  n : W32
  blk : Block
  /-- The members of the group table in rank order (R344). -/
  group : List Nat
  asid : Nat
  cluster : Option Nat
  /-- Row being moved, bytes read so far, granules written, phase 1 or 2 (R347, R349, R352). -/
  row : Nat
  buf : List Byte
  granules : Nat
  phase : Nat
  /-- Destination bytes formed and not yet written, with the address of the first. -/
  outBuf : List Byte
  outAddr : Nat
  /-- CSR: column indices waiting, and the running counts (row pointers). -/
  idxBuf : List Byte
  idxAddr : Nat
  ptrs : List Nat
  count : Nat
  ovf : W32
  inv : W32
  /-- CL: the members' sources are at hand and the result stands in `outBuf` (R350). -/
  formed : Bool
  park : Park
  /-- The status with which its work ended, before the status cell is written (R345). -/
  ended : Option Nat
  deriving DecidableEq, Repr

/-- A fault record, queued or written (R410). -/
structure FaultRec where
  agent : AgentId
  cluster : Nat
  cls : Nat
  who : Nat
  cidx : Nat
  acc : Nat
  cfgid : Nat
  addr : Nat
  j : List W32
  errrec : W32
  deriving DecidableEq, Repr

/-- An outstanding fault-queue cell (R409, R412): its address, SEQ, its record, the reply taken while its cluster is
saved. -/
structure FqCell where
  addr : Nat
  seq : W64
  recd : FaultRec
  reply : Option (List Byte)
  deriving DecidableEq, Repr

/-- A fatal fault taken in by the dispatcher and not yet acted on (R418). -/
structure Fatal where
  cluster : Nat
  cls : Byte
  region : Nat
  site : Nat
  deriving DecidableEq, Repr

/-- An address space (R127, R130, R134, R146, R147, R409, R410). -/
structure Aspace where
  root : Nat
  winPort : PortId
  logh : BitVec 384
  logn : W32
  logged : List (BitVec 384)
  /-- Key binding: zero when unkeyed (R129, R130). -/
  kbind : BitVec 384
  kx : BitVec 512
  kp : BitVec 256
  ks : BitVec 384
  session : Option PortId
  /-- The last counter accepted at SESSION_OPEN (R134). -/
  counter : Option W64
  rbctr : W64
  fqseq : W64
  /-- The cell that receives the next record. -/
  fqNext : Nat
  /-- The chain stays at a link without a next cell (R409). -/
  fqStuck : Bool
  waiting : List FaultRec
  cells : List FqCell
  deriving DecidableEq, Repr

/-- A pre-empted cluster in the save store (R416, R426, R430), with the number it had and takes again. -/
structure Saved where
  number : Nat
  cluster : Cluster
  /-- Its regions by CLUSTER_INDEX, under the sites and tiles they stood at. -/
  regions : List Region
  /-- Partition contents by offset, and the presence of its granules by offset / 64. -/
  bytes : List Host.Cell
  gst : Table Gst
  /-- The live extents of its tile stores, keyed (CLUSTER_INDEX × 64 + tile) × 196608 + offset (R429). -/
  lines : List Host.Cell
  cmds : List (Nat × Cmd)
  image : Stored
  /-- Bytes of the image before its FAULTCELL entries, and the entries before them (R427). -/
  cellsAt : Nat
  entriesBefore : Nat
  deriving DecidableEq, Repr

/-! ## The dispatcher -/

/-- A hardware semaphore (R107, R108): holder code, 0x1FF when free, the number of the saved cluster that holds it (R382), and
the waiting codes. A saved cluster's holder code stays the region its sequencer stood in until restore rewrites it. -/
structure Sem where
  holder : Nat
  kept : Option Nat
  waiters : List Nat
  deriving DecidableEq, Repr

/-- The caravan states (R110). -/
inductive CarState where
  | unreg | waiting | depwait | ready | ended | stalled
  deriving DecidableEq, Repr

/-- A caravan table entry (R110). -/
structure Caravan where
  state : CarState
  asid : Nat
  pfloor : Nat
  head : W64
  recd : Option LaunchRec
  /-- Dependence granules seen FULL (R114). -/
  seen : List Nat
  /-- The ready record's image has been read and measured (R126), with each configuration's identifier and SHA-384. -/
  header : Option Header
  configs : List (Nat × BitVec 384)
  deriving DecidableEq, Repr

/-- A SEM_ACQ whose reply waits for the grant (R108). -/
structure PendingAcq where
  sem : Nat
  reply : W64
  next : W64
  deriving DecidableEq, Repr

/-- A RoCE v2 region that a port advertises (R340): its bytes, its key, and the ranges of it that the host refuses, each a
first offset and a length. -/
structure Window where
  size : Nat
  key : W32
  refused : List (Nat × Nat)
  deriving DecidableEq, Repr

/-- One control port (R102, R103, R124, R340): the next cells of its chains (none when stopped), the acquire that waits,
the RoCE v2 region it advertises, its link. -/
structure Port where
  cmd : Option W64
  sec : Option W64
  acq : Option PendingAcq
  /-- The advertised region; none when no region is recorded. -/
  window : Option Window
  up : Bool
  deriving DecidableEq, Repr

/-- A capture buffer (R435): its selector, bytes, and the ASID it belongs to. -/
structure Capture where
  sel : W64
  addr : W64
  bytes : List Byte
  asid : Option Nat
  deriving DecidableEq, Repr

/-- A read-back chain (R433): the next cell, none when stopped, and the capture. -/
structure Chain where
  cell : Option W64
  capture : Option Capture
  deriving DecidableEq, Repr

/-- Notices that reach the ports and the management core beside ALERT_PEND (R103, R110, R113, R185, R186, R417, R465). -/
inductive Notice where
  | chainStopped (chain : Nat)
  | stalled (caravan : Nat)
  | recordUnwritable (caravan : Nat)
  | mcStopped
  | doubleFault (region : Nat)
  | aborted (cluster : Nat)
  deriving DecidableEq, Repr

/-- The dispatcher (R103 to R118, R138, R147, R360, R417 to R419, R433). -/
structure Disp where
  sems : Table Sem
  caravans : Table Caravan
  /-- RES_SET: the caravan a region is reserved to (R104, R138). -/
  reserved : Table Nat
  /-- last_winner (R115). -/
  lastWinner : Vector Nat 8
  portA : Port
  portB : Port
  chainA : Chain
  chainB : Chain
  chainMc : Chain
  aspaces : Table Aspace
  clusters : Table Cluster
  nextCluster : Nat
  /-- Saved clusters, in the order they were first placed. -/
  saved : List Saved
  /-- The ASID that last held each bank (R133). -/
  bankAsid : Table Nat
  fatal : List Fatal
  abortLog : List (List Byte)
  /-- GROUP_SET as the firmware last wrote it; the item has bit MEMBER set as well (R360). -/
  groupFw : BitVec 576
  /-- The read-back chain served next (R433). -/
  turn : ChainId
  /-- The port whose command chain is served next (R30, R103). -/
  cmdTurn : PortId
  notices : List Notice
  deriving DecidableEq, Repr

/-! ## Ports of memory -/

/-- Who posted a deferred read (R103, R110, R371, R409, R412). -/
inductive Reader where
  | core (c : CoreId)
  | fetch (c : CoreId)
  | elem (region site id : Nat)
  | engine (e : Nat) (issuer : Issuer) (n : W32)
  | command (p : PortId)
  | security (p : PortId)
  | readback (c : ChainId)
  | carHead (caravan : Nat)
  | dep (caravan : Nat)
  | measure (caravan : Nat)
  | fqReply (asid : Nat)
  | fqTaken (asid : Nat) (seq : W64)
  | fqLink (asid : Nat)
  deriving DecidableEq, Repr

/-- How a posted read was answered (R371): by a fill with the granule's bytes as stored, or by a voiding. -/
inductive Answer where
  | filled (bytes : Beat) (mark : Bool)
  | voided
  deriving DecidableEq, Repr

/-- A read posted at a granule, in deferral order (R371), with the granule of virtual addresses it was translated for, if
any: it stays at its place whatever the tables say later (R152). -/
structure Read where
  reader : Reader
  place : Place
  virt : Option Nat
  asid : Nat
  answer : Option Answer
  deriving DecidableEq, Repr

/-- A cached table entry (R152): the virtual range it covers, which is that of its level, and the entry a walk read. -/
structure Cached where
  asid : Nat
  base : Nat
  size : Nat
  entry : Nat
  deriving DecidableEq, Repr

/-- An SC access posted to the ring (R374). -/
structure ScAccess where
  core : CoreId
  place : Place
  asid : Nat
  /-- Base and size of the page it was translated through, if it is no partition access (R152). -/
  page : Option (Nat × Nat)
  width : Nat
  store : Option W64
  deriving DecidableEq, Repr

/-- What stands at the memory ports: accesses in arrival order, posted reads, SC accesses, cached translations. -/
structure Ports where
  pend : List Access
  reads : List Read
  sc : List ScAccess
  tlb : List Cached
  deriving DecidableEq, Repr

/-! ## Security and power -/

/-- A Lotar link (R132): whether it is trained, the peer and the members beyond it (R339), the hash of the peer's identity
key, the fresh key it was sent at training with its signature, and the keys and IV counters of its two directions. -/
structure Link where
  trained : Bool
  member : Nat
  beyond : List Nat
  keyHash : BitVec 384
  offered : List Byte
  keyOut : BitVec 256
  keyIn : BitVec 256
  ivOut : BitVec 96
  ivIn : BitVec 96
  deriving DecidableEq, Repr

/-- The boot flash (R119): the firmware, the Grenesk key it carries, and its signature. -/
structure Flash where
  image : List Byte
  keyX : BitVec 384
  keyY : BitVec 384
  sigR : BitVec 384
  sigS : BitVec 384
  deriving DecidableEq, Repr

/-- The security block (R119, R123, R131, R132). -/
structure Sec where
  debug : Bool
  fwm : BitVec 384
  /-- Private scalar of the device identity key; never read by any item (R123). -/
  ident : Nat
  ksv : BitVec 512
  links : Table Link
  /-- The port whose security chain is served next (R124). -/
  turn : PortId
  deriving DecidableEq, Repr

/-- One sensor (R443, R444, R448), with its raw readings of the last sweeps, newest first. -/
structure Sensor where
  raw : Int
  pub : Int
  suspect : Bool
  stk : Bool
  rng : Bool
  dis : Bool
  stuckn : Nat
  cleann : Nat
  hist : List Int
  deriving DecidableEq, Repr

/-- The power controller (R441 to R460, R401, R402). Its SRAM block holds the fields of R449. -/
structure Power where
  tick : Nat
  sweeps : Nat
  sensors : Table Sensor
  /-- The last valid TALERT (R449). -/
  talert : Int
  /-- The zones that hold a ZONE request and those in a trip, ascending: regions 0 to 127, then groups from 128 on (R445,
  R446). -/
  zoned : List Nat
  tripped : List Nat
  sent : Table W64
  cred : Table W64
  /-- A give whose answer has not arrived: member and count (R451). -/
  giving : Option (Nat × Nat)
  /-- The phase heard from a member, keyed descriptor × 1024 + member (R402). -/
  heard : Table W64
  /-- Sideband messages sent: member and payload words (R402, R451), newest first. -/
  sideband : List (Nat × List W64)
  deriving DecidableEq, Repr

/-! ## The device -/

/-- Power (R119, R120): removed, on, or serving nothing after a failed firmware signature. -/
inductive PowerState where
  | off | on | failed
  deriving DecidableEq, Repr

/-- What the outside does to the device (R102, R118, R131, R340, R404): an RDMA store through an address space, its payload
under AES-256-GCM with the IV and tag given when the address space is keyed, a store of another member, as a fill or not and
with a launch mark or not, encrypted by a keyed address space or not, a write of host memory, a region advertised by a port, an
error that strikes a granule, a boot flash written, and what stands at the Lotar ports for the next start-up or rekeying. -/
inductive HostAct where
  | store (asid va : Nat) (bytes iv tag : List Byte)
  | peerStore (gpa : Nat) (bytes : List Byte) (fill mark keyed : Bool)
  | hostWrite (port : PortId) (off : Nat) (bytes : List Byte)
  | advertise (port : PortId) (window : Option Window)
  | strike (place : Place)
  | flash (f : Flash)
  | lotar (peers : LotarPeers)
  deriving DecidableEq, Repr

/-- What moves next. -/
inductive Turn where
  | core (c : CoreId)
  | event (i : Instr)
  | host (a : HostAct)
  deriving DecidableEq, Repr

/-- The whole device. -/
structure State where
  power : PowerState
  agenda : List Turn
  cur : CoreId
  free : Nat
  mc : Core
  mcr : McRegs
  regions : Table Region
  mem : Mems
  ports : Ports
  disp : Disp
  engines : Table (List Cmd)
  sec : Sec
  pow : Power
  flash : Flash
  /-- What stands at the Lotar ports when the device starts or rekeys (R119 step 3, R132; an input, log entry 51). -/
  lotar : LotarPeers
  deriving DecidableEq, Repr

/-- Why a step can stop with a fault. -/
inductive Fault where
  /-- Raised by `step` alone: the agenda is empty and the current core executes nothing (R120, R185, R186, R190). Safe:
  nothing in the device can move until the outside does something. -/
  | idle
  deriving DecidableEq, Repr

/-- Why an instruction can have no meaning. -/
inductive Refusal where
  /-- Raised by `exec` for an instruction the model does not give a meaning yet. Safe: nothing is claimed of it. -/
  | notModelled (mnemonic : String)
  deriving DecidableEq, Repr

/-! ## Reset -/

/-- The trap CSRs before anything is written (log entry 3). -/
def TrapRegs.init : TrapRegs :=
  { status := 0#64, pc := 0#64, cause := 0#64, addr := 0#64, word := 0#64, info := 0#64, scratch0 := 0#64,
    scratch1 := 0#64 }

/-- A core at placement (R154), before it is started. -/
def Core.init : Core :=
  { regs := Vector.replicate 32 0#64, preds := 1#8, pc := 0#64, priv := .graph, iter := 0#64, seqDiscard := 0#32,
    evtPend := 0#5, evtMask := 0#5, insnCount := 0#64, cfgReject := 0#64, ltag := 0#8, disc := false, ucause := 0#5,
    cfgErr := 0#3, exitLast := 0#64, trap := TrapRegs.init, issue := Vector.replicate 24 0#32, run := .off,
    wait := .none, fetched := none }

/-- A meter with no request (R438). -/
def Meter.init : Meter :=
  { mc := 0#4, gov := 0#4, zone := 0#4, trip := 0#4, emergency := 0#4, learned := 0#4,
    emergencyTicks := 0, droops := 0#32, replays := 0#64, admitted := 0, admitting := 0 }

/-- A region that no cluster holds (R133, R154). -/
def Region.init : Region :=
  { core := Core.init, cache := [], nextCseq := 1, nextAge := 1, prefetch := [], sites := [], arcs := [], ports := [],
    tiles := [], predUsed := 0#32, predEvicted := 0#32, predReady := false, meters := Vector.replicate 4 Meter.init, sig := 0#32,
    droop := [], hold := none, cluster := none }

/-- The management core at reset: management level, PC 0 (R155, R158); it starts at step 3 of R119. -/
def Core.mcInit : Core := { Core.init with priv := .management }

/-- The management core's CSRs at reset (R164, R450; log entry 3). -/
def McRegs.init : McRegs :=
  { mtvec := 0#64, member := 0#10, invalBase := 0#64, sensSel := 0#10, meterSel := 0#9, budget := 560,
    alertPend := 0#4 }

/-- Every memory with nothing listed (R151; log entry 4). -/
def Mems.init : Mems :=
  { hbm := [], bank := [], tile := [], sram := [], hostA := [], hostB := [], gstHbm := [], gstBank := [], marks := [],
    keyBits := [], ecc := [] }

/-- A control port with nothing posted (R119). -/
def Port.init : Port := { cmd := none, sec := none, acq := none, window := none, up := false }

/-- A read-back chain with nothing posted. -/
def Chain.init : Chain := { cell := none, capture := none }

/-- The dispatcher at reset: semaphores free, caravans unregistered, last_winner 191 (R107, R110, R115), GROUP_SET
never written (R360). -/
def Disp.init : Disp :=
  { sems := [], caravans := [], reserved := [], lastWinner := Vector.replicate 8 191, portA := Port.init,
    portB := Port.init, chainA := Chain.init, chainB := Chain.init, chainMc := Chain.init, aspaces := [],
    clusters := [], nextCluster := 1, saved := [], bankAsid := [], fatal := [], abortLog := [], groupFw := 0#576,
    turn := .a, cmdTurn := .a, notices := [] }

/-- The boot flash at reset: empty; what it holds is an input (log entry 2). -/
def Flash.init : Flash := { image := [], keyX := 0#384, keyY := 0#384, sigR := 0#384, sigS := 0#384 }

/-- The security block before step 1 of R119 (log entry 3). -/
def Sec.init : Sec := { debug := false, fwm := 0#384, ident := 0, ksv := 0#512, links := [], turn := .a }

/-- The power controller at start-up: TALERT 1,360, totals zero (R449, R453). -/
def Power.init : Power :=
  { tick := 0, sweeps := 0, sensors := [], talert := 1360, zoned := [], tripped := [], sent := [], cred := [], giving := none, heard := [],
    sideband := [] }

/-- The machine right after reset: power has just been applied, and start-up (R119) is the first thing a step does. -/
def State.reset : State :=
  { power := .off, agenda := [], cur := .mc, free := 0, mc := Core.mcInit, mcr := McRegs.init, regions := [],
    mem := Mems.init, ports := { pend := [], reads := [], sc := [], tlb := [] }, disp := Disp.init, engines := [],
    sec := Sec.init, pow := Power.init, flash := Flash.init, lotar := [] }

end Sys2Proof.Machine
end

