-- ==== Sys2Proof/Machine/Ops.lean ====
section
/-! DEFINITION. The named operations the meanings share: tables, cores and their registers, events and alerts, taking a
trap and returning from one, and the dispatcher's intake of fatal faults. -/

namespace Sys2Proof.Machine

/-- What a meaning answers. -/
abbrev Out := Host.Outcome State Fault Refusal

/-! ## Tables -/

/-- The entry of a key, if listed. -/
def Table.find? {α : Type} : Table α → Nat → Option α
  | [], _ => none
  | e :: t, k => if e.1 = k then some e.2 else Table.find? t k

/-- The entry of a key, or the default. -/
def Table.get {α : Type} (t : Table α) (k : Nat) (d : α) : α := (Table.find? t k).getD d

/-- The table with an entry written, in ascending order of key. -/
def Table.put {α : Type} : Table α → Nat → α → Table α
  | [], k, v => [(k, v)]
  | e :: t, k, v => if k < e.1 then (k, v) :: e :: t else if e.1 = k then (k, v) :: t else e :: Table.put t k v

/-- The table without an entry. -/
def Table.del {α : Type} (t : Table α) (k : Nat) : Table α := t.filter (fun e => e.1 != k)

/-- A sorted list of numbers with one added or removed. -/
def setMember (l : List Nat) (k : Nat) (present : Bool) : List Nat :=
  if present then (l.filter (· < k)) ++ [k] ++ (l.filter (fun x => decide (k < x))) else l.filter (· != k)

/-- A list with an element put in where its number belongs, behind those of the same number. -/
def insertBy {α : Type} (f : α → Nat) (x : α) : List α → List α
  | [] => [x]
  | y :: t => if f x < f y then x :: y :: t else y :: insertBy f x t

/-- A list in ascending order of a number, those of one number in the order they stood. -/
def sortBy {α : Type} (f : α → Nat) (l : List α) : List α := l.foldl (fun t x => insertBy f x t) []

/-! ## Numbers in bits -/

/-- Bits [hi:lo] of a number (R2). -/
def bits (x hi lo : Nat) : Nat := (x / 2 ^ lo) % 2 ^ (hi + 1 - lo)

/-- A 32-bit count that saturates (R201, R215). -/
def satInc (x : W32) : W32 := if x = 0xFFFFFFFF#32 then x else x + 1#32

/-- The signed value of the low `w` bits (R5). -/
def signed (x w : Nat) : Int := if x % 2 ^ w < 2 ^ (w - 1) then ((x % 2 ^ w : Nat) : Int) else ((x % 2 ^ w : Nat) : Int) - (2 ^ w : Nat)

/-- An integer modulo 2^w (R38). -/
def wrapTo (v : Int) (w : Nat) : Nat := (v % ((2 ^ w : Nat) : Int)).toNat

/-- Little-endian value of a byte list (R3). -/
def leNat : List Byte → Nat
  | [] => 0
  | b :: t => b.toNat + 256 * leNat t

/-- The low `n` bytes of a number, little-endian (R3). -/
def leBytes : Nat → Nat → List Byte
  | 0, _ => []
  | n + 1, x => BitVec.ofNat 8 x :: leBytes n (x / 256)

/-- Bytes `off` to `off + n - 1` of a list, zero past its end. -/
def slice (l : List Byte) (off n : Nat) : List Byte :=
  let t := (l.drop off).take n
  t ++ List.replicate (n - t.length) 0#8

/-- A little-endian field of a byte list. -/
def fieldLe (l : List Byte) (off n : Nat) : Nat := leNat (slice l off n)

/-- The byte list padded with zeros to a length. -/
def padTo (l : List Byte) (n : Nat) : List Byte := l ++ List.replicate (n - l.length) 0#8

/-- A beat from its 64 bytes (R3). -/
def beatOf (l : List Byte) : Beat := BitVec.ofNat 512 (leNat (l.take 64))

/-- The 64 bytes of a beat. -/
def beatBytes (b : Beat) : List Byte := leBytes 64 b.toNat

/-! ## Tokens -/

/-- A DATA token. -/
def dataTok (payload : Beat) : Token := { kind := .data, poison := false, err := false, payload := payload }

/-- A STOP token of a depth (R19). -/
def stopTok (depth : Nat) : Token := { kind := .stop, poison := false, err := false, payload := BitVec.ofNat 512 (depth % 256) }

/-- A MODE token (R19). -/
def modeTok (m : Byte) : Token := { kind := .mode, poison := false, err := false, payload := m.setWidth 512 }

/-- A SWITCHOVER token (R19). -/
def switchTok (cfgid : Nat) : Token :=
  { kind := .switchover, poison := false, err := false, payload := BitVec.ofNat 512 (cfgid % 65536) }

/-- The error record of R21. -/
def errRecord (code site : Nat) : W32 := BitVec.ofNat 32 (code % 65536 + 65536 * (site % 512))

/-- An error token (R21). -/
def errTok (r : W32) : Token := { kind := .data, poison := true, err := true, payload := r.setWidth 512 }

/-- The depth of a STOP (R19). -/
def Token.depth (t : Token) : Nat := t.payload.toNat % 256

/-- The error record a token carries (R21). -/
def Token.record (t : Token) : W32 := t.payload.setWidth 32

/-- The kind code of R19. -/
def Kind.code : Kind → Nat
  | .data => 0 | .stop => 1 | .mode => 2 | .switchover => 3 | .comma => 4

/-- The tag of a token (R18). -/
def Token.tag (t : Token) : Byte :=
  BitVec.ofNat 8 (t.kind.code + (if t.poison then 8 else 0) + (if t.err then 16 else 0))

/-- A control token (R216). -/
def Token.isControl (t : Token) : Bool := t.kind != .data

/-! ## Regions and cores -/

/-- A region. -/
def State.region (s : State) (r : Nat) : Region := Table.get s.regions r Region.init

/-- The state with a region written. -/
def State.setRegion (s : State) (r : Nat) (x : Region) : State := { s with regions := Table.put s.regions r x }

/-- A core. -/
def State.core (s : State) : CoreId → Core
  | .mc => s.mc
  | .seq r => (s.region r).core

/-- The state with a core written. -/
def State.setCore (s : State) (c : CoreId) (x : Core) : State :=
  match c with
  | .mc => { s with mc := x }
  | .seq r => s.setRegion r { s.region r with core := x }

/-- The core whose turn it is. -/
def State.me (s : State) : Core := s.core s.cur

/-- The state with that core written. -/
def State.setMe (s : State) (x : Core) : State := s.setCore s.cur x

/-- The core is the management core. -/
def coreIsMc : CoreId → Bool
  | .mc => true
  | .seq _ => false

/-- Reads a scalar register; s0 reads as zero (R154). -/
def Core.reg (c : Core) (i : SReg) : W64 := if i = 0#5 then 0#64 else c.regs[i.toNat]'(i.isLt)

/-- Writes a scalar register; a write of s0 is discarded (R154, R160). -/
def Core.setReg (c : Core) (i : SReg) (v : W64) : Core :=
  if i = 0#5 then c else { c with regs := c.regs.set i.toNat v i.isLt }

/-- Reads a predicate; p0 reads as true (R154). -/
def Core.pred (c : Core) (p : PReg) : Bool := p = 0#3 || c.preds.getLsbD p.toNat

/-- Writes a predicate; a write of p0 is discarded (R154, R160). -/
def Core.setPred (c : Core) (p : PReg) (b : Bool) : Core :=
  if p = 0#3 then c
  else { c with preds := if b then c.preds ||| (1#8 <<< p.toNat) else c.preds &&& ~~~(1#8 <<< p.toNat) }

/-- The instruction completes: PC moves to `pc` and INSN_COUNT gains 1 (R164). -/
def Core.complete (c : Core) (pc : W64) : Core :=
  { c with pc := pc, insnCount := c.insnCount + 1#64, wait := .none, fetched := none }

/-- The instruction completes and the next one follows it. -/
def Core.retire (c : Core) : Core := c.complete (c.pc + 4#64)

/-- An instruction that changes its own core alone and completes. -/
def onCore (s : State) (f : Core → Core) : Out := .next (s.setMe (f s.me).retire)

/-- An instruction that writes one register from the core's state and completes (R160). -/
def writeReg (s : State) (d : SReg) (v : W64) : Out := onCore s (fun c => c.setReg d v)

/-- The level of a privilege as PRIV holds it (R154). -/
def Priv.code : Priv → Nat
  | .graph => 0 | .supervisor => 1 | .management => 2

/-- The holder code of a core (R107). -/
def coreHolder : CoreId → Nat
  | .mc => 0x102
  | .seq r => r

/-- The holder code of a port (R107). -/
def portHolder : PortId → Nat
  | .a => 0x100
  | .b => 0x101

/-- The instruction word of an encoded instruction (R164, TWORD). -/
def wordOf (i : Instr) : W32 := (encode i).getD 0#32

/-! ## Clusters -/

/-- The cluster that holds a region. -/
def State.clusterOf (s : State) (r : Nat) : Option Nat := (s.region r).cluster

/-- A placed cluster. -/
def State.cluster? (s : State) (k : Nat) : Option Cluster := Table.find? s.disp.clusters k

/-- The state with a cluster written. -/
def State.setCluster (s : State) (k : Nat) (c : Cluster) : State :=
  { s with disp := { s.disp with clusters := Table.put s.disp.clusters k c } }

/-- The cluster of a core, if any. -/
def State.coreCluster (s : State) : CoreId → Option Nat
  | .mc => none
  | .seq r => s.clusterOf r

/-- The ASID a core translates through: its cluster's, or 0 on the management core (R159). -/
def State.coreAsid (s : State) (c : CoreId) : Nat :=
  match s.coreCluster c with
  | none => 0
  | some k => ((s.cluster? k).map Cluster.asid).getD 0

/-- Position of a value in a list. -/
def indexOf? (l : List Nat) (x : Nat) : Option Nat := l.findIdx? (· == x)

/-- CLUSTER_INDEX of a region within its cluster (R11). -/
def Cluster.indexOf (c : Cluster) (r : Nat) : Nat := (indexOf? c.regions r).getD 0

/-- PART of the launch record (R112). -/
def LaunchRec.banks (l : LaunchRec) : Nat := l.part.toNat % 2048

/-- PSA of the launch record (R112). -/
def LaunchRec.psa (l : LaunchRec) : Bool := l.part.getLsbD 15

/-- MEMBER (R150). -/
def State.member (s : State) : Nat := s.mcr.member.toNat

/-! ## Free values, notices, events -/

/-- Advances the counter that free values are applied to. -/
def State.nextFree (s : State) : State := { s with free := s.free + 1 }

/-- A notice to the ports and the management core. -/
def State.notify (s : State) (n : Notice) : State := { s with disp := { s.disp with notices := s.disp.notices ++ [n] } }

/-- Sets a pending event of a core (R167): 0 EXIT, 1 TAKE, 2 ENGINE, 3 SAMPLE, 4 ALERT. -/
def Core.raiseEvent (c : Core) (bit : Nat) : Core := { c with evtPend := c.evtPend ||| (1#5 <<< bit) }

/-- Sets a pending event of a core in the state. -/
def State.raiseEvent (s : State) (c : CoreId) (bit : Nat) : State := s.setCore c ((s.core c).raiseEvent bit)

/-- Sets a bit of ALERT_PEND, and with it the ALERT event when the bit was 0 (R167, R447). -/
def State.raiseAlert (s : State) (bit : Nat) : State :=
  let s' := { s with mcr := { s.mcr with alertPend := s.mcr.alertPend ||| (1#4 <<< bit) } }
  if s.mcr.alertPend.getLsbD bit then s' else s'.raiseEvent .mc 4

/-- A fatal fault of a cluster reaches the dispatcher (R404, R418). -/
def State.fatalFault (s : State) (cluster : Nat) (cls region site : Nat) : State :=
  { s with disp := { s.disp with fatal := s.disp.fatal ++
      [{ cluster := cluster, cls := BitVec.ofNat 8 cls, region := region, site := site }] } }

/-! ## Traps -/

/-- The trap causes (R182). -/
def causeIllegal : Nat := 0x01
def causePrivilege : Nat := 0x02
def causeMisaligned : Nat := 0x03
def causeFetch : Nat := 0x04
def causeTranslation : Nat := 0x05
def causeMalformed : Nat := 0x06
def causePermission : Nat := 0x07
def causePresence : Nat := 0x08
def causeBounds : Nat := 0x09
def causeTrap : Nat := 0x0A
def causeConfig : Nat := 0x10
def causeExit : Nat := 0x11
def causeArc : Nat := 0x12
def causeEngine : Nat := 0x13
def causeSync : Nat := 0x14

/-- The trap CSRs as entry writes them (R184). -/
def trapRegs (old : TrapRegs) (status pc : W64) (cause : Nat) (addr info : W64) (code : BitVec 12) (word : W32) : TrapRegs :=
  { old with
    status := status
    pc := if cause = causeTrap then pc + 4#64 else pc
    cause := BitVec.ofNat 64 (cause + if cause = causeTrap then 256 * code.toNat else 0)
    addr := addr
    info := info
    word := if cause = causeFetch then 0#64 else word.setWidth 64 }

/-- The posted reads of a core are withdrawn when its instruction ends. -/
def State.dropCoreReads (s : State) (c : CoreId) : State :=
  { s with ports := { s.ports with reads := s.ports.reads.filter (fun r => r.reader != .core c && r.reader != .fetch c) } }

/-- mc_stop (R186): the management core halts until power is removed, and both ports are alerted. -/
def mcStop (s : State) : State :=
  { s with mc := { s.mc with run := .stopped } }.notify .mcStopped

/-- A double fault (R185): the region is wedged, its cluster is to be aborted, and the ports are told. The trap CSRs keep
their values. -/
def doubleFault (s : State) (r : Nat) : State :=
  let s1 := s.setCore (.seq r) { s.core (.seq r) with run := .wedged, wait := .none, fetched := none }
  let s2 := s1.notify (.doubleFault r)
  match s.clusterOf r with
  | none => s2
  | some k => s2.fatalFault k 0x12 r 0x1FF

/-- Trap entry (R184): what a core does when it raises a trap. -/
def trapEntry (s : State) (cause : Nat) (addr info : W64) (code : BitVec 12) (word : W32) : State :=
  let s := s.dropCoreReads s.cur
  match s.cur with
  | .seq r =>
    let c := s.core (.seq r)
    if c.priv = .supervisor then doubleFault s r
    else s.setCore (.seq r)
      { c with
        trap := trapRegs c.trap (BitVec.ofNat 64 c.priv.code) c.pc cause addr info code word
        priv := .supervisor, pc := 0#64, wait := .none, fetched := none }
  | .mc =>
    let c := s.mc
    if c.trap.status.getLsbD 2 then mcStop s
    else { s with mc :=
      { c with
        trap := trapRegs c.trap 6#64 c.pc cause addr info code word
        pc := s.mcr.mtvec, wait := .none, fetched := none } }

/-- An instruction raises a trap without a code (R182, R184). -/
def trap (s : State) (i : Instr) (cause : Nat) (addr info : W64) : Out :=
  .next (trapEntry s cause addr info 0#12 (wordOf i))

/-- An instruction raises ILLEGAL in execution (R68, R166, R182). -/
def illegal (s : State) (i : Instr) : Out := trap s i causeIllegal 0#64 0#64

/-- Return from a trap (R187): TPC to PC and graph level on a sequencer; on the management core INH is cleared. The
checks of R68 and R187 come first. -/
def trapReturn (s : State) (i : Instr) : Out :=
  let c := s.me
  match s.cur with
  | .seq _ =>
    if c.priv = .graph then trap s i causePrivilege 0#64 0#64
    else .next (s.setMe { (c.complete c.trap.pc) with priv := .graph })
  | .mc =>
    if c.trap.status.getLsbD 2 then
      .next (s.setMe { (c.complete c.trap.pc) with trap := { c.trap with status := 0#64 } })
    else illegal s i

/-- An instruction that only the sequencers have (R68): ILLEGAL on the management core. -/
def onSeq (s : State) (i : Instr) (k : Nat → Out) : Out :=
  match s.cur with
  | .mc => illegal s i
  | .seq r => k r

/-- A waiting instruction: the core stays where it is, with what it has already done. -/
def waiting (s : State) (w : CoreWait) : Out := .next (s.setMe { s.me with wait := w })

/-- The current instruction completes; its posted reads are withdrawn. -/
def done (s : State) (f : Core → Core) : Out :=
  let s := s.dropCoreReads s.cur
  .next (s.setMe (f s.me).retire)

end Sys2Proof.Machine
end

