-- ==== Sys2Proof/Machine/Crypto.lean ====
section
/-! DEFINITION. The cryptographic functions the spec names by their standards (R99, R119, R123, R127, R129 to R132, R134,
R416, R436): SHA-384, HMAC and HKDF over it, AES-256 in XTS and GCM modes, ECDSA and ECDH over P-384. The functions
themselves are PRESUMED from those standards (log entry 10). Byte strings formed by concat are taken most significant
byte first (log entry 11). -/

namespace Sys2Proof.Machine

/-- Big-endian value of a byte string. -/
def beNat (l : List Byte) : Nat := l.foldl (fun a b => a * 256 + b.toNat) 0

/-- The low `n` bytes of a number, big-endian. -/
def beBytes (n x : Nat) : List Byte := (leBytes n x).reverse

/-- The bytes of an ASCII string. -/
def asciiBytes (t : String) : List Byte := t.toList.map (fun c => BitVec.ofNat 8 c.toNat)

/-- Round constants 0 to 19 of SHA-512. -/
def shaK0 : List (BitVec 64) :=
  [0x428A2F98D728AE22#64, 0x7137449123EF65CD#64, 0xB5C0FBCFEC4D3B2F#64, 0xE9B5DBA58189DBBC#64,
   0x3956C25BF348B538#64, 0x59F111F1B605D019#64, 0x923F82A4AF194F9B#64, 0xAB1C5ED5DA6D8118#64,
   0xD807AA98A3030242#64, 0x12835B0145706FBE#64, 0x243185BE4EE4B28C#64, 0x550C7DC3D5FFB4E2#64,
   0x72BE5D74F27B896F#64, 0x80DEB1FE3B1696B1#64, 0x9BDC06A725C71235#64, 0xC19BF174CF692694#64,
   0xE49B69C19EF14AD2#64, 0xEFBE4786384F25E3#64, 0x0FC19DC68B8CD5B5#64, 0x240CA1CC77AC9C65#64]

/-- Round constants 20 to 39 of SHA-512. -/
def shaK1 : List (BitVec 64) :=
  [0x2DE92C6F592B0275#64, 0x4A7484AA6EA6E483#64, 0x5CB0A9DCBD41FBD4#64, 0x76F988DA831153B5#64,
   0x983E5152EE66DFAB#64, 0xA831C66D2DB43210#64, 0xB00327C898FB213F#64, 0xBF597FC7BEEF0EE4#64,
   0xC6E00BF33DA88FC2#64, 0xD5A79147930AA725#64, 0x06CA6351E003826F#64, 0x142929670A0E6E70#64,
   0x27B70A8546D22FFC#64, 0x2E1B21385C26C926#64, 0x4D2C6DFC5AC42AED#64, 0x53380D139D95B3DF#64,
   0x650A73548BAF63DE#64, 0x766A0ABB3C77B2A8#64, 0x81C2C92E47EDAEE6#64, 0x92722C851482353B#64]

/-- Round constants 40 to 59 of SHA-512. -/
def shaK2 : List (BitVec 64) :=
  [0xA2BFE8A14CF10364#64, 0xA81A664BBC423001#64, 0xC24B8B70D0F89791#64, 0xC76C51A30654BE30#64,
   0xD192E819D6EF5218#64, 0xD69906245565A910#64, 0xF40E35855771202A#64, 0x106AA07032BBD1B8#64,
   0x19A4C116B8D2D0C8#64, 0x1E376C085141AB53#64, 0x2748774CDF8EEB99#64, 0x34B0BCB5E19B48A8#64,
   0x391C0CB3C5C95A63#64, 0x4ED8AA4AE3418ACB#64, 0x5B9CCA4F7763E373#64, 0x682E6FF3D6B2B8A3#64,
   0x748F82EE5DEFB2FC#64, 0x78A5636F43172F60#64, 0x84C87814A1F0AB72#64, 0x8CC702081A6439EC#64]

/-- Round constants 60 to 79 of SHA-512. -/
def shaK3 : List (BitVec 64) :=
  [0x90BEFFFA23631E28#64, 0xA4506CEBDE82BDE9#64, 0xBEF9A3F7B2C67915#64, 0xC67178F2E372532B#64,
   0xCA273ECEEA26619C#64, 0xD186B8C721C0C207#64, 0xEADA7DD6CDE0EB1E#64, 0xF57D4F7FEE6ED178#64,
   0x06F067AA72176FBA#64, 0x0A637DC5A2C898A6#64, 0x113F9804BEF90DAE#64, 0x1B710B35131C471B#64,
   0x28DB77F523047D84#64, 0x32CAAB7B40C72493#64, 0x3C9EBE0A15C9BEBC#64, 0x431D67C49C100D4C#64,
   0x4CC5D4BECB3E42B6#64, 0x597F299CFC657E2A#64, 0x5FCB6FAB3AD6FAEC#64, 0x6C44198C4A475817#64]

/-- The eighty round constants of SHA-512. -/
def shaK : List (BitVec 64) := shaK0 ++ shaK1 ++ shaK2 ++ shaK3

/-- The initial hash value of SHA-384. -/
def shaInit : List (BitVec 64) :=
  [0xCBBB9D5DC1059ED8#64, 0x629A292A367CD507#64, 0x9159015A3070DD17#64, 0x152FECD8F70E5939#64,
   0x67332667FFC00B31#64, 0x8EB44A8768581511#64, 0xDB0C2E0D64F98FA7#64, 0x47B5481DBEFA4FA4#64]

/-- The message schedule of SHA-512, newest word first: sixteen words extended to eighty. -/
def shaSchedule : Nat → List (BitVec 64) → List (BitVec 64)
  | 0, w => w
  | n + 1, w =>
    let a := w.getD 1 0#64
    let b := w.getD 14 0#64
    let s1 := a.rotateRight 19 ^^^ a.rotateRight 61 ^^^ (a >>> 6)
    let s0 := b.rotateRight 1 ^^^ b.rotateRight 8 ^^^ (b >>> 7)
    shaSchedule n ((s1 + w.getD 6 0#64 + s0 + w.getD 15 0#64) :: w)

/-- One round of SHA-512 on the working variables a to h. -/
def shaRound (v : List (BitVec 64)) (kw : BitVec 64 × BitVec 64) : List (BitVec 64) :=
  match v with
  | [a, b, c, d, e, f, g, h] =>
    let t1 := h + (e.rotateRight 14 ^^^ e.rotateRight 18 ^^^ e.rotateRight 41) + ((e &&& f) ^^^ (~~~e &&& g)) + kw.1 + kw.2
    let t2 := (a.rotateRight 28 ^^^ a.rotateRight 34 ^^^ a.rotateRight 39) + ((a &&& b) ^^^ (a &&& c) ^^^ (b &&& c))
    [t1 + t2, a, b, c, d + t1, e, f, g]
  | _ => v

/-- One block of SHA-512. -/
def shaBlock (h : List (BitVec 64)) (block : List Byte) : List (BitVec 64) :=
  let w := (List.range 16).map (fun i => BitVec.ofNat 64 (beNat ((block.drop (8 * i)).take 8)))
  let sched := (shaSchedule 64 w.reverse).reverse
  List.zipWith (fun (x y : BitVec 64) => x + y) h ((List.zip shaK sched).foldl shaRound h)

/-- Blocks of 128 bytes. -/
def shaBlocks : Nat → List (BitVec 64) → List Byte → List (BitVec 64)
  | 0, h, _ => h
  | n + 1, h, l => shaBlocks n (shaBlock h (l.take 128)) (l.drop 128)

/-- SHA-384 of a byte string, as 48 bytes. -/
def sha384 (l : List Byte) : List Byte :=
  let z := (111 + 128 - l.length % 128) % 128
  let m := l ++ [0x80#8] ++ List.replicate z 0#8 ++ beBytes 16 (8 * l.length)
  ((shaBlocks (m.length / 128) shaInit m).take 6).flatMap (fun w => beBytes 8 w.toNat)

/-- A 48-byte string as a bit vector, first byte highest. -/
def vec384 (l : List Byte) : BitVec 384 := BitVec.ofNat 384 (beNat l)

/-- The 48 bytes of such a bit vector. -/
def bytes384 (x : BitVec 384) : List Byte := beBytes 48 x.toNat

/-- HMAC-SHA-384. -/
def hmac384 (key msg : List Byte) : List Byte :=
  let k := padTo (if key.length > 128 then sha384 key else key) 128
  sha384 (k.map (fun b => b ^^^ 0x5C#8) ++ sha384 (k.map (fun b => b ^^^ 0x36#8) ++ msg))

/-- The expansion of HKDF: blocks T(i) to T(i + n - 1). -/
def hkdfExpand (prk info : List Byte) : Nat → Nat → List Byte → List Byte
  | 0, _, _ => []
  | n + 1, i, prev =>
    let t := hmac384 prk (prev ++ info ++ [BitVec.ofNat 8 i])
    t ++ hkdfExpand prk info n (i + 1) t

/-- HKDF over SHA-384 with a zero salt (R130, R131). -/
def hkdf384 (ikm info : List Byte) (n : Nat) : List Byte :=
  (hkdfExpand (hmac384 (List.replicate 48 0#8) ikm) info ((n + 47) / 48) 1 []).take n

/-! ## AES-256 -/

/-- Doubling in the field of AES. -/
def xtime (x : Byte) : Byte := if x.getLsbD 7 then (x <<< 1) ^^^ 0x1B#8 else x <<< 1

/-- Product in the field of AES. -/
def gfMul (x y : Byte) : Byte :=
  ((List.range 8).foldl (fun (p : Byte × Byte) i => (if y.getLsbD i then p.1 ^^^ p.2 else p.1, xtime p.2)) (0#8, x)).1

/-- Inverse in the field of AES: the 254th power. -/
def gfInv (x : Byte) : Byte :=
  let x2 := gfMul x x
  let x4 := gfMul x2 x2
  let x8 := gfMul x4 x4
  let x16 := gfMul x8 x8
  let x32 := gfMul x16 x16
  let x64 := gfMul x32 x32
  let x128 := gfMul x64 x64
  gfMul x128 (gfMul x64 (gfMul x32 (gfMul x16 (gfMul x8 (gfMul x4 x2)))))

/-- The substitution box of AES. -/
def aesSbox (x : Byte) : Byte :=
  let b := gfInv x
  b ^^^ b.rotateLeft 1 ^^^ b.rotateLeft 2 ^^^ b.rotateLeft 3 ^^^ b.rotateLeft 4 ^^^ 0x63#8

/-- The substitution box as a table. -/
def aesSboxTable : Array Byte := ((List.range 256).map (fun i => aesSbox (BitVec.ofNat 8 i))).toArray

/-- The inverse box as a table. -/
def aesInvTable : Array Byte :=
  ((List.range 256).map (fun i => BitVec.ofNat 8 ((List.range 256).findIdx (fun j => aesSboxTable.getD j 0#8 == BitVec.ofNat 8 i)))).toArray

/-- Substitution of one byte. -/
def subByte (x : Byte) : Byte := aesSboxTable.getD x.toNat 0#8

/-- Inverse substitution of one byte. -/
def invSubByte (x : Byte) : Byte := aesInvTable.getD x.toNat 0#8

/-- Key expansion of AES-256: words, newest first, from the eight of the key. -/
def aesExpand : Nat → Nat → Byte → List (List Byte) → List (List Byte)
  | 0, _, _, w => w
  | n + 1, i, rcon, w =>
    let prev := w.getD 0 []
    let t := if i % 8 = 0 then
        match (prev.drop 1 ++ prev.take 1).map subByte with
        | b :: r => (b ^^^ rcon) :: r
        | [] => []
      else if i % 8 = 4 then prev.map subByte else prev
    let rcon' := if i % 8 = 0 then xtime rcon else rcon
    aesExpand n (i + 1) rcon' (List.zipWith (fun (a b : Byte) => a ^^^ b) (w.getD 7 []) t :: w)

/-- The fifteen round keys of AES-256. -/
def aesRoundKeys (key : List Byte) : List (List Byte) :=
  let w0 := (List.range 8).map (fun i => (key.drop (4 * i)).take 4)
  let w := (aesExpand 52 8 1#8 w0.reverse).reverse
  (List.range 15).map (fun i => ((w.drop (4 * i)).take 4).flatten)

/-- Byte-wise exclusive or. -/
def xorBytes (a b : List Byte) : List Byte := List.zipWith (fun (x y : Byte) => x ^^^ y) a b

/-- ShiftRows by `k` times the row number, columns first. -/
def shiftRows (st : List Byte) (k : Nat) : List Byte :=
  (List.range 16).map (fun i => st.getD ((i % 4) + 4 * ((i / 4 + k * (i % 4)) % 4)) 0#8)

/-- MixColumns with the given first row of coefficients. -/
def mixColumns (st : List Byte) (m : List Byte) : List Byte :=
  (List.range 16).map (fun i =>
    let r := i % 4
    (List.range 4).foldl (fun acc k => acc ^^^ gfMul (m.getD ((k + 4 - r) % 4) 0#8) (st.getD (4 * (i / 4) + k) 0#8)) 0#8)

/-- AES-256 encryption of one block under expanded keys. -/
def aesEncrypt (rk : List (List Byte)) (x : List Byte) : List Byte :=
  let s0 := xorBytes x (rk.getD 0 [])
  let mid := ((rk.drop 1).take 13).foldl
    (fun st k => xorBytes (mixColumns (shiftRows (st.map subByte) 1) [2#8, 3#8, 1#8, 1#8]) k) s0
  xorBytes (shiftRows (mid.map subByte) 1) (rk.getD 14 [])

/-- AES-256 decryption of one block under expanded keys. -/
def aesDecrypt (rk : List (List Byte)) (x : List Byte) : List Byte :=
  let s0 := (shiftRows (xorBytes x (rk.getD 14 [])) 3).map invSubByte
  let mid := (((rk.drop 1).take 13).reverse).foldl
    (fun st k => (shiftRows (mixColumns (xorBytes st k) [14#8, 11#8, 13#8, 9#8]) 3).map invSubByte) s0
  xorBytes mid (rk.getD 0 [])

/-- Doubling of an XTS tweak, little-endian. -/
def xtsDouble (t : Nat) : Nat := if t / 2 ^ 127 % 2 = 1 then (2 * t % 2 ^ 128) ^^^ 0x87 else 2 * t

/-- AES-256-XTS over whole blocks of a data unit (R131): key is the data key then the tweak key. -/
def aesXts (key : List Byte) (unit : Nat) (encryptIt : Bool) (x : List Byte) : List Byte :=
  let rk := aesRoundKeys (key.take 32)
  let t0 := leNat (aesEncrypt (aesRoundKeys (key.drop 32)) (leBytes 16 unit))
  ((List.range (x.length / 16)).foldl (fun (p : List Byte × Nat) i =>
    let tw := leBytes 16 p.2
    let b := xorBytes ((x.drop (16 * i)).take 16) tw
    (p.1 ++ xorBytes (if encryptIt then aesEncrypt rk b else aesDecrypt rk b) tw, xtsDouble p.2)) ([], t0)).1

/-- Product in the field of GCM, most significant bit first. -/
def ghashMul (x y : Nat) : Nat :=
  ((List.range 128).foldl (fun (p : Nat × Nat) i =>
    (if x / 2 ^ (127 - i) % 2 = 1 then p.1 ^^^ p.2 else p.1,
     if p.2 % 2 = 1 then (p.2 / 2) ^^^ (0xE1 * 2 ^ 120) else p.2 / 2)) (0, y)).1

/-- GHASH over whole blocks. -/
def ghash (h : Nat) : Nat → Nat → List Byte → Nat
  | 0, a, _ => a
  | n + 1, a, l => ghash h n (ghashMul (a ^^^ beNat (l.take 16)) h) (l.drop 16)

/-- Zero bytes that complete a block. -/
def padBlock (l : List Byte) : List Byte := l ++ List.replicate ((16 - l.length % 16) % 16) 0#8

/-- AES-256-GCM encryption with a 96-bit IV: ciphertext and tag. -/
def aesGcm (key iv aad x : List Byte) : List Byte × List Byte :=
  let rk := aesRoundKeys key
  let h := beNat (aesEncrypt rk (List.replicate 16 0#8))
  let c := ((List.range ((x.length + 15) / 16)).map (fun i =>
    xorBytes ((x.drop (16 * i)).take 16) (aesEncrypt rk (iv ++ beBytes 4 (i + 2))))).flatten
  let m := padBlock aad ++ padBlock c ++ beBytes 8 (8 * aad.length) ++ beBytes 8 (8 * c.length)
  (c, xorBytes (beBytes 16 (ghash h (m.length / 16) 0 m)) (aesEncrypt rk (iv ++ beBytes 4 1)))

/-- AES-256-GCM decryption: the text, none where the tag is not that of the ciphertext. -/
def aesGcmOpen (key iv aad c tag : List Byte) : Option (List Byte) :=
  let x := (aesGcm key iv aad c).1
  if aesGcm key iv aad x = (c, tag) then some x else none

/-! ## P-384 -/

/-- The field prime. -/
def p384 : Nat := 2 ^ 384 - 2 ^ 128 - 2 ^ 96 + 2 ^ 32 - 1
/-- The group order. -/
def n384 : Nat := 0xFFFFFFFFFFFFFFFFFFFFFFFFFFFFFFFFFFFFFFFFFFFFFFFFC7634D81F4372DDF581A0DB248B0A77AECEC196ACCC52973
/-- The curve's b. -/
def b384 : Nat := 0xB3312FA7E23EE7E4988E056BE3F82D19181D9C6EFE8141120314088F5013875AC656398D8A2ED19D2A85C8EDD3EC2AEF
/-- The base point. -/
def g384 : Nat × Nat :=
  (0xAA87CA22BE8B05378EB1C71EF320AD746E1D3B628BA79B9859F741E082542A385502F25DBF55296C3A545E3872760AB7,
   0x3617DE4A96262C6F5D9E98BF9292DC29F8F41DBD289A147CE9DA3113B5F0B8C00A60B1CE1D7E819D7A431D7C90EA0E5F)

/-- Modular power by squaring over `n` bits of the exponent. -/
def powMod (m : Nat) : Nat → Nat → Nat → Nat → Nat
  | 0, _, _, acc => acc
  | n + 1, b, e, acc => powMod m n (b * b % m) (e / 2) (if e % 2 = 1 then acc * b % m else acc)

/-- Inverse modulo a prime. -/
def invMod (m x : Nat) : Nat := powMod m 384 (x % m) (m - 2) 1

/-- A point: none is the point at infinity. -/
abbrev Point := Option (Nat × Nat)

/-- A point lies on the curve. -/
def onCurve (x y : Nat) : Bool :=
  decide (x < p384) && decide (y < p384) && (y * y % p384 == (x * x * x + (p384 - 3) * x + b384) % p384)

/-- The group law. -/
def pointAdd (a b : Point) : Point :=
  match a, b with
  | none, q => q
  | q, none => q
  | some (x1, y1), some (x2, y2) =>
    if x1 = x2 ∧ (y1 + y2) % p384 = 0 then none
    else
      let l := if x1 = x2 then (3 * x1 * x1 + p384 - 3) * invMod p384 (2 * y1) % p384
        else (y2 + p384 - y1) * invMod p384 (x2 + p384 - x1) % p384
      let x3 := (l * l + 2 * p384 - x1 - x2) % p384
      some (x3, (l * (x1 + p384 - x3) + p384 - y1) % p384)

/-- Scalar multiple over `n` bits. -/
def pointMul : Nat → Nat → Point → Point → Point
  | 0, _, _, acc => acc
  | n + 1, k, q, acc => pointMul n (k / 2) (pointAdd q q) (if k % 2 = 1 then pointAdd acc q else acc)

/-- k times a point. -/
def scalarMul (k : Nat) (q : Point) : Point := pointMul 384 k q none

/-- A point as 96 bytes, x then y, big-endian (R130). -/
def pointBytes (q : Point) : List Byte :=
  match q with
  | none => List.replicate 96 0#8
  | some (x, y) => beBytes 48 x ++ beBytes 48 y

/-- ECDSA over P-384 with a given nonce: r then s, each 48 bytes big-endian (R129). -/
def ecdsaSign (d nonce : Nat) (digest : List Byte) : List Byte :=
  let k := nonce % (n384 - 1) + 1
  let r := match scalarMul k (some g384) with
    | none => 0
    | some (x, _) => x % n384
  let sv := invMod n384 k * (beNat digest + r * d) % n384
  beBytes 48 r ++ beBytes 48 sv

/-- ECDSA verification over P-384. -/
def ecdsaVerify (x y r sv : Nat) (digest : List Byte) : Bool :=
  if r = 0 ∨ sv = 0 ∨ n384 ≤ r ∨ n384 ≤ sv ∨ onCurve x y = false then false
  else
    let w := invMod n384 sv
    match pointAdd (scalarMul (beNat digest * w % n384) (some g384)) (scalarMul (r * w % n384) (some (x, y))) with
    | none => false
    | some (vx, _) => vx % n384 == r

end Sys2Proof.Machine
end

