-- ==== Sys2Proof/Machine/Operands.lean ====
section
/-! DEFINITION. The operand forms of the control instructions: how immediates and offsets extend (R61), bit fields
(R172), halfwords (R171), load and store widths (R179), and the directions of an effective address (R159). -/

namespace Sys2Proof.Machine

/-- sext(imm16, 64) (R61). -/
def sext16 (x : BitVec 16) : W64 := x.signExtend 64
/-- zext(imm16, 64) (R61). -/
def zext16 (x : BitVec 16) : W64 := x.setWidth 64
/-- sext(imm14, 64) (R61, R173). -/
def sext14 (x : BitVec 14) : W64 := x.signExtend 64
/-- sext(off12, 64) (R61, R159). -/
def sext12 (x : BitVec 12) : W64 := x.signExtend 64
/-- 4 × sext(off22, 64), the byte offset of a branch (R61, R176). -/
def branch22 (x : BitVec 22) : W64 := x.signExtend 64 * 4#64
/-- 4 × sext(off21, 64), the byte offset of a jump (R61, R177). -/
def branch21 (x : BitVec 21) : W64 := x.signExtend 64 * 4#64

/-- The field of `len` = lenm + 1 bits at `pos`, zero-extended (R172). -/
def extractField (x : W64) (pos lenm : BitVec 6) : W64 :=
  (x >>> pos.toNat) &&& (BitVec.ofNat 64 (2 ^ (lenm.toNat + 1) - 1))

/-- The same field, sign-extended (R172). -/
def extractFieldSigned (x : W64) (pos lenm : BitVec 6) : W64 :=
  BitVec.ofInt 64 (signed (extractField x pos lenm).toNat (lenm.toNat + 1))

/-- The low bits of `v` inserted at `pos` in `x`, other bits kept (R172). -/
def insertField (x v : W64) (pos lenm : BitVec 6) : W64 :=
  let m : W64 := BitVec.ofNat 64 (2 ^ (lenm.toNat + 1) - 1)
  (x &&& ~~~(m <<< pos.toNat)) ||| ((v &&& m) <<< pos.toNat)

/-- The bit position of a halfword (R171). -/
def halfShift (hw : BitVec 2) : Nat := 16 * hw.toNat

/-- The bytes of an access by its W bit (R385). -/
def widthBytes : Width → Nat
  | .w32 => 4
  | .w64 => 8

/-- log2 of the bytes of an access, as TINFO carries it (R183). -/
def lgw : Nat → Nat
  | 1 => 0 | 2 => 1 | 4 => 2 | 8 => 3 | _ => 6

/-- The scope code (R65). -/
def scopeNum : Scope → Nat
  | .tile => 0 | .region => 1 | .cluster => 2 | .die => 3 | .package => 4 | .group => 5 | .domain => 6
  | .network => 7 | .system => 8

/-- Where an effective address is directed (R159). -/
inductive Direct where
  | part (off : Nat)
  | sram (a : Nat)
  | virt (va : W64)
  deriving DecidableEq, Repr

/-- Directs an effective address: 0xFFFF in the top half is the partition on a sequencer and local SRAM on the management
core; any other is a virtual address (R159). -/
def direct (c : CoreId) (ea : W64) : Direct :=
  if ea.toNat / 2 ^ 48 = 0xFFFF then
    match c with
    | .seq _ => .part (ea.toNat % 2 ^ 48)
    | .mc => .sram (ea.toNat % 2 ^ 48)
  else .virt ea

/-- The SPACE code of TINFO (R183). -/
def Direct.space : Direct → Nat
  | .virt _ => 0
  | .part _ => 1
  | .sram _ => 2

/-- TINFO (R183). -/
def tinfo (ucause gstate space : Nat) (pres wr : Bool) (lg : Nat) : W64 :=
  BitVec.ofNat 64 (lg + (if wr then 16 else 0) + (if pres then 32 else 0) + 64 * space + 256 * gstate + 65536 * ucause)

/-- The address is a multiple of a width (R179). -/
def aligned (ea : W64) (n : Nat) : Bool := ea.toNat % n == 0

end Sys2Proof.Machine
end

