-- ==== Sys2Proof/Machine/Flags.lean ====
section
/-! DEFINITION. The truths the device forms: compare conditions (R173), predicate logic (R174), the events of a firing and
what PV selects among them (R48), the poison and error record of results (R22). -/

namespace Sys2Proof.Machine

/-- The truth of a compare condition (R173). -/
def condHolds (c : Cond) (a b : W64) : Bool :=
  match c with
  | .eq => a == b
  | .ne => a != b
  | .lt => a.slt b
  | .ge => !a.slt b
  | .ltn => a.ult b
  | .gen => !a.ult b
  | .le => a.sle b
  | .gt => !a.sle b
  | .len => a.ule b
  | .gtn => !a.ule b
  | .tst => (a &&& b) != 0#64
  | .ntst => (a &&& b) == 0#64

/-- tt[2 × pa + pb] (R174). -/
def truthTable (tt : BitVec 4) (pa pb : Bool) : Bool := tt.getLsbD (2 * pa.toNat + pb.toNat)

/-- No event. -/
def Ev.none : Ev := { invalid := false, overflow := false }
/-- The invalid event (R48). -/
def Ev.inv : Ev := { invalid := true, overflow := false }
/-- The overflow event (R47). -/
def Ev.ovf : Ev := { invalid := false, overflow := true }
/-- The events of two. -/
def Ev.or (a b : Ev) : Ev := { invalid := a.invalid || b.invalid, overflow := a.overflow || b.overflow }

/-- PV selects a raised event: 0 none, 1 invalid, 2 overflow, 3 both (R48). -/
def pvSelects (pv : Nat) (e : Ev) : Bool := (pv % 2 == 1 && e.invalid) || (pv / 2 % 2 == 1 && e.overflow)

/-- The error record of the lowest-numbered operand that carries ERR (R22). -/
def firstErr : List Token → Option W32
  | [] => none
  | t :: r => if t.err then some t.record else firstErr r

/-- A result token under R22 and R48: poisoned when an operand is, or when PV selects an event; the error record in place
of the payload when an operand carries one. -/
def resultTok (operands : List Token) (selected : Bool) (payload : Beat) : Token :=
  match firstErr operands with
  | some r => errTok r
  | none => { kind := .data, poison := operands.any (fun t => t.poison) || selected, err := false, payload := payload }

/-- A token that carries a poison flag and, when present, an error record in place of the payload (R22). -/
def poisonTok (poison : Bool) (recd : Option W32) (payload : Beat) : Token :=
  match recd with
  | some r => errTok r
  | none => { kind := .data, poison := poison, err := false, payload := payload }

end Sys2Proof.Machine
end

