-- ==== Sys2Proof/Machine/Mem.lean ====
section
/-! DEFINITION. Memory: the canonical lists of bytes, the places an access reaches, presence and deferred reads, encryption
of HBM units, translation, and the loads and stores of a core. -/

namespace Sys2Proof.Machine

/-! ## One list of bytes -/

/-- The byte at an address; an unlisted address reads as 0 (log entry 4). -/
def Memory.read : List Host.Cell → Nat → Byte
  | [], _ => 0#8
  | c :: m, a => if c.1 = a then c.2 else Memory.read m a

/-- The list with one byte written, in canonical form. -/
def Memory.write : List Host.Cell → Nat → Byte → List Host.Cell
  | [], a, b => if b = 0#8 then [] else [(a, b)]
  | c :: m, a, b =>
    if a < c.1 then (if b = 0#8 then c :: m else (a, b) :: c :: m)
    else if a = c.1 then (if b = 0#8 then m else (a, b) :: m)
    else c :: Memory.write m a b

/-- Every address is above a bound, addresses strictly rise, and no byte is 0. -/
def Memory.above : Nat → List Host.Cell → Bool
  | _, [] => true
  | n, c :: m => decide (n ≤ c.1) && (c.2 != 0#8) && Memory.above (c.1 + 1) m

/-- The canonical form: addresses strictly rising, no entry equal to what an unlisted address reads as. -/
def Memory.wf (m : List Host.Cell) : Bool := Memory.above 0 m

/-- Writes successive bytes. -/
def Memory.writeAll (m : List Host.Cell) (a : Nat) : List Byte → List Host.Cell
  | [] => m
  | b :: bs => Memory.writeAll (Memory.write m a b) (a + 1) bs

/-- Reads successive bytes. -/
def Memory.readAll (m : List Host.Cell) (a : Nat) : Nat → List Byte
  | 0 => []
  | n + 1 => Memory.read m a :: Memory.readAll m (a + 1) n

/-! ## Places -/

/-- Bytes of an island bank (R139). -/
def bankBytes : Nat := 262144
/-- Bytes of a tile store (R289). -/
def tileBytes : Nat := 196608

/-- The number a place has within its list. -/
def Place.key : Place → Nat
  | .hbm a => a
  | .bank b y => b * bankBytes + y
  | .tile r t o => (r * 64 + t) * tileBytes + o
  | .sram a => a
  | .host _ o => o

/-- The place `n` bytes further. -/
def Place.plus (p : Place) (n : Nat) : Place :=
  match p with
  | .hbm a => .hbm (a + n)
  | .bank b y => .bank b (y + n)
  | .tile r t o => .tile r t (o + n)
  | .sram a => .sram (a + n)
  | .host q o => .host q (o + n)

/-- The offset of a place in its 64-byte granule. -/
def Place.offset : Place → Nat
  | .hbm a => a % 64
  | .bank _ y => y % 64
  | .tile _ _ o => o % 64
  | .sram a => a % 64
  | .host _ o => o % 64

/-- The granule that holds a place. -/
def Place.granule (p : Place) : Place :=
  match p with
  | .hbm a => .hbm (a - a % 64)
  | .bank b y => .bank b (y - y % 64)
  | .tile r t o => .tile r t (o - o % 64)
  | .sram a => .sram (a - a % 64)
  | .host q o => .host q (o - o % 64)

/-- The port that performs accesses to a place (R289, R338). -/
def Place.port : Place → Nat × Nat × Nat
  | .hbm a => (0, a / 2 ^ 47, a % 2 ^ 47 / 4096 % 8)
  | .bank b _ => (1, b, 0)
  | .tile r t o => (2, r * 64 + t, o / 64 % 8)
  | .sram _ => (3, 0, 0)
  | .host q _ => (4, portHolder q, 0)

/-- The place is host memory. -/
def Place.isHost : Place → Bool
  | .host _ _ => true
  | _ => false

/-- The place is an island bank or the package's own HBM, which SC accesses reach (R375). -/
def Place.isLocal : Place → Bool
  | .hbm a => a / 2 ^ 47 == 0
  | .bank _ _ => true
  | _ => false

/-- The list that holds a place. -/
def Mems.list (m : Mems) : Place → List Host.Cell
  | .hbm _ => m.hbm
  | .bank _ _ => m.bank
  | .tile _ _ _ => m.tile
  | .sram _ => m.sram
  | .host .a _ => m.hostA
  | .host .b _ => m.hostB

/-- The memories with the list that holds a place replaced. -/
def Mems.setList (m : Mems) (p : Place) (l : List Host.Cell) : Mems :=
  match p with
  | .hbm _ => { m with hbm := l }
  | .bank _ _ => { m with bank := l }
  | .tile _ _ _ => { m with tile := l }
  | .sram _ => { m with sram := l }
  | .host .a _ => { m with hostA := l }
  | .host .b _ => { m with hostB := l }

/-- One byte of memory. -/
def Mems.byte (m : Mems) (p : Place) : Byte := Memory.read (m.list p) p.key

/-- Successive bytes of memory, as stored. -/
def Mems.bytes (m : Mems) (p : Place) (n : Nat) : List Byte := Memory.readAll (m.list p) p.key n

/-- Every memory of the device is in canonical form. -/
def Mems.wf (m : Mems) : Bool :=
  Memory.wf m.hbm && Memory.wf m.bank && Memory.wf m.tile && Memory.wf m.sram && Memory.wf m.hostA && Memory.wf m.hostB

/-- Memory with successive bytes written, as stored. -/
def Mems.setBytes (m : Mems) (p : Place) (bs : List Byte) : Mems :=
  m.setList p (Memory.writeAll (m.list p) p.key bs)

/-- The presence state of the granule that holds a place; only HBM and island banks carry presence (R151, R180). -/
def Mems.gst (m : Mems) : Place → Gst
  | .hbm a => Table.get m.gstHbm (a / 64) .empty
  | .bank b y => Table.get m.gstBank ((b * bankBytes + y) / 64) .empty
  | _ => .full

/-- Memory with a presence state written; EMPTY is the state of an unlisted granule. -/
def Mems.setGst (m : Mems) (p : Place) (g : Gst) : Mems :=
  let upd (t : Table Gst) (k : Nat) := if g = .empty then Table.del t k else Table.put t k g
  match p with
  | .hbm a => { m with gstHbm := upd m.gstHbm (a / 64) }
  | .bank b y => { m with gstBank := upd m.gstBank ((b * bankBytes + y) / 64) }
  | _ => m

/-- The launch mark of the granule that holds a place (R118). -/
def Mems.mark (m : Mems) : Place → Bool
  | .hbm a => m.marks.contains (a / 64)
  | _ => false

/-- Memory with a launch mark written (R118). -/
def Mems.setMark (m : Mems) (p : Place) (b : Bool) : Mems :=
  match p with
  | .hbm a => { m with marks := setMember m.marks (a / 64) b }
  | _ => m

/-- The code of a presence state (R183). -/
def Gst.code : Gst → Nat
  | .empty => 0 | .full => 1 | .void => 2

/-! ## The management core's SRAM (R158, R401) -/

/-- A little-endian number in the management core's SRAM. -/
def State.sramNat (s : State) (a n : Nat) : Nat := leNat (s.mem.bytes (.sram a) n)

/-- That number written. -/
def State.setSram (s : State) (a n v : Nat) : State := { s with mem := s.mem.setBytes (.sram a) (leBytes n v) }

/-- Address of a pacing descriptor (R401). -/
def paceAt (i : Nat) : Nat := 0x1FF000 + 128 * i

/-- The members in a descriptor's SET, ascending. -/
def State.paceSet (s : State) (i : Nat) : List Nat :=
  let v := s.sramNat (paceAt i + 32) 72
  (List.range 576).filter (fun m => v.testBit m)

/-- GTAG, ASID, PHASE of a descriptor (R401). -/
def State.paceTag (s : State) (i : Nat) : Nat := s.sramNat (paceAt i + 6) 2
def State.paceAsid (s : State) (i : Nat) : Nat := s.sramNat (paceAt i + 4) 2
def State.pacePhase (s : State) (i : Nat) : Nat := s.sramNat (paceAt i + 8) 8

/-- A descriptor with V set that the device does not ignore for itself (R401). -/
def State.paceValid (s : State) (i : Nat) : Bool :=
  let at' (o n : Nat) : Nat := s.sramNat (paceAt i + o) n
  at' 0 1 == 1 && decide (at' 1 1 < 16) && at' 2 1 != 0 && at' 3 1 == 0 && decide (at' 4 2 < 4096) && at' 24 8 == 0 &&
  at' 104 24 == 0 && (s.sramNat (paceAt i + 32) 72).testBit s.member

/-- The descriptors that govern: of two valid ones with one GTAG, the lower-indexed (R401). -/
def State.paceLive (s : State) : List Nat :=
  let v := (List.range 16).filter s.paceValid
  v.filter (fun i => !v.any (fun j => decide (j < i) && s.paceTag j == s.paceTag i))

/-- The link leads to a member. -/
def Link.leadsTo (l : Link) (m : Nat) : Bool := l.trained && (l.member == m || l.beyond.contains m)

/-- The member has a trained Lotar path (R132, R339). -/
def State.reachable (s : State) (member : Nat) : Bool := s.sec.links.any (fun l => l.2.leadsTo member)

/-- The value of an IV counter at which its link is rekeyed, ahead of the wrap (R132; log entry 51). -/
def rekeyAt : BitVec 96 := BitVec.ofNat 96 (2 ^ 96 - 2 ^ 20)

/-- A frame takes the next IV of a direction of the first link that leads to a member (R132). A link whose counter nears its
end is rekeyed next; one whose counter would wrap all the same, since no peer stands there, carries nothing more. -/
def State.stepIv (s : State) (m : Nat) (out : Bool) : State :=
  match List.find? (fun l => l.2.leadsTo m) s.sec.links with
  | none => s
  | some (n, l) =>
    let iv := (if out then l.ivOut else l.ivIn) + 1#96
    let l1 : Link := if out then { l with ivOut := iv, trained := iv != 0#96 } else { l with ivIn := iv, trained := iv != 0#96 }
    { s with
      sec := { s.sec with links := Table.put s.sec.links n l1 }
      agenda := if iv = rekeyAt then .event (.linkRekey n) :: s.agenda else s.agenda }

/-- A granule read or written at another member goes over a link as one frame each way (R132; log entry 51). -/
def State.frames (s : State) (p : Place) : State :=
  match p with
  | .hbm a => if a / 2 ^ 47 = 0 then s else (s.stepIv (a / 2 ^ 47 - 1) true).stepIv (a / 2 ^ 47 - 1) false
  | _ => s

/-- A sideband message goes to a member (R402, R451, R454). -/
def State.sideSend (s : State) (m : Nat) (words : List W64) : State :=
  let s1 := s.stepIv m true
  { s1 with pow := { s1.pow with sideband := (m, words) :: s1.pow.sideband } }

/-- A change of PHASE is sent to every other member of a descriptor's SET (R402). -/
def State.sendPhase (s : State) (i n : Nat) : State :=
  ((s.paceSet i).filter (fun m => m != s.member)).foldl (fun s m =>
    s.sideSend m [BitVec.ofNat 64 (s.paceTag i), BitVec.ofNat 64 n]) s

/-- V has been set: both phases and every phase heard are zero (R401); a PHASE that was not zero has changed, which is sent
where the descriptor governs (R402). -/
def State.clearPhases (s : State) (i : Nat) : State :=
  let s1 := (s.setSram (paceAt i + 8) 8 0).setSram (paceAt i + 16) 8 0
  let s2 := { s1 with pow := { s1.pow with heard := s1.pow.heard.filter (fun e => e.1 / 1024 != i) } }
  if s.pacePhase i ≠ 0 ∧ s2.paceLive.contains i then s2.sendPhase i 0 else s2

/-- Descriptors whose V a store has raised are to have their phases cleared (R401). -/
def vRaised (old new : List Host.Cell) : List Nat :=
  (List.range 16).filter (fun i => (Memory.read new (paceAt i)).getLsbD 0 && !(Memory.read old (paceAt i)).getLsbD 0)

/-- The power block's address (R449). -/
def powerBlock : Nat := 0x1FFB00

/-- TALERT as the device holds it (R449): the last valid one stays while the block is ill-formed. -/
def State.talertNow (s : State) : Int :=
  let t := signed (s.sramNat powerBlock 2) 16
  if s.sramNat (powerBlock + 2) 2 = 0 ∧ s.sramNat (powerBlock + 9) 7 = 0 ∧ s.sramNat (powerBlock + 36) 28 = 0 ∧
    -640 ≤ t ∧ t ≤ 2400 then t else s.pow.talert

/-- Bytes stored in the SRAM (R158): the device sees a valid TALERT as it is stored (R449), and a store that raises V of a
pacing descriptor clears its phases (R401). -/
def State.storeSram (s : State) (a : Nat) (bs : List Byte) : State :=
  let s1 := { s with mem := s.mem.setBytes (.sram a) bs }
  let s2 := { s1 with pow := { s1.pow with talert := s1.talertNow } }
  (vRaised s.mem.sram s2.mem.sram).foldl State.clearPhases s2

/-! ## Encrypted units of HBM (R131) -/

/-- The address space of an ASID. -/
def State.aspace? (s : State) (asid : Nat) : Option Aspace := Table.find? s.disp.aspaces asid

/-- The address space has a key binding (R130). -/
def State.isKeyed (s : State) (asid : Nat) : Bool :=
  match s.aspace? asid with
  | none => false
  | some a => a.kbind != 0#384

/-- The XTS key of an address space as bytes, first byte first. -/
def State.xtsKey (s : State) (asid : Nat) : List Byte :=
  match s.aspace? asid with
  | none => List.replicate 64 0#8
  | some a => beBytes 64 a.kx.toNat

/-- The global physical address of an HBM place (R150). -/
def State.gpaOf (s : State) (a : Nat) : Nat :=
  if a / 2 ^ 47 = 0 then s.member * 2 ^ 47 + a else a - 2 ^ 47

/-- The 64 bytes of the granule that holds a place, as an address space reads them (R131). -/
def State.unit (s : State) (asid : Nat) (p : Place) : List Byte :=
  let raw := s.mem.bytes p.granule 64
  match p with
  | .hbm a =>
    if s.mem.keyBits.contains (a / 64) && s.isKeyed asid then aesXts (s.xtsKey asid) (s.gpaOf a / 64) false raw else raw
  | _ => raw

/-- Bytes within one granule, as an address space reads them (R131). -/
def State.loadBytes (s : State) (asid : Nat) (p : Place) (n : Nat) : List Byte :=
  match p with
  | .hbm a =>
    if s.mem.keyBits.contains (a / 64) && s.isKeyed asid then slice (s.unit asid p) p.offset n else s.mem.bytes p n
  | _ => s.mem.bytes p n

/-- Bytes within one granule written by an address space (R131): a keyed one encrypts the unit and sets its key bit, one
without a binding stores it in the clear and clears the bit. -/
def State.storeBytes (s : State) (asid : Nat) (p : Place) (bs : List Byte) : State :=
  match p with
  | .hbm a =>
    if s.isKeyed asid then
      let old := s.unit asid p
      let new := old.take p.offset ++ bs ++ old.drop (p.offset + bs.length)
      let m := s.mem.setBytes p.granule (aesXts (s.xtsKey asid) (s.gpaOf a / 64) true new)
      { s with mem := { m with keyBits := setMember m.keyBits (a / 64) true } }
    else
      let m := s.mem.setBytes p bs
      { s with mem := if m.keyBits.contains (a / 64) then { m with keyBits := setMember m.keyBits (a / 64) false } else m }
  | .sram a => s.storeSram a bs
  | _ => { s with mem := s.mem.setBytes p bs }

/-- An uncorrectable error stands at the granule (R338, R404). -/
def State.eccAt (s : State) (p : Place) : Bool := s.mem.ecc.contains p.granule

/-! ## Presence and deferred reads -/

/-- The reads posted at a granule are answered (R371). -/
def State.answerReads (s : State) (p : Place) (f : Read → Answer) : State :=
  { s with ports := { s.ports with reads := s.ports.reads.map (fun r =>
      if r.place = p.granule ∧ r.answer = none then { r with answer := some (f r) } else r) } }

/-- A fill has just been performed at a granule: every read deferred there is served, in deferral order, with the granule
as the fill leaves it (R371, R372). -/
def State.serveFill (s : State) (p : Place) : State :=
  s.answerReads p (fun r => .filled (beatOf (s.unit r.asid p)) (s.mem.mark p))

/-- A granule becomes VOID when it is EMPTY, and its deferred reads are answered (R370, R371). -/
def State.voidGranule (s : State) (p : Place) : State :=
  if s.mem.gst p = .empty then
    ({ s with mem := (s.mem.setGst p .void).setMark p false }).answerReads p (fun _ => .voided)
  else s

/-- A granule becomes EMPTY; its bytes stay and its deferred reads stay deferred (R370, R371). -/
def State.clearGranule (s : State) (p : Place) : State :=
  { s with mem := (s.mem.setGst p .empty).setMark p false }

/-- The outcome of a store at its port: performed, or refused by presence (R370). -/
inductive StoreRes where
  | ok (s : State)
  | presence (g : Gst)

/-- A unit that arrives from another member as its keyed address space encrypted it (R131): it is kept as it is, with the key
bit. -/
def State.storeCipher (s : State) (p : Place) (bs : List Byte) : State :=
  let m := s.mem.setBytes p bs
  { s with mem := match p with
    | .hbm a => { m with keyBits := setMember m.keyBits (a / 64) true }
    | _ => m }

/-- A store at its port (R180, R311, R370), its bytes written by `f`: on a single-assignment granule it fills an EMPTY one and is
discarded by a FULL or VOID one. `mark` is the launch mark the fill leaves (R118). -/
def State.storeBy (s : State) (f : State → State) (p : Place) (sa mark : Bool) : StoreRes :=
  if sa then
    match s.mem.gst p with
    | .empty =>
      let s1 := f s
      let s2 := { s1 with mem := (s1.mem.setGst p .full).setMark p mark }
      .ok (s2.serveFill p)
    | g => .presence g
  else .ok (f s)

/-- A store of an address space at its port. -/
def State.storeAt (s : State) (asid : Nat) (p : Place) (sa : Bool) (bs : List Byte) (mark : Bool) : StoreRes :=
  s.storeBy (fun s => s.storeBytes asid p bs) p sa mark

/-- A read is posted at a granule, behind those already there, unless the reader stands there already (R371). `virt` is the
virtual address it was translated for, if any. -/
def State.postRead (s : State) (rd : Reader) (p : Place) (asid : Nat) (virt : Option Nat) : State :=
  if s.ports.reads.any (fun r => r.reader == rd && r.place == p.granule) then s
  else { s with ports := { s.ports with
    reads := s.ports.reads ++
      [{ reader := rd, place := p.granule, virt := virt.map (· / 64), asid := asid, answer := none }] } }

/-- Where a reader's posted read for a virtual address stands: a deferred read stays at its physical granule (R152, R371). -/
def State.standing (s : State) (rd : Reader) (asid va : Nat) : Option Place :=
  (s.ports.reads.find? (fun r => r.reader == rd && r.asid == asid && r.virt == some (va / 64))).map
    (fun r => r.place.plus (va % 64))

/-- The answer to a reader's read at a granule, when it has one. -/
def State.answerAt (s : State) (rd : Reader) (p : Place) : Option Answer :=
  (s.ports.reads.find? (fun r => r.reader == rd && r.place == p.granule)).bind (fun r => r.answer)

/-- The reads a predicate names are withdrawn. -/
def State.dropReads (s : State) (f : Reader → Bool) : State :=
  { s with ports := { s.ports with reads := s.ports.reads.filter (fun r => !f r.reader) } }

/-- The outcome of a load at its port (R180, R305, R370). -/
inductive LoadRes where
  | ok (bs : List Byte)
  | wait
  | void
  deriving DecidableEq, Repr

/-- A load within one granule at its port: a reader's served read answers first; an EMPTY granule defers it (R371). `virt` is
the virtual address it was translated for, if any. -/
def State.loadAt (s : State) (rd : Reader) (asid : Nat) (p : Place) (sa : Bool) (n : Nat) (virt : Option Nat := none) :
    State × LoadRes :=
  if sa then
    match s.answerAt rd p with
    | some (.filled b _) => (s, .ok (slice (beatBytes b) p.offset n))
    | some .voided => (s, .void)
    | none =>
      match s.mem.gst p with
      | .empty => (s.postRead rd p asid virt, .wait)
      | .full => (s, .ok (s.loadBytes asid p n))
      | .void => (s, .void)
  else (s, .ok (s.loadBytes asid p n))

/-! ## Translation -/

/-- The kinds of access (R149). -/
inductive Acc where
  | read | write | presence
  deriving DecidableEq, Repr

/-- The parking classes (R404); a sequencer's trap cause is the class plus 4. -/
def clsTranslation : Nat := 1
def clsMalformed : Nat := 2
def clsPermission : Nat := 3
def clsPresence : Nat := 4
def clsBounds : Nat := 5
def clsPoison : Nat := 6

/-- A leaf a walk found: the virtual range, the base it maps to, KIND, SA, W (R148). -/
structure Leaf where
  base : Nat
  size : Nat
  phys : Nat
  kind : Nat
  sa : Bool
  w : Bool
  deriving DecidableEq, Repr

/-- What one table entry says (R149): the class of a fault, the next table, or a leaf. -/
inductive EntryRes where
  | fault (cls : Nat)
  | table (a : Nat)
  | leaf (l : Leaf)
  deriving DecidableEq, Repr

/-- An entry met with `n` levels below it (R149). -/
def entryRes (member va n e : Nat) : EntryRes :=
  if e % 2 = 0 then .fault clsTranslation
  else if bits e 63 57 ≠ 0 ∨ bits e 11 6 ≠ 0 then .fault clsMalformed
  else if e / 2 % 2 = 0 then
    if n = 0 ∨ bits e 5 2 ≠ 0 ∨ bits e 56 47 ≠ member then .fault clsMalformed else .table (bits e 46 12 * 4096)
  else
    let sz := 16 + 9 * n
    if 3 ≤ n ∨ bits e 5 4 > 1 ∨ bits e (sz - 1) 12 ≠ 0 then .fault clsMalformed
    else if bits e 5 4 = 0 ∧ bits e 56 47 > 575 then .fault clsMalformed
    else .leaf { base := va - va % 2 ^ sz, size := 2 ^ sz, phys := bits e 56 sz * 2 ^ sz, kind := bits e 5 4,
                 sa := e / 8 % 2 == 1, w := e / 4 % 2 == 1 }

/-- The entry for an address in the table at local address `a`, with `n` levels below it (R149). -/
def tableEntry (m : List Host.Cell) (va n a : Nat) : Nat :=
  leNat (Memory.readAll m (a + 8 * bits va (24 + 9 * n) (16 + 9 * n)) 8)

/-- The walk of R149 from the table at local address `a`, with `n` levels below this one: a leaf, or the class of the
fault. -/
def walk (m : List Host.Cell) (member va : Nat) : Nat → Nat → Except Nat Leaf
  | n, a =>
    match entryRes member va n (tableEntry m va n a), n with
    | .fault c, _ => .error c
    | .leaf l, _ => .ok l
    | .table _, 0 => .error clsMalformed
    | .table b, n' + 1 => walk m member va n' b

/-- The local address at which the management core places page 0 of address space 0 (log entry 5). -/
def as0Base : Nat := 0x5BF0000000

/-- The pages of address space 0 (R122). -/
def as0Leaf (va : Nat) : Except Nat Leaf :=
  if 0x10000 ≤ va ∧ va < 0x20000 ∨ 0x100000 ≤ va ∧ va < 0x200000 then
    .ok { base := va - va % 65536, size := 65536, phys := as0Base + (va - va % 65536), kind := 0, sa := true, w := true }
  else if 0x200000 ≤ va ∧ va < 0x300000 then
    .ok { base := va - va % 65536, size := 65536, phys := as0Base + (va - va % 65536), kind := 0, sa := false, w := true }
  else .error clsTranslation

/-- The walk of an ASID's tables for a virtual address (R148, R149). -/
def State.walkOf (s : State) (asid va : Nat) : Except Nat Leaf :=
  if va / 2 ^ 52 ≠ 0 then .error clsTranslation
  else if asid = 0 then
    match as0Leaf va with
    | .ok l => .ok { l with phys := s.member * 2 ^ 47 + l.phys }
    | .error c => .error c
  else
    match s.aspace? asid with
    | none => .error clsTranslation
    | some a => walk s.mem.hbm s.member va 3 (a.root % 2 ^ 47)

/-- Where an access goes, or how it ends: a parking class (R404), or a PROTECTION fault (R416). -/
inductive Resolve where
  | ok (p : Place) (sa : Bool)
  | fault (cls : Nat)
  | protect
  deriving DecidableEq, Repr

/-- A port. -/
def Disp.port (d : Disp) : PortId → Port
  | .a => d.portA
  | .b => d.portB

/-- The dispatcher with a port written. -/
def Disp.setPort (d : Disp) (p : PortId) (x : Port) : Disp :=
  match p with
  | .a => { d with portA := x }
  | .b => { d with portB := x }

/-- The place an HBM global physical address names. -/
def State.hbmPlace (s : State) (gpa : Nat) : Place :=
  if gpa / 2 ^ 47 = s.member then .hbm (gpa % 2 ^ 47) else .hbm (gpa + 2 ^ 47)

/-- The first local address of a member's save store, which reaches to the end of its HBM (R416). -/
def saveStore : Nat := 0x5C00000000

/-- The host serves an offset of the region it advertises (R340). -/
def Window.serves (w : Window) (off : Nat) : Bool :=
  decide (off < w.size) && !w.refused.any (fun r => decide (r.1 ≤ off) && decide (off < r.1 + r.2))

/-- What an access through a leaf reaches (R149, R150, R339, R340, R416). -/
def State.throughLeaf (s : State) (asid : Nat) (l : Leaf) (va : Nat) (acc : Acc) : Resolve :=
  if acc = .write ∧ l.w = false then .fault clsPermission
  else if acc = .presence ∧ l.sa = false then .fault clsPermission
  else if l.kind = 1 then
    if acc = .presence then .fault clsPermission
    else
      let a := s.aspace? asid
      let port := if s.isKeyed asid then a.bind (fun x => x.session) else a.map (fun x => x.winPort)
      match port with
      | none => .fault clsPermission
      | some q =>
        match (s.disp.port q).window with
        | none => .fault clsTranslation
        | some w => if w.serves (l.phys + va % l.size) then .ok (.host q (l.phys + va % l.size)) false else .fault clsTranslation
  else
    let la := l.phys % 2 ^ 47
    if la < 0x6000000000 ∧ saveStore < la + l.size then .protect
    else
      let gpa := l.phys + va % l.size
      if gpa % 2 ^ 47 > 0x5FFFFFFFFF then .fault clsTranslation
      else if gpa / 2 ^ 47 ≠ s.member ∧ s.reachable (gpa / 2 ^ 47) = false then .fault clsTranslation
      else .ok (s.hbmPlace gpa) l.sa

/-- The cached entry covers an address at the level with `n` levels below it. -/
def Cached.covers (c : Cached) (asid va n : Nat) : Bool :=
  c.asid == asid && c.size == 2 ^ (16 + 9 * n) && c.base == va - va % 2 ^ (16 + 9 * n)

/-- An entry that a walk has read is cached in place of the one cached at its level (R152). -/
def State.cache (s : State) (asid va n e : Nat) : State :=
  { s with ports := { s.ports with tlb := s.ports.tlb.filter (fun c => !c.covers asid va n) ++
      [{ asid := asid, base := va - va % 2 ^ (16 + 9 * n), size := 2 ^ (16 + 9 * n), entry := e }] } }

/-- The entry a walk uses where the tables hold `e` (R152): a cached one that differs is used or not as a free value says
(log entry 7). -/
def State.entryUsed (s : State) (asid va n e : Nat) : State × Nat :=
  match s.ports.tlb.find? (fun c => c.covers asid va n) with
  | none => (s.cache asid va n e, e)
  | some c =>
    if c.entry = e then (s, e)
    else if Config.useCached s.free then (s.nextFree, c.entry)
    else (s.nextFree.cache asid va n e, e)

/-- The walk of R149 with the cached entries of R152. -/
def State.walkCached (s : State) (asid va : Nat) : Nat → Nat → State × Except Nat Leaf
  | n, a =>
    let r := s.entryUsed asid va n (tableEntry s.mem.hbm va n a)
    match entryRes s.member va n r.2, n with
    | .fault c, _ => (r.1, .error c)
    | .leaf l, _ => (r.1, .ok l)
    | .table _, 0 => (r.1, .error clsMalformed)
    | .table b, n' + 1 => State.walkCached r.1 asid va n' b

/-- The leaf a virtual address is translated through, or the class of the fault (R149, R152). -/
def State.leafOf (s : State) (asid va : Nat) : State × Except Nat Leaf :=
  if va / 2 ^ 52 ≠ 0 ∨ asid = 0 then (s, s.walkOf asid va)
  else
    match s.aspace? asid with
    | none => (s, .error clsTranslation)
    | some a => s.walkCached asid va 3 (a.root % 2 ^ 47)

/-- Base and size of the page a virtual address is translated through (R152). -/
def State.pageOf (s : State) (asid va : Nat) : Option (Nat × Nat) :=
  match (s.leafOf asid va).2 with
  | .ok l => some (l.base, l.size)
  | .error _ => none

/-- Translation of a virtual address (R149, R150, R152). -/
def State.translate (s : State) (asid va : Nat) (acc : Acc) : State × Resolve :=
  match s.leafOf asid va with
  | (s1, .error c) => (s1, .fault c)
  | (s1, .ok l) => (s1, s1.throughLeaf asid l va acc)

/-- Translation of the address of a read: one that stands deferred keeps its place (R152, R371). -/
def State.translateRead (s : State) (rd : Reader) (asid va : Nat) (acc : Acc) : State × Resolve :=
  match s.standing rd asid va with
  | some p => (s, .ok p true)
  | none => s.translate asid va acc

/-- island_place (R140): the place of a partition offset, none beyond the partition. -/
def islandPlace (banks : List Nat) (o : Nat) : Option Place :=
  if banks.length * bankBytes ≤ o then none
  else some (.bank (banks.getD (o / 4096 % banks.length) 0) (o / 4096 / banks.length * 4096 + o % 4096))

/-! ## Energy (R460) -/

/-- The charge of one granule moved, in nJ (R460). -/
def Place.charge : Place → Nat
  | .hbm a => if a / 2 ^ 47 = 0 then 2 else 5
  | .bank _ _ => 1
  | .host _ _ => 6
  | _ => 0

/-- A cluster's accumulator counts an energy in nJ, until its completion record is written (R461). -/
def Cluster.paid (k : Cluster) (nanojoules : Nat) : Cluster :=
  if k.abort.any Abort.written then k else { k with energy := k.energy + BitVec.ofNat 64 nanojoules }

/-- An energy in nJ goes to a cluster that stands; what the management core issues goes to none (R460). -/
def State.pay (s : State) (cluster : Option Nat) (nanojoules : Nat) : State :=
  match cluster with
  | none => s
  | some k =>
    match s.cluster? k with
    | none => s
    | some c => s.setCluster k (c.paid nanojoules)

/-- One granule has been moved: its frames on a link (R132), and its charge to a cluster (R460). -/
def State.charge (s : State) (cluster : Option Nat) (p : Place) : State :=
  if p.charge = 0 then s else (s.frames p).pay cluster p.charge

/-! ## The accesses of a core -/

/-- Where a core's access goes, or the trap cause it raises. -/
inductive CoreResolve where
  | ok (p : Place) (sa : Bool)
  | trap (cause : Nat)
  | fatal (cls : Nat)
  deriving DecidableEq, Repr

/-- A core's access to its cluster's partition (R140, R389). -/
def State.partResolve (s : State) (o : Nat) (acc : Acc) : CoreResolve :=
  match (s.coreCluster s.cur).bind s.cluster? with
  | none => .trap causeBounds
  | some k =>
    match islandPlace k.banks o with
    | none => .trap causeBounds
    | some p => if acc = .presence ∧ k.recd.psa = false then .trap causePermission else .ok p k.recd.psa

/-- The management core's access to its SRAM (R158, R389). -/
def sramResolve (a : Nat) (acc : Acc) : CoreResolve :=
  if a ≥ 0x200000 then .trap causeBounds else if acc = .presence then .trap causePermission else .ok (.sram a) false

/-- Directs and translates or bounds-checks a core's access (R159, R140, R149, R158, R389, R416). -/
def State.coreResolve (s : State) (ea : W64) (acc : Acc) : State × CoreResolve :=
  match direct s.cur ea with
  | .part o => (s, s.partResolve o acc)
  | .sram a => (s, sramResolve a acc)
  | .virt va =>
    match s.translateRead (.core s.cur) (s.coreAsid s.cur) va.toNat acc with
    | (s', .ok p sa) => (s', .ok p sa)
    | (s', .fault c) => (s', .trap (c + 4))
    | (s', .protect) => (s', .fatal 0x11)

/-- A fatal fault met by the core's access: its cluster is to be aborted and the core executes no more (R404, R417). -/
def coreFatal (s : State) (cls : Nat) : Out :=
  match s.cur with
  | .mc => .next s
  | .seq r =>
    let s1 := s.setMe { s.me with run := .stopped }
    .next (match s.clusterOf r with
      | none => s1
      | some k => s1.fatalFault k cls r 0x1FF)

/-- The SPACE code of TINFO for the core's access (R183). -/
def State.spaceOf (s : State) (ea : W64) : Nat := (direct s.cur ea).space

/-- An access of the core that an uncorrectable error meets is a fatal fault of its cluster (R179); the management core
has no cluster (log entry 13). -/
def State.coreEcc (s : State) (p : Place) : Bool := s.eccAt p && !coreIsMc s.cur

/-- The virtual address an effective address names, if any. -/
def virtOf (c : CoreId) (ea : W64) : Option Nat :=
  match direct c ea with
  | .virt va => some va.toNat
  | _ => none

/-- A load of the core (R179, R180, R385): the checks in their order, then the bytes go to `k`. -/
def coreLoad (s : State) (i : Instr) (ea : W64) (n : Nat) (acc : Acc) (pres : Bool) (k : List Byte → Core → Core) : Out :=
  let info (g : Nat) : W64 := tinfo 0 g (s.spaceOf ea) pres false (lgw n)
  if !aligned ea n then trap s i causeMisaligned ea (info 0)
  else
    match s.coreResolve ea acc with
    | (s1, .trap c) => trap s1 i c ea (info 0)
    | (s1, .fatal c) => coreFatal s1 c
    | (s1, .ok p sa) =>
      if s1.coreEcc p then coreFatal s1 0x10
      else
        match s1.loadAt (.core s.cur) (s.coreAsid s.cur) p sa n (virtOf s.cur ea) with
        | (s2, .wait) => .next s2
        | (s2, .void) => trap s2 i causePresence ea (info 2)
        | (s2, .ok bs) => done (s2.charge (s.coreCluster s.cur) p) (k bs)

/-- A store of the core (R179, R180, R385). -/
def coreStore (s : State) (i : Instr) (ea : W64) (bs : List Byte) : Out :=
  let n := bs.length
  let info (g : Nat) : W64 := tinfo 0 g (s.spaceOf ea) false true (lgw n)
  if !aligned ea n then trap s i causeMisaligned ea (info 0)
  else
    match s.coreResolve ea .write with
    | (s1, .trap c) => trap s1 i c ea (info 0)
    | (s1, .fatal c) => coreFatal s1 c
    | (s1, .ok p sa) =>
      if s1.coreEcc p then coreFatal s1 0x10
      else
        match s1.storeAt (s.coreAsid s.cur) p sa bs false with
        | .presence g => trap s1 i causePresence ea (info g.code)
        | .ok s2 => done (s2.charge (s.coreCluster s.cur) p) id

/-- What a core's read of several granules gives. -/
inductive BulkRes where
  | ok (bs : List Byte)
  | wait
  | trap (cause addr gstate : Nat)
  | fatal (cls : Nat)
  deriving DecidableEq, Repr

/-- Reads whole granules from an aligned address on, as LD reads each (R117, R342, R194): `g` granules. Reads already
served for this instruction are kept until it ends. -/
def State.bulkLoad (s : State) (ea : W64) : Nat → List Byte → State × BulkRes
  | 0, acc => (s, .ok acc)
  | g + 1, acc =>
    match s.coreResolve ea .read with
    | (s1, .trap c) => (s1, .trap c ea.toNat 0)
    | (s1, .fatal c) => (s1, .fatal c)
    | (s1, .ok p sa) =>
      if s1.coreEcc p then (s1, .fatal 0x10)
      else
        match s1.loadAt (.core s.cur) (s.coreAsid s.cur) p sa 64 (virtOf s.cur ea) with
        | (s2, .wait) => (s2, .wait)
        | (s2, .void) => (s2, .trap causePresence ea.toNat 2)
        | (s2, .ok bs) => State.bulkLoad (s2.charge (s.coreCluster s.cur) p) (ea + 64#64) g (acc ++ bs)

/-! ## The accesses of the other agents of a cluster -/

/-- Where an access of an agent of a region goes (R140, R149, R289, R309): a virtual address through the cluster's ASID, a
partition offset, or an offset in a tile store. A read of `rd` that stands deferred keeps its place. -/
def State.resolveIn (s : State) (k : Cluster) (region : Nat) (sp : Space) (a : Nat) (acc : Acc)
    (rd : Option Reader := none) : State × Resolve :=
  match sp with
  | .virt =>
    match rd with
    | some rd => s.translateRead rd k.asid (a % 2 ^ 64) acc
    | none => s.translate k.asid (a % 2 ^ 64) acc
  | .island =>
    (s, match islandPlace k.banks a with
      | none => .fault clsBounds
      | some p => if acc = .presence ∧ k.recd.psa = false then .fault clsPermission else .ok p k.recd.psa)
  | .tile t =>
    (s, if tileBytes ≤ a then .fault clsBounds else if acc = .presence then .fault clsPermission
        else .ok (.tile region t a) false)

/-- The virtual address that an address in a space is, if any. -/
def Space.virt? (sp : Space) (a : Nat) : Option Nat :=
  match sp with
  | .virt => some (a % 2 ^ 64)
  | _ => none

/-- The read a deferred load of an element has posted. -/
def Access.reader (a : Access) : Reader := .elem a.region a.site a.id

/-- A multi-granule read that waits is begun again: what it moved is charged when it is complete (R460). -/
def State.uncharged (s1 s : State) : State := { s1 with disp := s.disp }

/-- What a read of several granules gives: the bytes, a wait on an EMPTY granule, a parking class with the
address that met it, or a fatal class. -/
inductive ReadRes where
  | ok (bs : List Byte)
  | wait
  | fault (cls addr : Nat)
  | fatal (cls : Nat)
  deriving DecidableEq, Repr

/-- Reads whole granules in a space of a cluster, presence observed as LD observes it (R180, R194, R321). -/
def State.readGranules (s : State) (rd : Reader) (kn : Nat) (k : Cluster) (region : Nat) (sp : Space) :
    Nat → Nat → List Byte → State × ReadRes
  | 0, _, acc => (s, .ok acc)
  | n + 1, a, acc =>
    match s.resolveIn k region sp a .read (some rd) with
    | (s1, .fault c) => (s1, .fault c a)
    | (s1, .protect) => (s1, .fatal 0x11)
    | (s1, .ok p sa) =>
      if s1.eccAt p then (s1, .fatal 0x10)
      else
        match s1.loadAt rd k.asid p sa 64 (sp.virt? a) with
        | (s2, .wait) => (s2, .wait)
        | (s2, .void) => (s2, .fault clsPresence a)
        | (s2, .ok bs) => State.readGranules (s2.charge (some kn) p) rd kn k region sp n (a + 64) (acc ++ bs)

/-- Reads `n` bytes from any address on. -/
def State.readRange (s : State) (rd : Reader) (kn : Nat) (k : Cluster) (region : Nat) (sp : Space) (a n : Nat) :
    State × ReadRes :=
  match s.readGranules rd kn k region sp ((a % 64 + n + 63) / 64) (a - a % 64) [] with
  | (s1, .ok bs) => (s1, .ok (slice bs (a % 64) n))
  | r => r

end Sys2Proof.Machine
end

