-- ==== Sys2Proof/Machine/Num.lean ====
section
/-! DEFINITION. Numbers on the arcs (chapter 02): the arc types, exact values, the one rounding of R46 with its overflow of
R47 and its LFSR of R49, and conversions (R51 to R53). -/

namespace Sys2Proof.Machine

/-! ## Types (R33) -/

/-- Arc type codes (R33). -/
def tyBits : Nat := 0
def tyFp32 : Nat := 1
def tyBf16 : Nat := 2
def tyFp16 : Nat := 3
def tyFp8e4 : Nat := 4
def tyFp8e5 : Nat := 5
def tyFp4 : Nat := 8
def tyMxfp4 : Nat := 13
def tyI32 : Nat := 14
def tyI8 : Nat := 15
def tyI4 : Nat := 16
def tyN32 : Nat := 17
def tyN8 : Nat := 18

/-- Lane width of a type (R33); BITS is read by lanes of 32 bits (R241). -/
def laneWidth : Nat → Nat
  | 2 => 16 | 3 => 16 | 4 => 8 | 5 => 8 | 6 => 6 | 7 => 6 | 8 => 4 | 9 => 8 | 10 => 8 | 11 => 6 | 12 => 6 | 13 => 4
  | 15 => 8 | 16 => 4 | 18 => 8 | _ => 32

/-- Lanes per beat of a type (R33). -/
def laneCount : Nat → Nat
  | 2 => 32 | 3 => 32 | 4 => 64 | 5 => 64 | 6 => 64 | 7 => 64 | 8 => 128 | 9 => 64 | 10 => 64 | 11 => 64 | 12 => 64
  | 13 => 128 | 15 => 64 | 16 => 128 | 18 => 64 | _ => 16

/-- The classes of R239. -/
def inF (t : Nat) : Bool := decide (1 ≤ t ∧ t ≤ 5)
def inW (t : Nat) : Bool := decide (1 ≤ t ∧ t ≤ 3)
def inN (t : Nat) : Bool := decide (6 ≤ t ∧ t ≤ 8)
def inI (t : Nat) : Bool := decide (14 ≤ t ∧ t ≤ 18)
def inX (t : Nat) : Bool := decide (9 ≤ t ∧ t ≤ 13)

/-- The element format of an MX type (R33, R39). -/
def elementType (t : Nat) : Nat := if inX t then t - 5 else t

/-- Element beats of an MX group (R40). -/
def groupBeats (t : Nat) : Nat := if t = 13 then 16 else 32

/-- The type is signed (R38). -/
def isSigned (t : Nat) : Bool := t == 14 || t == 15 || t == 16

/-- How a floating-point format ends its range (R35): with infinities, with the one NaN of FP8E4, or with neither. -/
inductive Top where
  | ieee | nanOnly | none
  deriving DecidableEq, Repr

/-- A floating-point format (R35). -/
structure Fmt where
  width : Nat
  m : Nat
  bias : Nat
  top : Top
  deriving DecidableEq, Repr

/-- The format of a floating-point type (R35). -/
def fmtOf : Nat → Fmt
  | 2 => ⟨16, 7, 127, .ieee⟩
  | 3 => ⟨16, 10, 15, .ieee⟩
  | 4 => ⟨8, 3, 7, .nanOnly⟩
  | 5 => ⟨8, 2, 15, .ieee⟩
  | 6 => ⟨6, 2, 3, .none⟩
  | 7 => ⟨6, 3, 1, .none⟩
  | 8 => ⟨4, 1, 1, .none⟩
  | _ => ⟨32, 23, 127, .ieee⟩

/-- Exponent bits. -/
def Fmt.expBits (f : Fmt) : Nat := f.width - 1 - f.m

/-- The largest exponent field. -/
def Fmt.expMax (f : Fmt) : Nat := 2 ^ f.expBits - 1

/-- emin of R46: the exponent of the smallest normal. -/
def Fmt.emin (f : Fmt) : Int := 1 - f.bias

/-- The largest finite magnitude as an integer times 2 to a power (R35). -/
def Fmt.maxFinite (f : Fmt) : Nat × Int :=
  match f.top with
  | .ieee => (2 ^ (f.m + 1) - 1, (f.expMax - 1 : Nat) - f.bias - f.m)
  | .nanOnly => (2 ^ (f.m + 1) - 2, (f.expMax : Nat) - f.bias - f.m)
  | .none => (2 ^ (f.m + 1) - 1, (f.expMax : Nat) - f.bias - f.m)

/-- The pattern of the largest finite value of a sign. -/
def Fmt.maxPattern (f : Fmt) (neg : Bool) : Nat :=
  (if neg then 2 ^ (f.width - 1) else 0) +
    match f.top with
    | .ieee => (f.expMax - 1) * 2 ^ f.m + (2 ^ f.m - 1)
    | .nanOnly => f.expMax * 2 ^ f.m + (2 ^ f.m - 2)
    | .none => f.expMax * 2 ^ f.m + (2 ^ f.m - 1)

/-- The pattern of an infinity, in a format that has them. -/
def Fmt.infPattern (f : Fmt) (neg : Bool) : Nat := (if neg then 2 ^ (f.width - 1) else 0) + f.expMax * 2 ^ f.m

/-- The canonical NaN (R37). -/
def Fmt.nanPattern (f : Fmt) : Nat :=
  match f.top with
  | .ieee => f.expMax * 2 ^ f.m + 2 ^ (f.m - 1)
  | .nanOnly => 2 ^ (f.width - 1) - 1
  | .none => 0

/-! ## Exact values -/

/-- An exact value: NaN, an infinity, or (−1)^neg × (m + d) × 2^e, where d is 0, or lies strictly between 0 and 1 when
`sticky` says the value is not the dyadic number itself. -/
inductive Val where
  | nan
  | inf (neg : Bool)
  | fin (neg : Bool) (m : Nat) (e : Int) (sticky : Bool)
  deriving DecidableEq, Repr

/-- Zero of a sign. -/
def Val.zero (neg : Bool) : Val := .fin neg 0 0 false

/-- An integer. -/
def Val.ofInt (x : Int) : Val := .fin (decide (x < 0)) x.natAbs 0 false

/-- The value is NaN. -/
def Val.isNan : Val → Bool
  | .nan => true
  | _ => false

/-- The value is zero. -/
def Val.isZero : Val → Bool
  | .fin _ 0 _ false => true
  | _ => false

/-- The value's sign. -/
def Val.neg? : Val → Bool
  | .nan => false
  | .inf n => n
  | .fin n _ _ _ => n

/-- −v (R245). -/
def Val.negate : Val → Val
  | .nan => .nan
  | .inf n => .inf (!n)
  | .fin n m e s => .fin (!n) m e s

/-- |v| (R245). -/
def Val.abs : Val → Val
  | .nan => .nan
  | .inf _ => .inf false
  | .fin _ m e s => .fin false m e s

/-- A finite dyadic value times 2^k (R250). -/
def Val.scaleBy (v : Val) (k : Int) : Val :=
  match v with
  | .fin n 0 e s => .fin n 0 e s
  | .fin n m e s => .fin n m (e + k) s
  | w => w

/-- The signed mantissa of a finite value at exponent `e0`, no larger than its own. -/
def signedAt (neg : Bool) (m : Nat) (e e0 : Int) : Int :=
  let x : Int := (m * 2 ^ (e - e0).toNat : Nat)
  if neg then -x else x

/-- a + b, exact; the sign of an exact zero is IEEE 754's under the rounding mode (R244, R46). -/
def Val.add (rm : Nat) (a b : Val) : Val :=
  match a, b with
  | .nan, _ => .nan
  | _, .nan => .nan
  | .inf x, .inf y => if x = y then .inf x else .nan
  | .inf x, _ => .inf x
  | _, .inf y => .inf y
  | .fin n1 m1 e1 _, .fin n2 m2 e2 _ =>
    if m1 = 0 ∧ m2 = 0 then .zero (if n1 = n2 then n1 else rm == 3)
    else if m1 = 0 then b
    else if m2 = 0 then a
    else
      let e := min e1 e2
      let t := signedAt n1 m1 e1 e + signedAt n2 m2 e2 e
      if t = 0 then .zero (rm == 3) else .fin (decide (t < 0)) t.natAbs e false

/-- a × b, exact (R244). -/
def Val.mul (a b : Val) : Val :=
  match a, b with
  | .nan, _ => .nan
  | _, .nan => .nan
  | .inf x, .inf y => .inf (x != y)
  | .inf x, .fin n m _ _ => if m = 0 then .nan else .inf (x != n)
  | .fin n m _ _, .inf y => if m = 0 then .nan else .inf (n != y)
  | .fin n1 m1 e1 _, .fin n2 m2 e2 _ => .fin (n1 != n2) (m1 * m2) (e1 + e2) false

/-- a < b on values that are not NaN; −0 and +0 are equal (R246). -/
def Val.lt (a b : Val) : Bool :=
  match a, b with
  | .nan, _ => false
  | _, .nan => false
  | .inf x, .inf y => x && !y
  | .inf x, _ => x
  | _, .inf y => !y
  | .fin n1 m1 e1 _, .fin n2 m2 e2 _ =>
    let e := min e1 e2
    decide (signedAt n1 m1 e1 e < signedAt n2 m2 e2 e)

/-- The smaller, with −0 below +0 (R245). -/
def Val.min2 (a b : Val) : Val :=
  if a.isNan || b.isNan then .nan
  else if a.isZero && b.isZero then .zero (a.neg? || b.neg?)
  else if b.lt a then b else a

/-- The larger, with +0 above −0 (R245). -/
def Val.max2 (a b : Val) : Val :=
  if a.isNan || b.isNan then .nan
  else if a.isZero && b.isZero then .zero (a.neg? && b.neg?)
  else if a.lt b then b else a

/-! ## Reading patterns -/

/-- The value of a floating-point pattern (R36, R37), with subnormals read as zero when `fzi` (R43). -/
def Fmt.value (f : Fmt) (fzi : Bool) (x : Nat) : Val :=
  let neg := x / 2 ^ (f.width - 1) % 2 == 1
  let e := x / 2 ^ f.m % 2 ^ f.expBits
  let mant := x % 2 ^ f.m
  if e = f.expMax ∧ f.top = .ieee then (if mant = 0 then .inf neg else .nan)
  else if e = f.expMax ∧ f.top = .nanOnly ∧ mant = 2 ^ f.m - 1 then .nan
  else if e = 0 then .fin neg (if fzi then 0 else mant) (f.emin - f.m) false
  else .fin neg (2 ^ f.m + mant) ((e : Int) - f.bias - f.m) false

/-- The value of a lane pattern of a type: FZI acts on class W alone (R38, R44). -/
def laneValue (t : Nat) (fzi : Bool) (x : Nat) : Val :=
  if inI t then Val.ofInt (if isSigned t then signed x (laneWidth t) else ((x % 2 ^ laneWidth t : Nat) : Int))
  else (fmtOf t).value (fzi && inW t) (x % 2 ^ laneWidth t)

/-- Lane `i` of a beat under a lane width (R3). -/
def laneAt (b : Beat) (w i : Nat) : Nat := b.toNat / 2 ^ (w * i) % 2 ^ w

/-- The lane patterns of a beat of a type. -/
def lanesOf (t : Nat) (b : Beat) : List Nat := (List.range (laneCount t)).map (fun i => laneAt b (laneWidth t) i)

/-- A beat from lane patterns of a width, lane 0 first; bits past the lanes are zero (R34). -/
def packLanes (w : Nat) (l : List Nat) : Beat :=
  BitVec.ofNat 512 (l.foldr (fun x acc => x % 2 ^ w + 2 ^ w * acc) 0)

/-! ## Rounding (R46, R47, R49) -/

/-- The LFSR (R49). -/
def lfsrStep (l : W32) : W32 := if l.getLsbD 0 then (l >>> 1) ^^^ 0x80200003#32 else l >>> 1

/-- The LFSR as a seed and a copy load it (R50). -/
def lfsrLoad (seed : W32) (copy : Nat) : W32 :=
  let l := seed ^^^ BitVec.ofNat 32 copy
  if l = 0#32 then 1#32 else l

/-- The rounding in force: 0 RNE, 1 RTZ, 2 RUP, 3 RDN, 4 SR (R43, R45). -/
def rmOf (mode : Byte) (ro : Nat) : Nat := if ro = 0 then mode.toNat % 8 else ro - 1

/-- FZI and FZO of a mode word (R43). -/
def fziOf (mode : Byte) : Bool := mode.getLsbD 4
def fzoOf (mode : Byte) : Bool := mode.getLsbD 3

/-- The magnitude (m + d) × 2^e divided by q = 2^qe, as the integer part, the remainder in units of 2^−s of q, and s. -/
def splitAt (m : Nat) (e qe : Int) : Nat × Nat × Nat :=
  if qe ≤ e then (m * 2 ^ (e - qe).toNat, 0, 0) else (m / 2 ^ (qe - e).toNat, m % 2 ^ (qe - e).toNat, (qe - e).toNat)

/-- Does the magnitude round away from zero? `a` is the integer part, `rem` / 2^s the fraction, `l` the LFSR as stepped. -/
def roundsAway (rm : Nat) (l : W32) (neg : Bool) (a rem s : Nat) (sticky : Bool) : Bool :=
  if rem = 0 ∧ sticky = false then false
  else
    match rm with
    | 1 => false
    | 2 => !neg
    | 3 => neg
    | 4 => decide (2 ^ 32 ≤ rem * 2 ^ 32 / 2 ^ s + l.toNat)
    | _ => decide (2 ^ s < 2 * rem) || (decide (2 * rem = 2 ^ s) && (sticky || a % 2 == 1))

/-- The result of an overflow (R47). -/
def overflowPattern (f : Fmt) (rm : Nat) (sat neg : Bool) : Nat :=
  let toMax := sat || (match rm with
    | 1 => true
    | 2 => neg
    | 3 => !neg
    | _ => false)
  match f.top with
  | .none => f.maxPattern neg
  | .ieee => if toMax then f.maxPattern neg else f.infPattern neg
  | .nanOnly => if toMax then f.maxPattern neg else f.nanPattern

/-- The pattern of k × 2^qe for a k that the format holds at that spacing. -/
def finitePattern (f : Fmt) (neg : Bool) (k : Nat) (qe : Int) : Nat :=
  let sgn := if neg then 2 ^ (f.width - 1) else 0
  if k < 2 ^ f.m then sgn + k
  else
    let k' := if k = 2 ^ (f.m + 1) then 2 ^ f.m else k
    let qe' := if k = 2 ^ (f.m + 1) then qe + 1 else qe
    sgn + (qe' + f.m + f.bias).toNat * 2 ^ f.m + (k' - 2 ^ f.m)

/-- floor(log2 m) + e. -/
def floorLog (m : Nat) (e : Int) : Int := (m.log2 : Int) + e

/-- round(v, F, rm) of R46 for a finite v, with the LFSR as stepped at entry: the pattern and whether it overflowed (R47).
`fzo` replaces a subnormal result by zero of its sign (R43). -/
def roundFinite (f : Fmt) (rm : Nat) (sat fzo : Bool) (l : W32) (neg : Bool) (m : Nat) (e : Int) (sticky : Bool) :
    Nat × Bool :=
  if m = 0 ∧ sticky = false then (finitePattern f neg 0 0, false)
  else
    let qe := max (floorLog m e) f.emin - f.m
    let (a, rem, s) := splitAt m e qe
    let k := if roundsAway rm l neg a rem s sticky then a + 1 else a
    let (mx, me) := f.maxFinite
    let o := min qe me
    if mx * 2 ^ (me - o).toNat < k * 2 ^ (qe - o).toNat then (overflowPattern f rm sat neg, true)
    else if fzo && decide (k < 2 ^ f.m) then (finitePattern f neg 0 0, false)
    else (finitePattern f neg k qe, false)

/-- What a lane's writing gives: the pattern, the events, the LFSR afterwards. -/
structure LaneOut where
  bits : Nat
  ev : Ev
  lfsr : W32
  deriving DecidableEq, Repr

/-- The LFSR after one rounding (R49). -/
def lfsrAfter (rm : Nat) (l : W32) : W32 := if rm = 4 then lfsrStep l else l

/-- One rounding of a finite value to a floating-point type, stepping the LFSR under SR (R46, R49). An overflow raises the
overflow event alone, also where it gives FP8E4's NaN: that it is no invalid event beside it is the model's choice (R47, R48;
log entry 49). -/
def roundLane (t rm : Nat) (sat fzo : Bool) (l : W32) (neg : Bool) (m : Nat) (e : Int) (sticky : Bool) : LaneOut :=
  let l' := lfsrAfter rm l
  let (p, o) := roundFinite (fmtOf t) rm sat (fzo && inW t) l' neg m e sticky
  { bits := p, ev := { invalid := false, overflow := o }, lfsr := l' }

/-- A finite value rounded to an integer, stepping the LFSR under SR (R46 with q = 1). -/
def roundInteger (rm : Nat) (l : W32) (neg : Bool) (m : Nat) (e : Int) (sticky : Bool) : Int × W32 :=
  let l' := lfsrAfter rm l
  let (a, rem, s) := splitAt m e 0
  let k := if roundsAway rm l' neg a rem s sticky then a + 1 else a
  (if neg then -(k : Int) else k, l')

/-- The range of an integer type (R38). -/
def intRange (t : Nat) : Int × Int :=
  let w := laneWidth t
  if isSigned t then (-(2 ^ (w - 1) : Nat), (2 ^ (w - 1) : Nat) - 1) else (0, (2 ^ w : Nat) - 1)

/-- An exact integer written to an integer type (R38). -/
def intLane (t : Nat) (sat : Bool) (v : Int) (l : W32) : LaneOut :=
  let (lo, hi) := intRange t
  if lo ≤ v ∧ v ≤ hi then { bits := wrapTo v (laneWidth t), ev := Ev.none, lfsr := l }
  else
    { bits := wrapTo (if sat then (if v < lo then lo else hi) else v) (laneWidth t), ev := Ev.ovf, lfsr := l }

/-- An infinity written to a floating-point type as it stands (R243). -/
def infLane (t : Nat) (neg : Bool) (l : W32) : LaneOut := { bits := (fmtOf t).infPattern neg, ev := Ev.none, lfsr := l }

/-- An infinity converted to a floating-point type (R52). -/
def infConvert (t : Nat) (sat neg : Bool) (l : W32) : LaneOut :=
  let f := fmtOf t
  match f.top with
  | .ieee => if sat then { bits := f.maxPattern neg, ev := Ev.ovf, lfsr := l } else infLane t neg l
  | .nanOnly => { bits := if sat then f.maxPattern neg else f.nanPattern, ev := Ev.ovf, lfsr := l }
  | .none => { bits := f.maxPattern neg, ev := Ev.ovf, lfsr := l }

/-- The integer of a value without fraction. -/
def Val.toInt : Val → Int
  | .fin n m e _ => signedAt n (splitAt m e 0).1 0 0
  | _ => 0

/-- The conversion of one lane (R51, R52, R53): `src` an integer type or a floating-point one. -/
def convertLane (src dst rm : Nat) (sat fzo : Bool) (l : W32) (v : Val) : LaneOut :=
  if inI dst then
    match v with
    | .nan => { bits := 0, ev := Ev.inv, lfsr := l }
    | .inf n =>
      let (lo, hi) := intRange dst
      { bits := wrapTo (if n then lo else hi) (laneWidth dst), ev := Ev.ovf, lfsr := l }
    | .fin n m e s =>
      if inI src then intLane dst sat v.toInt l
      else
        let (k, l') := roundInteger rm l n m e s
        intLane dst true k l'
  else
    match v with
    | .nan =>
      let f := fmtOf dst
      { bits := f.nanPattern, ev := if f.top = .none then Ev.inv else Ev.none, lfsr := l }
    | .inf n => infConvert dst sat n l
    | .fin n m e s => roundLane dst rm sat fzo l n m e s

/-- An arithmetic result written to a lane (R243): NaN canonical, with the invalid event unless an operand was NaN; an
integer wrapped or saturated; an infinity as it stands; a finite value rounded once. -/
def numericLane (t rm : Nat) (sat fzo : Bool) (operandNan : Bool) (l : W32) (v : Val) : LaneOut :=
  match v with
  | .nan => { bits := (fmtOf t).nanPattern, ev := if operandNan then Ev.none else Ev.inv, lfsr := l }
  | .inf n => infLane t n l
  | .fin n m e s => if inI t then intLane t sat v.toInt l else roundLane t rm sat fzo l n m e s

/-- An exact value of a type written without a rounding (R245): FZO acts on class W. -/
def exactLane (t : Nat) (sat fzo : Bool) (l : W32) (v : Val) : LaneOut :=
  match v with
  | .nan => { bits := (fmtOf t).nanPattern, ev := Ev.none, lfsr := l }
  | .inf n => infLane t n l
  | .fin n m e s =>
    if inI t then intLane t sat v.toInt l
    else { bits := (roundFinite (fmtOf t) 1 sat (fzo && inW t) l n m e s).1, ev := Ev.none, lfsr := l }

/-- Lane results in ascending order, with the LFSR passed on and the events gathered (R49). -/
def eachLane (l : W32) (f : W32 → Nat → LaneOut) : List Nat → List Nat × Ev × W32
  | [] => ([], Ev.none, l)
  | i :: is =>
    let o := f l i
    let (r, ev, l') := eachLane o.lfsr f is
    (o.bits :: r, o.ev.or ev, l')

/-- An FP32 sum under RNE (R254): the value and whether it overflowed or was invalid. -/
def add32 (p q : Val) : Val × Ev :=
  match p.add 0 q with
  | .nan => (.nan, if p.isNan || q.isNan then Ev.none else Ev.inv)
  | .inf n => (.inf n, Ev.none)
  | .fin n m e s =>
    let o := roundLane tyFp32 0 false false 0#32 n m e s
    ((fmtOf tyFp32).value false o.bits, o.ev)

/-! ## MX blocks (R39, R42) -/

/-- The value of an E8M0 scale times an element (R39). -/
def mxValue (elem : Nat) (scale : Byte) (x : Nat) : Val :=
  if scale = 0xFF#8 then .nan else (laneValue elem false x).scaleBy ((scale.toNat : Int) - 127)

/-- emax of an element format (R42). -/
def emaxOf : Nat → Int
  | 4 => 8 | 5 => 15 | 6 => 4 | _ => 2

/-- The finite value's mantissa and exponent. -/
def Val.parts : Val → Nat × Int
  | .fin _ m e _ => (m, e)
  | _ => (0, 0)

/-- floor(log2 |v|) of the largest of a list of finite values, none when all are zero. -/
def maxLog : List Val → Option Int
  | [] => none
  | v :: vs =>
    let (m, e) := v.parts
    match maxLog vs with
    | none => if m = 0 then none else some (floorLog m e)
    | some x => if m = 0 then some x else some (max x (floorLog m e))

/-- The scale exponent X of R42 for values none of which is NaN or infinite. -/
def mxExponent (elem : Nat) (vs : List Val) : Int :=
  match maxLog vs with
  | none => 0
  | some x => max (-127) (min 127 (x - emaxOf elem))

/-- The block holds a NaN or an infinity (R42). -/
def blockBad (vs : List Val) : Bool := vs.any (fun v => match v with
  | .fin _ _ _ _ => false
  | _ => true)

/-- The scale byte of a block (R42). -/
def mxScale (elem : Nat) (vs : List Val) : Byte :=
  if blockBad vs then 0xFF#8 else BitVec.ofNat 8 (mxExponent elem vs + 127).toNat

/-- One element of a block (R42): rounded and always saturated, with no event. -/
def mxElement (elem rm : Nat) (bad : Bool) (x : Int) (l : W32) (v : Val) : LaneOut :=
  if bad then { bits := 0, ev := Ev.none, lfsr := l }
  else
    match v.scaleBy (-x) with
    | .fin n m e s => { roundLane elem rm true false l n m e s with ev := Ev.none }
    | _ => { bits := 0, ev := Ev.none, lfsr := l }

/-! ## What an element writes (R34, R37) -/

/-- A floating-point lane pattern, or an element of an MX type, with a NaN made canonical (R37, R242). -/
def canonLane (ty x : Nat) : Nat :=
  let e := elementType ty
  if inF e && (laneValue e false x).isNan then (fmtOf e).nanPattern else x

/-- A beat of a type with every NaN lane canonical and unused bits zero (R34, R37, R242). -/
def canonBeat (ty : Nat) (b : Beat) : Beat := packLanes (laneWidth ty) ((lanesOf ty b).map (canonLane ty))

/-- A payload as an element writes it on an arc of a type (R34, R37): canonical NaN in every floating-point lane and MX element,
and zero in the bits that the type leaves unused; a scale beat of an MX type has neither (R40). -/
def outBeat (ty : Nat) (scale : Bool) (b : Beat) : Beat :=
  if !(inX ty && scale) && (inF (elementType ty) || laneWidth ty == 6) then canonBeat ty b else b

/-- A payload of an arc of a type as an element writes it to memory: every NaN is canonical (R37), and a scale beat of an MX type
has none (R40). -/
def memBeat (ty : Nat) (scale : Bool) (b : Beat) : Beat :=
  if !(inX ty && scale) && inF (elementType ty) then canonBeat ty b else b

end Sys2Proof.Machine
end

