-- ==== Sys2Proof/Machine/Loader.lean ====
section
/-! DEFINITION. The loader (R69 to R86): decoding a configuration image word by word, the maps of operations with their
ports and fields, and the first pass of checks, in which a word fails by its own fields. -/

namespace Sys2Proof.Machine

/-! ## Sites (R14 to R17) -/

/-- The element kinds (R16). -/
inductive EKind where
  | mx | sq | ve | ag | hd | ow | br
  deriving DecidableEq, Repr

/-- The tile of a site (R14). -/
def siteTile (s : Nat) : Nat := s / 8

/-- A tile is a compute tile (R15). -/
def computeTile (t : Nat) : Bool := (t % 8 + t / 8) % 2 == 0

/-- The kind of element at a site (R16). -/
def siteKind (s : Nat) : EKind :=
  if computeTile (siteTile s) then
    match s % 8 with
    | 0 => .mx | 1 => .sq | _ => .ve
  else
    match s % 8 with
    | 5 => .hd | 6 => .ow | 7 => .br | _ => .ag

/-- The voltage quadrant of a tile (R17). -/
def tileQuadrant (t : Nat) : Nat := t / 8 / 4 * 2 + t % 8 / 4

/-- A tile moved by an offset, if it stays in tiles 0 to 7 of both axes (R144). -/
def shiftTile (dx dy : Int) (t : Nat) : Option Nat :=
  let x : Int := (t % 8 : Nat) + dx
  let y : Int := (t / 8 : Nat) + dy
  if 0 ≤ x ∧ x < 8 ∧ 0 ≤ y ∧ y < 8 ∧ t < 64 then some (y * 8 + x).toNat else none

/-- A site moved by an offset (R144). -/
def shiftSite (dx dy : Int) (s : Nat) : Option Nat := (shiftTile dx dy (siteTile s)).map (fun t => t * 8 + s % 8)

/-- The sites of a kind, ascending. -/
def sitesOf (k : EKind) : List Nat := (List.range 512).filter (fun s => siteKind s == k)

/-- The sites of the n copies of an operation at a site, as many as remain (R228). -/
def copySites (site n : Nat) : List Nat :=
  ((List.range 512).filter (fun s => decide (site ≤ s) && siteKind s == siteKind site)).take n

/-! ## Rejections (R85) -/

/-- What CFG_REJECT reports (R85). -/
structure Reject where
  site : Nat
  widx : Nat
  code : Nat
  deriving DecidableEq, Repr

/-- CFG_REJECT (R85). -/
def Reject.word (r : Reject) : W64 := BitVec.ofNat 64 (r.code + 2 ^ 16 * r.widx + 2 ^ 48 * r.site)

/-- The site field when no single element is concerned (R85). -/
def noSite : Nat := 0x1FF

/-- The failure with the lowest WIDX (R86); of two at one word, the first listed. -/
def firstReject : List Reject → Option Reject
  | [] => none
  | r :: rs =>
    match firstReject rs with
    | none => some r
    | some q => if q.widx < r.widx then some q else some r

/-! ## Operations and their fields (R71 to R76, R231, R239, R264, R276, R296, R315, R331, R353, R393) -/

/-- What the maps and port lists say of an operation word: its NX, whether RO, SAT and PV are permitted, and whether the
word's MOD, IN, output counts and REPM are among those the operation allows. -/
structure OpSpec where
  nx : Nat
  ro : Bool
  sat : Bool
  pv : Bool
  md : Bool
  ports : Bool
  rep : Bool
  deriving DecidableEq, Repr

/-- The fields of an operation word that a map entry judges. -/
structure OpFields where
  opc : Nat
  md : Nat
  ins : Nat
  oc0 : Nat
  oc1 : Nat
  repm : Nat
  deriving DecidableEq, Repr

/-- One or two arcs. -/
def driven (oc : Nat) : Bool := oc == 1 || oc == 2

/-- An entry whose operation takes no rounding field, no MOD, any REPM. -/
def plainSpec (nx : Nat) (ports : Bool) (f : OpFields) : OpSpec :=
  { nx := nx, ro := false, sat := false, pv := false, md := f.md == 0, ports := ports, rep := true }

/-- The same, for an operation that keeps state across firings: REPM = 0. -/
def soloSpec (nx : Nat) (ports : Bool) (f : OpFields) : OpSpec := { plainSpec nx ports f with rep := f.repm == 0 }

/-- An entry that permits RO, SAT and PV. -/
def roundSpec (nx : Nat) (ports : Bool) (f : OpFields) : OpSpec :=
  { plainSpec nx ports f with ro := true, sat := true, pv := true }

/-- The ports of a lane-wise operation: the inputs given, output 0. -/
def lanePorts (f : OpFields) (ins : Nat) : Bool := f.ins == ins && driven f.oc0 && f.oc1 == 0

/-- The vector element's operations (R73, R231, R239). -/
def veSpec (f : OpFields) : Option OpSpec :=
  match f.opc with
  | 0x01 | 0x02 | 0x03 => some (roundSpec 0 (lanePorts f 3) f)
  | 0x04 | 0x05 => some (roundSpec 0 (lanePorts f 7) f)
  | 0x06 | 0x07 => some { roundSpec 0 (lanePorts f 1) f with ro := false }
  | 0x08 | 0x09 => some (plainSpec 0 (lanePorts f 3) f)
  | 0x0A => some (plainSpec 0 (lanePorts f 7) f)
  | 0x0B => some (plainSpec 1 (lanePorts f 3) f)
  | 0x0C => some (soloSpec 0 (lanePorts f 7) f)
  | 0x10 | 0x11 => some (roundSpec 0 (lanePorts f 1) f)
  | 0x12 => some (roundSpec 0 (lanePorts f 3) f)
  | 0x18 | 0x19 | 0x1A =>
    some (if f.md % 2 = 1 then { plainSpec 1 (lanePorts f 1) f with md := f.md == 1 } else plainSpec 0 (lanePorts f 3) f)
  | 0x1B | 0x1C | 0x1D | 0x1F => some (plainSpec 0 (lanePorts f 3) f)
  | 0x1E => some (plainSpec 0 (lanePorts f 1) f)
  | 0x20 | 0x21 | 0x22 | 0x23 | 0x24 | 0x25 | 0x26 => some (roundSpec 0 (lanePorts f 1) f)
  | 0x28 | 0x2A => some (plainSpec 1 (lanePorts f 1) f)
  | 0x29 =>
    some (if f.md % 2 = 1 then { plainSpec 0 (lanePorts f 3) f with md := f.md == 1 } else plainSpec 1 (lanePorts f 1) f)
  | 0x2B | 0x2E => some (roundSpec 0 (lanePorts f 1) f)
  | 0x2C | 0x2D => some (plainSpec 0 (lanePorts f 1) f)
  | 0x30 => some { roundSpec 0 (lanePorts f 1) f with rep := f.repm == 0 }
  | 0x31 => some { roundSpec 0 (lanePorts f 1) f with sat := false, rep := f.repm == 0 }
  | 0x32 => some (soloSpec 0 (lanePorts f 1) f)
  | 0x33 => some (plainSpec 0 (lanePorts f 3) f)
  | 0x38 => some (soloSpec 0 (f.ins == 3 && decide (f.oc0 ≤ 2 ∧ f.oc1 ≤ 2) && (f.oc0 != 0 || f.oc1 != 0)) f)
  | 0x39 | 0x3A => some (soloSpec 0 (lanePorts f 7) f)
  | 0x3B => some (soloSpec 0 (lanePorts f 3) f)
  | 0x3C => some (soloSpec 0 (f.ins == 1 && decide (f.oc0 ≤ 2 ∧ f.oc1 ≤ 2) && (f.oc0 != 0 || f.oc1 != 0)) f)
  | 0x3D => some (soloSpec 0 (f.ins == 1 && f.oc0 == 0 && f.oc1 == 0) f)
  | 0x3E => some { soloSpec 1 (decide (f.ins ≤ 1) && driven f.oc0 && f.oc1 == 0) f with md := decide (f.md ≤ 1) }
  | _ => none

/-- The stream sequencer's operations (R74, R264, R265). -/
def sqSpec (f : OpFields) : Option OpSpec :=
  let both := f.ins == 3 && driven f.oc0 && driven f.oc1
  match f.opc with
  | 0x01 => some (soloSpec 3 (decide (f.ins ≤ 1) && driven f.oc0 && f.oc1 == 0) f)
  | 0x02 | 0x03 => some (soloSpec 1 (lanePorts f 1) f)
  | 0x08 | 0x0A => some (soloSpec 0 both f)
  | 0x09 => some (soloSpec 1 both f)
  | 0x10 => some (soloSpec 1 (lanePorts f 0) f)
  | 0x11 => some (soloSpec 1 (f.ins != 0 && driven f.oc0 && f.oc1 == 0) f)
  | 0x12 => some (soloSpec 1 (f.ins == 1 && driven f.oc0 && decide (f.oc1 ≤ 2)) f)
  | 0x13 => some (soloSpec 1 (f.ins == 1 && f.oc0 == 1 && f.oc1 == 0) f)
  | _ => none

/-- The matrix element's operations (R75, R276). -/
def mxSpec (f : OpFields) : Option OpSpec :=
  match f.opc with
  | 0x01 => some (soloSpec 0 (lanePorts f 7) f)
  | 0x02 => some { soloSpec 0 (lanePorts f 15) f with md := true }
  | 0x03 | 0x06 => some (soloSpec 0 (lanePorts f 9) f)
  | 0x04 | 0x07 => some (soloSpec 0 (f.ins == 1 && f.oc0 == 0 && f.oc1 == 0) f)
  | 0x05 => some { roundSpec 0 (lanePorts f 1) f with rep := f.repm == 0 }
  | _ => none

/-- The address generator's operations (R76, R296, R297, R331). -/
def agSpec (f : OpFields) : Option OpSpec :=
  let compl := decide (f.oc0 ≤ 2) && f.oc1 == 0
  let trig := decide (f.ins ≤ 1)
  let rep := f.ins != 0 || f.repm == 0
  match f.opc with
  | 0x01 => some { plainSpec 1 (trig && driven f.oc0 && f.oc1 == 0) f with rep := rep }
  | 0x02 => some (soloSpec 1 (f.ins == 1 && compl) f)
  | 0x03 => some (plainSpec 1 (lanePorts f 1) f)
  | 0x04 => some (plainSpec 1 (f.ins == 3 && compl) f)
  | 0x05 => some { soloSpec 2 (trig && driven f.oc0 && driven f.oc1) f with md := true }
  | 0x06 => some { plainSpec 1 (trig && compl) f with rep := rep }
  | 0x07 => some { plainSpec 2 (trig && compl) f with rep := rep }
  | _ => none

/-- The header element's operations (R76, R315, R316). -/
def hdSpec (f : OpFields) : Option OpSpec :=
  match f.opc with
  | 0x01 => some { soloSpec 0 ([1, 3, 7, 15].contains f.ins && driven f.oc0 && f.oc1 == 0) f with md := decide (f.md ≤ 1) }
  | 0x02 => some (soloSpec 0 (lanePorts f 3) f)
  | 0x03 => some (plainSpec 2 (f.ins == 1 && decide (f.oc0 ≤ 2 ∧ f.oc1 ≤ 2) && (f.oc0 != 0 || f.oc1 != 0)) f)
  | 0x04 => some (soloSpec 2 (lanePorts f 1) f)
  | _ => none

/-- A power of two (R394). -/
def isPow2 (n : Nat) : Bool := n == 2 ^ n.log2

/-- The owner element's operations (R76, R393, R394). -/
def owSpec (f : OpFields) : Option OpSpec :=
  let compl := decide (f.oc0 ≤ 2) && f.oc1 == 0
  let base (ins : Nat) : OpSpec := { plainSpec 1 (f.ins == ins && compl) f with rep := isPow2 (f.repm + 1) }
  match f.opc with
  | 0x01 => some { base 3 with ro := true, sat := true, pv := true }
  | 0x02 | 0x03 | 0x04 | 0x05 | 0x06 | 0x07 => some (base 3)
  | 0x08 => some (base 7)
  | 0x09 => some (base 1)
  | 0x0A => some { base 3 with ro := true, pv := true }
  | 0x0B => some (soloSpec 1 (lanePorts f 1) f)
  | _ => none

/-- The bridge element's operations (R76, R353). -/
def brSpec (f : OpFields) : Option OpSpec :=
  match f.opc with
  | 0x01 => some (soloSpec 1 (f.ins == 1 && f.oc0 == 0 && f.oc1 == 0) f)
  | 0x02 => some (soloSpec 1 (lanePorts f 0) f)
  | 0x03 => some (soloSpec 1 (lanePorts f 1) f)
  | 0x04 => some (soloSpec 1 (f.ins == 3 && decide (f.oc0 ≤ 2) && f.oc1 == 0) f)
  | 0x05 => some (soloSpec 1 (lanePorts f 3 || lanePorts f 7) f)
  | _ => none

/-- The map of a kind (R72). -/
def opSpec (k : EKind) (f : OpFields) : Option OpSpec :=
  match k with
  | .mx => mxSpec f | .sq => sqSpec f | .ve => veSpec f | .ag => agSpec f | .hd => hdSpec f | .ow => owSpec f
  | .br => brSpec f

/-- The kind's LFSR needs a seed; elsewhere the seed word must be zero (R263, R295, R314, R353). -/
def kindSeeded : EKind → Bool
  | .mx => true | .ve => true | .ow => true | _ => false

/-- The command fields of a matrix command (R277). -/
structure MxFields where
  op : Nat
  m : Nat
  n : Nat
  k : Nat
  acc : Bool
  dr : Bool
  ro : Nat
  sat : Bool
  pv : Nat
  bk : Bool
  deriving DecidableEq, Repr

/-- The fields of a command word (R277). -/
def mxFields (w : W32) : MxFields :=
  let x := w.toNat
  { op := bits x 2 0, m := bits x 8 3, n := bits x 14 9, k := bits x 22 15, acc := bits x 23 23 == 1, dr := bits x 24 24 == 1,
    ro := bits x 27 25, sat := bits x 28 28 == 1, pv := bits x 30 29, bk := bits x 31 31 == 1 }

/-- A command word without a reserved value, its unused fields zero (R277). -/
def mxWordOk (w : W32) : Bool :=
  let f := mxFields w
  let zeroOps := f.m == 0 && f.n == 0 && f.k == 0 && !f.acc && !f.dr && !f.bk
  let zeroDrain := f.ro == 0 && !f.sat && f.pv == 0
  match f.op with
  | 1 | 2 => decide (f.m ≤ 32 ∧ f.n ≤ 32 ∧ f.ro ≤ 5)
  | 3 => decide (f.m ≤ 32 ∧ f.n ≤ 32 ∧ f.ro ≤ 5) && !f.bk
  | 5 => decide (f.ro ≤ 5) && zeroOps
  | 4 | 6 | 7 => zeroOps && zeroDrain
  | _ => false

/-- The extension words that fail by their own bits: the number of the first that does, and its code (R73 to R76, R240,
R265, R297, R316, R331, R354, R356, R394). -/
def extFault (k : EKind) (f : OpFields) (ext : List W32) : Option (Nat × Nat) :=
  let e (n : Nat) : Nat := (ext.getD n 0#32).toNat
  let low (n hi : Nat) : Option (Nat × Nat) := if e n / 2 ^ hi = 0 then none else some (n, 2)
  let need (n : Nat) (b : Bool) : Option (Nat × Nat) := if b then none else some (n, 2)
  match k, f.opc with
  | .ve, 0x0B => need 0 (decide (e 0 ≤ 7))
  | .ve, 0x18 | .ve, 0x19 | .ve, 0x1A => low 0 6
  | .ve, 0x28 | .ve, 0x2A => low 0 7
  | .ve, 0x29 => low 0 16
  | .ve, 0x3E => if f.md = 0 then low 0 16 else none
  | .sq, 0x01 => need 2 (e 2 != 0)
  | .sq, 0x02 => need 0 (e 0 != 0)
  | .sq, 0x03 => need 0 (mxWordOk (ext.getD 0 0#32))
  | .sq, 0x09 => need 0 (decide (1 ≤ e 0 ∧ e 0 ≤ 255))
  | .sq, 0x10 => low 0 8
  | .sq, 0x11 => need 0 (decide (1 ≤ e 0 ∧ e 0 < 65536))
  | .sq, 0x13 => low 0 3
  | .ag, 0x05 =>
    if e 0 / 2 ^ 18 ≠ 0 then some (0, 2)
    else
      match (fmtOf 1).value false (e 1) with
      | .nan => some (1, 2)
      | v => if v.lt (.zero false) then some (1, 2) else none
  | .ag, _ => low 0 16
  | .hd, 0x03 =>
    if e 1 / 2 ^ 17 ≠ 0 ∨ (e 1 / 65536 % 2 = 1 ∧ e 1 % 65536 ≠ 0) then some (1, 2) else none
  | .hd, 0x04 =>
    if e 0 / 65536 ≠ 0 then some (0, 2)
    else if e 1 / 2 ^ 17 ≠ 0 ∨ (e 1 / 65536 % 2 = 1 ∧ e 1 % 65536 ≠ 0) then some (1, 2) else none
  | .ow, _ => low 0 16
  | .br, 0x01 | .br, 0x02 => need 0 (decide (e 0 ≤ 23))
  | .br, 0x05 => need 0 (decide (e 0 % 16 ≤ 9 ∧ e 0 / 16 % 16 ≤ 8 ∧ e 0 < 512))
  | .br, _ => low 0 16
  | _, _ => none

/-! ## Records -/

/-- Extension word `n` of a record. -/
def Rec.e (r : Rec) (n : Nat) : Nat := (r.ext.getD n 0#32).toNat

/-- The kind of a record's site. -/
def Rec.kind (r : Rec) : EKind := siteKind r.site

/-- The pool index of a record's pattern descriptor: the address generators', and a run table's (R76, R316). -/
def Rec.patternIdx (r : Rec) : Option Nat :=
  match r.kind with
  | .ag => some (r.e 0 % 65536)
  | .hd => if (r.opc == 3 || r.opc == 4) && r.e 1 / 65536 % 2 == 0 then some (r.e 1 % 65536) else none
  | _ => none

/-! ## The first pass (R86) -/

/-- A decoded item and the WIDX of its first word. -/
structure At (α : Type) where
  widx : Nat
  val : α
  deriving DecidableEq, Repr

/-- The image as the first pass decodes it (R101). -/
structure Parsed where
  cfgid : Nat
  recs : List (At Rec)
  arcs : List (At ArcWord)
  routes : List (At Route)
  stores : List (At Store)
  masks : List (At (List Atom))
  pool : List (At (List W32))
  deriving DecidableEq, Repr

/-- A rejection. -/
def reject {α : Type} (site widx code : Nat) : Except Reject α := .error { site := site, widx := widx, code := code }

/-- The words not yet read, with the WIDX of the first. -/
structure Cursor where
  words : List W32
  pos : Nat

/-- Counts that disagree with NWORDS (R101). R86 has no row for them: that WIDX names word 7 and SITE no element, and that a
word which fails by its own fields before the words run out is reported in their place, is the model's choice (log entry
35). -/
def badCounts {α : Type} : Except Reject α := reject noSite 7 2

/-- The next word. -/
def Cursor.take (c : Cursor) : Except Reject (W32 × Cursor) :=
  match c.words with
  | [] => badCounts
  | w :: r => .ok (w, { words := r, pos := c.pos + 1 })

/-- The next `n` words. -/
def Cursor.takeN (c : Cursor) (n : Nat) : Except Reject (List W32 × Cursor) :=
  if c.words.length < n then badCounts else .ok (c.words.take n, { words := c.words.drop n, pos := c.pos + n })

/-- `n` items, one after another. -/
def parseMany {α : Type} (f : Cursor → Except Reject (α × Cursor)) : Nat → Cursor → Except Reject (List (At α) × Cursor)
  | 0, c => .ok ([], c)
  | n + 1, c =>
    match f c with
    | .error r => .error r
    | .ok (x, c1) =>
      match parseMany f n c1 with
      | .error r => .error r
      | .ok (xs, c2) => .ok ({ widx := c.pos, val := x } :: xs, c2)

/-- An operation of chapter 11, whose OC1 must be 0 with code 0x0005, 3 included (R240). -/
def laneChapter (k : EKind) (opc : Nat) : Bool := k == .ve && (decide (opc < 0x38) || opc == 0x3E)

/-- A kind whose rules give 0x0005 to every arc count other than its table's, 3 included (R265, R297, R316, R394). -/
def countsArcs : EKind → Bool
  | .sq => true | .ag => true | .hd => true | .ow => true | _ => false

/-- The checks of an operation word by its own fields, in the order of R70 and R71. -/
def opWordFault (k : EKind) (o : Nat) : Option Nat :=
  let f : OpFields := { opc := bits o 31 24, md := bits o 1 0, ins := bits o 9 6, oc0 := bits o 3 2, oc1 := bits o 5 4,
                        repm := bits o 21 16 }
  match opSpec k f with
  | none => some 1
  | some s =>
    if countsArcs k = false ∧ (f.oc0 = 3 ∨ (f.oc1 = 3 ∧ laneChapter k f.opc = false)) then some 2
    else if bits o 23 22 ≠ s.nx then some 3
    else if bits o 13 11 > 5 ∨ (bits o 13 11 ≠ 0 ∧ s.ro = false) ∨ (bits o 10 10 ≠ 0 ∧ s.sat = false) ∨
        (bits o 15 14 ≠ 0 ∧ s.pv = false) then some 4
    else if s.md = false then some 2
    else if s.ports = false then some 5
    else if s.rep = false then some 2
    else none

/-- An element record (R69, R70). -/
def parseRec (c : Cursor) : Except Reject (Rec × Cursor) :=
  match c.take with
  | .error r => .error r
  | .ok (h, c1) =>
    let site := bits h.toNat 8 0
    let k := siteKind site
    let mode : Byte := BitVec.ofNat 8 (bits h.toNat 31 24)
    if bits h.toNat 23 9 ≠ 0 then reject site c.pos 2
    else if modeWordOk mode = false then reject site c.pos 0x10
    else
      match c1.take with
      | .error r => .error r
      | .ok (seed, c2) =>
        if kindSeeded k = false ∧ seed ≠ 0#32 then reject site c1.pos 2
        else
          match c2.take with
          | .error r => .error r
          | .ok (ow, c3) =>
            let o := ow.toNat
            match opWordFault k o with
            | some code => reject site c2.pos code
            | none =>
              match c3.takeN (bits o 23 22) with
              | .error r => .error r
              | .ok (ext, c4) =>
                let f : OpFields := { opc := bits o 31 24, md := bits o 1 0, ins := bits o 9 6, oc0 := bits o 3 2,
                                      oc1 := bits o 5 4, repm := bits o 21 16 }
                match extFault k f ext with
                | some (n, code) => reject site (c3.pos + n) code
                | none =>
                  .ok ({ site := site, sites := copySites site (bits o 21 16 + 1), mode0 := mode, seed := seed,
                         opc := bits o 31 24, nx := bits o 23 22,
                         repm := bits o 21 16, pv := bits o 15 14, ro := bits o 13 11, sat := bits o 10 10 == 1,
                         inMask := bits o 9 6, oc1 := bits o 5 4, oc0 := bits o 3 2, md := bits o 1 0, ext := ext }, c4)

/-- An arc word (R77, R78). PPORT at a sequencer producer and CPORT at a sequencer consumer take any value, and a word that
breaks a case of R78 and has bit 0 set is reported with 0x0007: the model's choices (log entry 35). -/
def parseArc (c : Cursor) : Except Reject (ArcWord × Cursor) :=
  match c.take with
  | .error r => .error r
  | .ok (w, c1) =>
    let x := w.toNat
    let a : ArcWord :=
      { ty := bits x 31 27, slots := bits x 26 24, pseq := bits x 23 23 == 1, psite := bits x 22 14, pport := bits x 13 13,
        cseq := bits x 12 12 == 1, csite := bits x 11 3, cport := bits x 2 1, elastic := 0, latch := 0, chans := [] }
    if a.ty > 18 ∨ (a.pseq && a.cseq) ∨ (a.pseq && decide (a.psite ≥ 15)) ∨
        (a.cseq && (decide (a.csite ≥ 16) || (a.csite == 15 && a.ty != 0))) then reject noSite c.pos 7
    else if x % 2 = 1 then reject noSite c.pos 2
    else .ok (a, c1)

/-- The tile a neighbour-channel output leads to, if it stays in the region (R79). -/
def neighbour (t dir : Nat) : Option Nat :=
  match dir with
  | 0 => if t / 8 = 0 then none else some (t - 8)
  | 1 => if t % 8 = 7 then none else some (t + 1)
  | 2 => if t / 8 = 7 then none else some (t + 8)
  | _ => if t % 8 = 0 then none else some (t - 1)

/-- A switch output leaves its tile across a quadrant border (R143). -/
def crossesBorder (t outch : Nat) : Bool :=
  if outch ≥ 16 then false
  else
    match neighbour t (outch / 4) with
    | none => false
    | some u => tileQuadrant t != tileQuadrant u

/-- A route entry (R79, R80, R101). Under an offset ELASTIC is recomputed, so that it is not judged (R144). An entry with a
nonzero bit above 21 and a bad switch word is reported with 0x0002: a DESIGN CHOICE (log entry 53). -/
def parseRoute (shifted : Bool) (c : Cursor) : Except Reject (Route × Cursor) :=
  match c.take with
  | .error r => .error r
  | .ok (w, c1) =>
    let x := w.toNat
    let r : Route := { tile := bits x 21 16, inch := bits x 15 11, outch := bits x 10 6, latch := bits x 5 3,
                       elastic := bits x 2 2 == 1 }
    if bits x 31 22 ≠ 0 then reject noSite c.pos 2
    else if r.outch ≥ 24 ∨ x % 4 ≠ 0 ∨ (r.inch < 16 ∧ r.outch < 16 ∧ r.inch / 4 = r.outch / 4) ∨
        (r.elastic && !shifted && !crossesBorder r.tile r.outch) then reject noSite c.pos 0xC
    else .ok (r, c1)

/-- A store-mode word's own checks (R81, R292). -/
def storeWordOk (x : Nat) : Bool :=
  let len := bits x 15 4
  x % 16 == 0 && len != 0 && decide (bits x 27 16 + len ≤ 3072) &&
    (if bits x 31 30 = 1 then bits x 29 28 != 0 && len % (bits x 29 28 + 1) == 0 else bits x 29 28 == 0)

/-- A store entry (R81, R101). -/
def parseStore (c : Cursor) : Except Reject (Store × Cursor) :=
  match c.take with
  | .error r => .error r
  | .ok (t, c1) =>
    if t.toNat ≥ 64 ∨ computeTile t.toNat then reject noSite c.pos 0xD
    else
      match c1.take with
      | .error r => .error r
      | .ok (w, c2) => if storeWordOk w.toNat then .ok ({ tile := t.toNat, word := w }, c2) else reject noSite c1.pos 0xD

/-- Word A of an atom by its own fields (R82 to R84). -/
def atomAOk (a : Atom) (w : Nat) : Bool :=
  bits w 24 24 == 0 && decide (1 ≤ a.aop ∧ a.aop ≤ 6) && (!a.eop || a.eoc) &&
    (match a.aop with
    | 1 => a.p % 256 == 0
    | 4 | 5 => a.p == 0
    | 6 => a.p != 0
    | _ => true)

/-- Word B of an atom by its own fields (R83, R84). -/
def atomBOk (a : Atom) : Bool :=
  match a.aop with
  | 2 | 3 => decide (a.b.toNat < 2 ^ 24)
  | 4 | 5 => a.b == 0#32
  | 6 => decide (a.b.toNat < 2 ^ 24) && a.b != 0#32
  | _ => true

/-- An atom (R82). -/
def parseAtom (c : Cursor) : Except Reject (Atom × Cursor) :=
  match c.take with
  | .error r => .error r
  | .ok (w, c1) =>
    let x := w.toNat
    let a : Atom := { aop := bits x 31 28, neg := bits x 27 27 == 1, eoc := bits x 26 26 == 1, eop := bits x 25 25 == 1,
                      p := bits x 23 0, b := 0#32 }
    if atomAOk a x = false then reject noSite c.pos 0xE
    else
      match c1.take with
      | .error r => .error r
      | .ok (b, c2) =>
        if atomBOk { a with b := b } then .ok ({ a with b := b }, c2) else reject noSite c1.pos 0xE

/-- A mask program: a count of atoms and its atoms (R101). -/
def parseMask (c : Cursor) : Except Reject (List Atom × Cursor) :=
  match c.take with
  | .error r => .error r
  | .ok (n, c1) =>
    if c1.words.length < 2 * n.toNat then badCounts
    else
      match parseMany parseAtom n.toNat c1 with
      | .error r => .error r
      | .ok (l, c2) => .ok (l.map At.val, c2)

/-- A pool entry: a count of words and its words (R101). -/
def parsePool (c : Cursor) : Except Reject (List W32 × Cursor) :=
  match c.take with
  | .error r => .error r
  | .ok (n, c1) => c1.takeN n.toNat

/-- The first word of a pattern descriptor that fails R298 by its own fields (R86), numbered from its count word: the count,
word 0 with its reserved bits, ILK, ND, SPACE and TILE, and the multiples of 64 in BASE, EXTENT and the strides. -/
def descWordFault (l : List W32) : Option Nat :=
  let w (n : Nat) : Nat := (l.getD n 0#32).toNat
  let space := bits (w 0) 1 0
  let tile := bits (w 0) 11 6
  if l.length ≠ 16 then some 0
  else if bits (w 0) 15 15 ≠ 0 ∨ bits (w 0) 5 5 ≠ 0 ∨ space = 3 ∨ bits (w 0) 14 12 > 5 ∨ bits (w 0) 4 2 = 0 ∨ bits (w 0) 4 2 > 5 ∨
      (if space = 0 then computeTile tile = true else tile ≠ 0) then some 1
  else ([1, 3, 10, 11, 12, 13, 14].find? (fun n => w n % 64 != 0)).map (· + 1)

/-- The pool section from entry `i` on; `desc` names the entries that records take for pattern descriptors. -/
def parsePools (desc : Nat → Bool) : Nat → Nat → Cursor → Except Reject (List (At (List W32)) × Cursor)
  | _, 0, c => .ok ([], c)
  | i, n + 1, c =>
    match parsePool c with
    | .error r => .error r
    | .ok (x, c1) =>
      match if desc i then descWordFault x else none with
      | some k => reject noSite (c.pos + k) 2
      | none =>
        match parsePools desc (i + 1) n c1 with
        | .error r => .error r
        | .ok (xs, c2) => .ok ({ widx := c.pos, val := x } :: xs, c2)

/-- A section that must fit the words that remain: each item is at least one word. -/
def parseSection {α : Type} (f : Cursor → Except Reject (α × Cursor)) (n : Nat) (c : Cursor) :
    Except Reject (List (At α) × Cursor) :=
  parseMany f (min n (c.words.length + 1)) c

/-- The first pass over the words of an image, as many as NWORDS says (R86, R101). NREC above 512 and NARC above 1024 are
reported with 0x0002 at their own words, before the counts are compared with NWORDS: a DESIGN CHOICE (log entry 53). -/
def parseImage (shifted : Bool) (words : List W32) : Except Reject Parsed := do
  let w (n : Nat) : Nat := (words.getD n 0#32).toNat
  if w 0 / 65536 ≠ 0 then reject noSite 0 2
  if w 1 > 512 then reject noSite 1 2
  if w 2 > 1024 then reject noSite 2 2
  if words.length < 8 ∨ words.length ≠ w 7 then badCounts
  let c : Cursor := { words := words.drop 8, pos := 8 }
  let (recs, c) ← parseSection parseRec (w 1) c
  let (arcs, c) ← parseSection parseArc (w 2) c
  let (routes, c) ← parseSection (parseRoute shifted) (w 3) c
  let (stores, c) ← parseSection parseStore (w 4) c
  let (masks, c) ← parseSection parseMask (w 5) c
  let named (i : Nat) : Bool := recs.any (fun r => r.val.patternIdx == some i)
  let (pool, c) ← parsePools named 0 (min (w 6) (c.words.length + 1)) c
  if c.words ≠ [] then badCounts
  .ok { cfgid := w 0, recs := recs, arcs := arcs, routes := routes, stores := stores, masks := masks, pool := pool }

end Sys2Proof.Machine
end

