-- ==== Sys2Proof/Machine/Checks.lean ====
section
/-! DEFINITION. The loader's second pass (R86): the checks that span a whole configuration, in the order of its table, and
the configuration as staged under an offset (R144). -/

namespace Sys2Proof.Machine

/-! ## Descriptors (R298, R355, R394) -/

/-- A pattern descriptor (R298). -/
structure Desc where
  adv : Nat
  ilk : Nat
  tile : Nat
  nd : Nat
  space : Nat
  base : Nat
  extent : Nat
  counts : List Nat
  strides : List Int
  word15 : W32
  deriving DecidableEq, Repr

/-- Word `n` of a pool entry. -/
def poolWord (l : List W32) (n : Nat) : Nat := (l.getD n 0#32).toNat

/-- The fields of a pattern descriptor (R298). -/
def descOf (l : List W32) : Desc :=
  let w := poolWord l
  { adv := bits (w 0) 31 16, ilk := bits (w 0) 14 12, tile := bits (w 0) 11 6, nd := bits (w 0) 4 2,
    space := bits (w 0) 1 0, base := w 1 + 2 ^ 32 * w 2, extent := w 3 + 2 ^ 32 * w 4,
    counts := [w 5, w 6, w 7, w 8, w 9], strides := [w 10, w 11, w 12, w 13, w 14].map (fun x => signed x 32),
    word15 := l.getD 15 0#32 }

/-- START (R298). -/
def Desc.start (d : Desc) : Int := signed d.word15.toNat 32

/-- The memory tiles of a region. -/
def memoryTiles : List Nat := (List.range 64).filter (fun t => !computeTile t)

/-- A scatter set (R298). -/
def scatterSet (tile ilk : Nat) : List Nat := (memoryTiles.filter (fun t => decide (tile ≤ t))).take (2 ^ ilk)

/-- The dimensions in use with their counts and strides. -/
def Desc.dims (d : Desc) : List (Nat × Int) := (d.counts.zip d.strides).take d.nd

/-- Some dimension has no point (R301, R312). -/
def Desc.isEmpty (d : Desc) : Bool := d.dims.any (fun x => x.1 == 0)

/-- lo of R301. -/
def Desc.lo (d : Desc) : Int := d.dims.foldl (fun s x => s + min 0 (((x.1 : Int) - 1) * x.2)) 0

/-- hi of R301. -/
def Desc.hi (d : Desc) : Int := d.dims.foldl (fun s x => s + max 0 (((x.1 : Int) - 1) * x.2)) 0 + 64

/-- A run at an offset is within bounds (R301). -/
def Desc.inBounds (d : Desc) (off : Int) : Bool := d.isEmpty || (decide (0 ≤ off + d.lo) && decide (off + d.hi ≤ d.extent))

/-- The limit of a space on BASE + EXTENT (R301). -/
def spaceLimit (space part tiles : Nat) : Nat :=
  match space with
  | 0 => tiles * tileBytes
  | 1 => part * bankBytes
  | _ => 2 ^ 52

/-- An owner range descriptor, or a remote descriptor, has the fields BASE and EXTENT in words 1 to 4 (R355, R394). -/
def rangeBase (l : List W32) : Nat := poolWord l 1 + 2 ^ 32 * poolWord l 2
def rangeExtent (l : List W32) : Nat := poolWord l 3 + 2 ^ 32 * poolWord l 4

/-! ## Records and their descriptors -/

/-- The record is an operation of a kind. -/
def Rec.isOp (r : Rec) (k : EKind) (opc : Nat) : Bool := r.kind == k && r.opc == opc

/-- The number of copies (R228). -/
def Rec.copies (r : Rec) : Nat := r.repm + 1

/-- The record consumes an input port. -/
def Rec.consumes (r : Rec) (p : Nat) : Bool := r.inMask / 2 ^ p % 2 == 1

/-- The record's operation word as the map's fields. -/
def Rec.fields (r : Rec) : OpFields :=
  { opc := r.opc, md := r.md, ins := r.inMask, oc0 := r.oc0, oc1 := r.oc1, repm := r.repm }

/-- A pool entry. -/
def Parsed.entry (p : Parsed) (n : Nat) : Option (At (List W32)) := p.pool[n]?

/-- A record's pattern descriptor with the WIDX of its count word. -/
def Parsed.pattern (p : Parsed) (r : Rec) : Option (At Desc) :=
  match r.patternIdx.bind p.entry with
  | none => none
  | some e => some { widx := e.widx, val := descOf e.val }

/-- The tiles a descriptor names: the tile, or a scatter set (R298). -/
def descTiles (r : Rec) (d : Desc) : List Nat :=
  if d.space ≠ 0 then [] else if r.isOp .ag 4 then scatterSet d.tile d.ilk else [d.tile]

/-- WIDX of a record's operation word. -/
def At.opWord (r : At Rec) : Nat := r.widx + 2

/-- WIDX of extension word `n`. -/
def At.extWord (r : At Rec) (n : Nat) : Nat := r.widx + 3 + n

/-! ## Shifting (R144) -/

/-- A site moved by an offset; one that would leave goes where no site is, and check 1 rejects it (R144). -/
def movedSite (dx dy : Int) (s : Nat) : Nat := (shiftSite dx dy s).getD (512 + s)

/-- The image's words moved by an offset, the sites of copies one by one; a word that would leave is rejected by check 1. -/
def Parsed.shift (p : Parsed) (dx dy : Int) : Parsed :=
  if dx = 0 ∧ dy = 0 then p
  else
    let site := movedSite dx dy
    let tile (t : Nat) : Nat := (shiftTile dx dy t).getD t
    { p with
      recs := p.recs.map (fun r => { r with val := { r.val with site := site r.val.site, sites := r.val.sites.map site } })
      arcs := p.arcs.map (fun a => { a with val := { a.val with
        psite := if a.val.pseq then a.val.psite else site a.val.psite
        csite := if a.val.cseq then a.val.csite else site a.val.csite } })
      routes := p.routes.map (fun r => { r with val := { r.val with
        tile := tile r.val.tile, elastic := crossesBorder (tile r.val.tile) r.val.outch } })
      stores := p.stores.map (fun x => { x with val := { x.val with tile := tile x.val.tile } }) }

/-- The words that would leave tiles 0 to 7 (R144). -/
def Parsed.leaving (p : Parsed) (dx dy : Int) : List Reject :=
  let bad (t : Nat) : Bool := shiftTile dx dy t == none
  (p.recs.filter (fun r => bad (siteTile r.val.site) || r.val.sites.any (fun n => bad (siteTile n)))).map (fun r => { site := r.val.site, widx := r.widx, code := 6 }) ++
  (p.routes.filter (fun r => bad r.val.tile)).map (fun r => { site := noSite, widx := r.widx, code := 6 }) ++
  (p.stores.filter (fun r => bad r.val.tile)).map (fun r => { site := noSite, widx := r.widx, code := 6 }) ++
  p.recs.filterMap (fun r =>
    match p.pattern r.val with
    | none => none
    | some d => if (descTiles r.val d.val).any bad then some { site := noSite, widx := d.widx, code := 6 } else none)

/-! ## Check 1: sites -/

/-- Conflicts, room and kinds of records in image order, with the sites occupied so far (R69, R228, R257). -/
def siteFaults : List Nat → List (At Rec) → List Reject
  | _, [] => []
  | occ, r :: rs =>
    let sites := r.val.sites
    let bad := decide (sites.length < r.val.copies) || sites.any occ.contains ||
      (r.val.isOp .ve 0x31 && r.val.site % 8 != 7)
    (if bad then [{ site := r.val.site, widx := r.widx, code := 6 }] else []) ++ siteFaults (occ ++ sites) rs

/-! ## Check 2: ports and arcs -/

/-- The record at a site. -/
def Parsed.recAt (p : Parsed) (site : Nat) : Option (At Rec) := p.recs.find? (fun r => r.val.site == site)

/-- The arcs with their numbers. -/
def Parsed.numbered (p : Parsed) : List (Nat × At ArcWord) := (p.arcs.zipIdx).map (fun x => (x.2, x.1))

/-- The arcs that leave an output port of an element. -/
def Parsed.outArcs (p : Parsed) (site port : Nat) : List (Nat × At ArcWord) :=
  p.numbered.filter (fun a => !a.2.val.pseq && a.2.val.psite == site && a.2.val.pport == port)

/-- The arcs that end at an input port of an element. -/
def Parsed.inArcs (p : Parsed) (site port : Nat) : List (Nat × At ArcWord) :=
  p.numbered.filter (fun a => !a.2.val.cseq && a.2.val.csite == site && a.2.val.cport == port)

/-- Two arcs share their producer port. -/
def sameProducer (a b : ArcWord) : Bool := a.pseq == b.pseq && a.psite == b.psite && (a.pseq || a.pport == b.pport)

/-- Two arcs share their consumer port. -/
def sameConsumer (a b : ArcWord) : Bool := a.cseq == b.cseq && a.csite == b.csite && (a.cseq || a.cport == b.cport)

/-- The arcs that fail (R78), each judged against those before it: of two that name one consumer port the later is the
offending word, the model's choice (log entry 35). -/
def arcFaults (p : Parsed) : List (At ArcWord) → List (At ArcWord) → List Reject
  | _, [] => []
  | before, a :: rest =>
    let w := a.val
    let outOk := w.pseq || (match p.recAt w.psite with
      | none => false
      | some r => if w.pport = 0 then r.val.oc0 != 0 else r.val.oc1 != 0)
    let inOk := w.cseq || (match p.recAt w.csite with
      | none => false
      | some r => r.val.consumes w.cport)
    let bad := !outOk || !inOk || before.any (fun b => sameConsumer b.val w) ||
      decide (2 ≤ (before.filter (fun b => sameProducer b.val w)).length)
    (if bad then [{ site := noSite, widx := a.widx, code := 7 }] else []) ++ arcFaults p (before ++ [a]) rest

/-- Records whose port counts disagree with the arc table, EXIT's arc, and the comparand of RATOM (R71, R265, R356). -/
def portFaults (p : Parsed) : List Reject :=
  p.recs.filterMap (fun r =>
    let v := r.val
    let outs (q : Nat) : Nat := (p.outArcs v.site q).length
    let insOk := [0, 1, 2, 3].all (fun q => v.consumes q == ((p.inArcs v.site q).length != 0))
    let exitOk := !v.isOp .sq 0x13 || (p.outArcs v.site 0).all (fun a => a.2.val.cseq && a.2.val.csite == 15)
    let atomOk := !v.isOp .br 5 || (v.consumes 2 == (v.e 0 % 16 == 9))
    if outs 0 = v.oc0 ∧ outs 1 = v.oc1 ∧ insOk ∧ exitOk ∧ atomOk then none
    else some { site := v.site, widx := r.opWord, code := 5 })

/-! ## Check 3: types and the limits that depend on them -/

/-- An arc as a type rule sees it: number and type. -/
abbrev TArc := Nat × Nat

/-- The arcs of a group share one type of a class. -/
def uniform (cls : Nat → Bool) (l : List TArc) : List TArc × Bool :=
  (l, match l with
    | [] => true
    | a :: _ => l.all (fun b => b.2 == a.2 && cls b.2))

/-- Each arc of a group has a type of a class. -/
def each (cls : Nat → Bool) (l : List TArc) : List TArc × Bool := (l, l.all (fun a => cls a.2))

/-- The type rules of an operation over its input and output arcs (R224, R231, R239, R264, R275, R296, R315, R331, R353,
R393). -/
def typeRules (r : Rec) (inp : Nat → List TArc) (out : Nat → List TArc) : List (List TArc × Bool) :=
  let anyT (_ : Nat) : Bool := true
  let bitsT (t : Nat) : Bool := t == 0
  let fi (t : Nat) : Bool := inF t || inI t
  let ib (t : Nat) : Bool := inI t || t == 0
  let move (t : Nat) : Bool := inF t || inN t || inI t || t == 0
  let idx (t : Nat) : Bool := t == 14 || t == 17 || t == 0
  let notX (t : Nat) : Bool := !inX t
  let all := inp 0 ++ inp 1 ++ inp 2 ++ out 0
  let lane (cls : Nat → Bool) := [uniform cls all]
  let ins := inp 0 ++ inp 1 ++ inp 2 ++ inp 3
  let outs := out 0 ++ out 1
  match r.kind with
  | .ve =>
    match r.opc with
    | 0x0B => [uniform fi (inp 0 ++ inp 1), each bitsT (out 0)]
    | 0x0C | 0x39 => [each bitsT (inp 0), uniform anyT (inp 1 ++ inp 2 ++ out 0)]
    | 0x10 => [each (fun t => inF t || inN t || inI t) (inp 0), uniform (fun t => inF t || inN t || inI t) (out 0)]
    | 0x11 => lane inF
    | 0x12 => [uniform inF (inp 0 ++ out 0), each bitsT (inp 1)]
    | 0x18 | 0x19 | 0x1A | 0x1B | 0x1C | 0x1D | 0x1E | 0x1F => lane ib
    | 0x20 | 0x21 | 0x22 | 0x23 | 0x24 | 0x25 | 0x26 => lane inW
    | 0x28 | 0x2A => lane move
    | 0x29 =>
      if r.md % 2 = 0 then lane move
      else [uniform (fun t => move t && decide (laneCount t ≤ 64)) (inp 0 ++ out 0), each bitsT (inp 1)]
    | 0x31 => [each inW (inp 0), uniform inX (out 0)]
    | 0x32 => [each inX (inp 0), uniform inW (out 0)]
    | 0x33 => [uniform inW (inp 0 ++ out 0), each bitsT (inp 1)]
    | 0x38 => [uniform anyT (inp 0 ++ outs), each bitsT (inp 1)]
    | 0x3A => [uniform anyT (inp 0 ++ inp 1 ++ out 0), each bitsT (inp 2)]
    | 0x3B => [uniform anyT (inp 0 ++ out 0), each bitsT (inp 1)]
    | 0x3C => [uniform anyT (inp 0 ++ outs)]
    | 0x3D => []
    | 0x3E => [uniform move (out 0)]
    | _ => lane fi
  | .sq =>
    match r.opc with
    | 0x01 => [each (· == 14) (out 0)]
    | 0x02 => [each (· == 14) (inp 0), each (· == 14) (out 0)]
    | 0x03 => [each (fun t => t == 14 || t == 0) (inp 0), each bitsT (out 0)]
    | 0x08 | 0x09 | 0x0A => [each bitsT (inp 1), each bitsT outs]
    | 0x12 => [each (· == 17) (out 0), each bitsT (out 1)]
    | _ => [each bitsT (out 0)]
  | .mx =>
    let fop (t : Nat) : Bool := (inF t && t != 1) || inN t || inX t
    let iop (t : Nat) : Bool := t == 15 || t == 16 || t == 18
    let ab := inp 1 ++ inp 2
    let floats := ab.all (fun a => fop a.2)
    let lanesOk := match ab with
      | [] => true
      | a :: _ => ab.all (fun b => laneCount b.2 == laneCount a.2)
    let outF (t : Nat) : Bool := inF t
    let outI (t : Nat) : Bool := t == 14 || t == 15
    [each bitsT (inp 0), each bitsT (inp 3), (ab, (floats || ab.all (fun a => iop a.2)) && lanesOk)] ++
    [if ab.isEmpty then uniform (fun t => outF t || outI t) (out 0) else uniform (if floats then outF else outI) (out 0)] ++
    (if r.opc = 2 then [each notX (inp 1)] else [])
  | .ag =>
    match r.opc with
    | 0x01 => []
    | 0x03 => [each idx (inp 0)]
    | 0x04 => [each idx (inp 0), each bitsT (out 0)]
    | 0x05 => [uniform (fun t => [2, 3, 4, 5, 6, 7, 8, 15, 16, 18].contains t) (out 0), each bitsT (out 1)]
    | _ => [each bitsT (out 0)]
  | .hd =>
    match r.opc with
    | 0x01 | 0x02 => [each bitsT ins, each (· == 14) (out 0)]
    | 0x03 => [each (· == 14) (inp 0), each (· == 14) outs]
    | _ => [each (· == 14) (inp 0), each bitsT (out 0)]
  | .ow =>
    let data (cls : Nat → Bool) := [each bitsT (inp 0), uniform cls (inp 1 ++ inp 2 ++ out 0)]
    match r.opc with
    | 0x01 | 0x02 | 0x03 => data (fun t => [14, 17, 1, 2].contains t)
    | 0x04 | 0x05 | 0x06 => data (fun t => [14, 17, 0].contains t)
    | 0x07 | 0x08 => data notX
    | 0x09 => [each (fun t => t == 14 || t == 17) (inp 0), each bitsT (out 0)]
    | 0x0A => [each bitsT (inp 0), each (fun t => [9, 10, 13].contains t) (inp 1), each bitsT (out 0)]
    | _ => [each bitsT (inp 0), uniform notX (out 0)]
  | .br =>
    match r.opc with
    | 0x03 => [each bitsT (inp 0)]
    | 0x04 => [each bitsT (inp 0), each bitsT (out 0)]
    | _ => [each bitsT ins, each bitsT (out 0)]

/-- The arcs of a port as a type rule sees them. -/
def tarcs (l : List (Nat × At ArcWord)) : List TArc := l.map (fun a => (a.1, a.2.val.ty))

/-- The lowest number of a list. -/
def leastOf : List Nat → Option Nat
  | [] => none
  | n :: t => some (t.foldl min n)

/-- A pool entry's bytes. -/
def poolBytes (l : List W32) : List Byte := l.flatMap (fun w => leBytes 4 w.toNat)

/-- The type-dependent limits of a record (R240, R253, R260, R261): failures with the word that holds the value. -/
def limitFaults (p : Parsed) (r : At Rec) (tin tout : Option Nat) : List Reject :=
  let v := r.val
  let bad (b : Bool) (w : Nat) : List Reject := if b then [{ site := v.site, widx := w, code := 2 }] else []
  let pool (b : Bool) (w : Nat) : List Reject := if b then [{ site := noSite, widx := w, code := 2 }] else []
  let t := tout.getD 0
  if v.kind ≠ .ve then []
  else
    match v.opc with
    | 0x10 => bad (v.repm != 0 && laneCount (tin.getD 0) != laneCount t) r.opWord
    | 0x28 | 0x2A => bad (decide (laneCount t ≤ v.e 0 % 128)) (r.extWord 0)
    | 0x29 =>
      if v.md % 2 = 1 then []
      else
        match p.entry (v.e 0 % 65536) with
        | none => bad true (r.extWord 0)
        | some e => pool (e.val.length != laneCount t / 4 || (poolBytes e.val).any (fun b => decide (laneCount t ≤ b.toNat))) e.widx
    | 0x3E =>
      if v.md % 2 = 1 then bad (decide (2 ^ laneWidth t ≤ v.e 0)) (r.extWord 0)
      else
        match p.entry (v.e 0 % 65536) with
        | none => bad true (r.extWord 0)
        | some e => pool (e.val.length != 16 || decide (2 ^ (laneWidth t * laneCount t) ≤ leNat (poolBytes e.val))) e.widx
    | _ => []

/-- Check 3. -/
def typeFaults (p : Parsed) : List Reject :=
  p.recs.flatMap (fun r =>
    let v := r.val
    let inp (q : Nat) := tarcs (p.inArcs v.site q)
    let out (q : Nat) := tarcs (p.outArcs v.site q)
    let types := (typeRules v inp out).filterMap (fun x =>
      if x.2 then none
      else (leastOf (x.1.map Prod.fst)).map (fun n =>
        ({ site := v.site, widx := ((p.arcs[n]?).map At.widx).getD 0, code := 8 } : Reject)))
    types ++ limitFaults p r ((inp 0).head?.map Prod.snd) ((out 0).head?.map Prod.snd))

/-! ## Check 4: routes -/

/-- A route entry with its place in the route list. -/
abbrev REntry := Nat × At Route

/-- The route entries with their places. -/
def Parsed.entries (p : Parsed) : List REntry := (p.routes.zipIdx).map (fun x => (x.2, x.1))

/-- The entries of a tile whose input is a code. -/
def entriesAt (l : List REntry) (tile inch : Nat) : List REntry :=
  l.filter (fun e => e.2.val.tile == tile && e.2.val.inch == inch)

/-- Follows a connection from one entry on: the entries of the path and the site of its delivery, if it has one (R222). -/
def follow (l : List REntry) : Nat → REntry → List REntry × Option Nat
  | 0, e => ([e], none)
  | n + 1, e =>
    let o := e.2.val.outch
    if o ≥ 16 then ([e], some (e.2.val.tile * 8 + (o - 16)))
    else
      match neighbour e.2.val.tile (o / 4) with
      | none => ([e], none)
      | some t =>
        match entriesAt l t ((o / 4 + 2) % 4 * 4 + o % 4) with
        | [] => ([e], none)
        | x :: _ =>
          let (path, d) := follow l n x
          (e :: path, d)

/-- The paths that begin at an output port of an element (R222). -/
def pathsFrom (l : List REntry) (site port : Nat) : List (List REntry × Option Nat) :=
  (entriesAt l (siteTile site) (16 + 2 * (site % 8) + port)).map (follow l l.length)

/-- Pairs the element-consumer arcs of one port with its paths by delivery site: the arcs each with its path, if it has
one, and the paths left over. -/
def pairPaths : List (Nat × At ArcWord) → List (List REntry × Option Nat) →
    List ((Nat × At ArcWord) × Option (List REntry)) × List (List REntry × Option Nat)
  | [], ps => ([], ps)
  | a :: as, ps =>
    match ps.find? (fun q => q.2 == some a.2.val.csite) with
    | none =>
      let (r, left) := pairPaths as ps
      ((a, none) :: r, left)
    | some q =>
      let (r, left) := pairPaths as (ps.erase q)
      ((a, some q.1) :: r, left)

/-- The element output ports of the arc table, each once. -/
def Parsed.outPorts (p : Parsed) : List (Nat × Nat) :=
  (p.arcs.filterMap (fun a => if a.val.pseq then none else some (a.val.psite, a.val.pport))).eraseDups

/-- The arcs of a port whose consumer is an element. -/
def Parsed.elementArcs (p : Parsed) (site port : Nat) : List (Nat × At ArcWord) :=
  (p.outArcs site port).filter (fun a => !a.2.val.cseq)

/-- The routed arcs: each element-to-element arc with its path, if it has one. -/
def Parsed.routed (p : Parsed) : List ((Nat × At ArcWord) × Option (List REntry)) :=
  p.outPorts.flatMap (fun q => (pairPaths (p.elementArcs q.1 q.2) (pathsFrom p.entries q.1 q.2)).1)

/-- The failing arc of a port: its first route entry among the paths left over, or its arc word (R86). -/
def traceFaults (p : Parsed) (q : Nat × Nat) : List Reject :=
  let arcs := p.elementArcs q.1 q.2
  let (paired, left) := pairPaths arcs (pathsFrom p.entries q.1 q.2)
  let fail (w : Nat) : List Reject := [{ site := noSite, widx := w, code := 0xC }]
  let leftWord := leastOf (left.flatMap (fun x => x.1.map (fun e => e.2.widx)))
  match paired.find? (fun x => x.2 == none) with
  | some x => fail (leftWord.getD x.1.2.widx)
  | none =>
    match leftWord with
    | some w => fail w
    | none =>
      match arcs with
      | [a, b] => if a.2.val.csite = b.2.val.csite then
          fail ((leastOf (((paired.getD 1 (b, none)).2.getD []).map (fun e => e.2.widx))).getD b.2.widx) else []
      | _ => []

/-- Conflicts between entries: two words that drive one neighbour channel, or that one neighbour channel feeds (R80,
R221). -/
def switchFaults : List REntry → List REntry → List Reject
  | _, [] => []
  | before, e :: rest =>
    let v := e.2.val
    let bad := before.any (fun b => b.2.val.tile == v.tile &&
      ((b.2.val.outch == v.outch && decide (v.outch < 16)) || (b.2.val.inch == v.inch && decide (v.inch < 16))))
    (if bad then [{ site := noSite, widx := e.2.widx, code := 0xC }] else []) ++ switchFaults (before ++ [e]) rest

/-- Check 4. -/
def routeFaults (p : Parsed) : List Reject :=
  let used := p.outPorts.flatMap (fun q =>
    if (p.elementArcs q.1 q.2).isEmpty then [] else (pathsFrom p.entries q.1 q.2).flatMap (fun x => x.1.map Prod.fst))
  switchFaults [] p.entries ++ p.outPorts.flatMap (traceFaults p) ++
    (p.entries.filter (fun e => !used.contains e.1)).map (fun e => { site := noSite, widx := e.2.widx, code := 0xC })

/-! ## Checks 5 and 6: slots, pools and borders -/

/-- The path of an arc; none for an arc with a sequencer end (R223). -/
def Parsed.pathOf (routed : List ((Nat × At ArcWord) × Option (List REntry))) (n : Nat) : List REntry :=
  ((routed.find? (fun x => x.1.1 == n)).bind Prod.snd).getD []

/-- E of an arc (R217). -/
def pathElastic (l : List REntry) : Nat := (l.filter (fun e => e.2.val.elastic)).length

/-- L of an arc (R217). -/
def pathLatch (l : List REntry) : Nat := l.foldl (fun s e => s + e.2.val.latch) 0

/-- Every arc with its path. -/
abbrev Routed := List ((Nat × At ArcWord) × List REntry)

/-- Every arc of the table with its path. -/
def Parsed.allRouted (p : Parsed) : Routed :=
  let routed := p.routed
  p.numbered.map (fun a => (a, Parsed.pathOf routed a.1))

/-- Check 5 (R217, R218). -/
def slotFaults (rt : Routed) : List Reject :=
  let need (x : (Nat × At ArcWord) × List REntry) : Nat := pathElastic x.2 + pathLatch x.2
  let into (t : Nat) : Routed := rt.filter (fun x => !x.1.2.val.cseq && siteTile x.1.2.val.csite == t)
  (rt.filter (fun x => decide (x.1.2.val.slots < need x))).map (fun x => { site := noSite, widx := x.1.2.widx, code := 0x11 }) ++
  (List.range 64).flatMap (fun t =>
    let l := into t
    if l.length + (l.map (fun x => x.1.2.val.slots - need x)).sum ≤ 64 then []
    else (l.getLast?.map (fun x => ({ site := noSite, widx := x.1.2.widx, code := 0x11 } : Reject))).toList)

/-- Check 6 (R143). -/
def borderFaults (rt : Routed) : List Reject :=
  rt.filterMap (fun x =>
    let cross := x.2.filter (fun e => crossesBorder e.2.val.tile e.2.val.outch)
    if cross.isEmpty then none
    else if x.1.2.val.slots < 2 ∨ cross.any (fun e => !e.2.val.elastic) then
      some { site := noSite, widx := x.1.2.widx, code := 0xA }
    else none)

/-! ## Check 7: cycles (R225) -/

/-- An arc between elements as the cycle check sees it: number, ends, slots. -/
structure CArc where
  n : Nat
  src : Nat
  dst : Nat
  slots : Nat

/-- Some path of elements not yet seen leads from a site to a goal with at most `room` more slots than CARRY elements on
it; `room` counts the CARRY elements passed so far less the slots spent. -/
def reaches (arcs : List CArc) (carry : Nat → Bool) (goal : Nat) : Nat → List Nat → Nat → Int → Bool
  | 0, _, _, _ => false
  | fuel + 1, seen, here, room =>
    (arcs.filter (fun a => a.src == here)).any (fun a =>
      let room1 := room - a.slots
      if a.dst = goal then decide (0 ≤ room1)
      else !seen.contains a.dst &&
        reaches arcs carry goal fuel (a.dst :: seen) a.dst (room1 + if carry a.dst then 1 else 0))

/-- The arc lies on a directed cycle of elements with no more slots than CARRY elements (R225). -/
def onBadCycle (arcs : List CArc) (carry : Nat → Bool) (a : CArc) : Bool :=
  let one (s : Nat) : Int := if carry s then 1 else 0
  if a.src = a.dst then decide ((a.slots : Int) ≤ one a.src)
  else reaches arcs carry a.src arcs.length [a.dst] a.dst (one a.src + one a.dst - a.slots)

/-- Arcs that lie on some cycle at all: what remains once arcs from sites that nothing enters, and into sites that nothing
leaves, are taken away. -/
def pruneArcs : Nat → List CArc → List CArc
  | 0, l => l
  | n + 1, l =>
    let l' := l.filter (fun a => l.any (fun b => b.dst == a.src) && l.any (fun b => b.src == a.dst))
    if l'.length = l.length then l else pruneArcs n l'

/-- Check 7. -/
def cycleFaults (p : Parsed) : List Reject :=
  let carry (s : Nat) : Bool := match p.recAt s with
    | some r => r.val.isOp .ve 0x3A
    | none => false
  let arcs := pruneArcs p.arcs.length (p.numbered.filterMap (fun a =>
    if a.2.val.pseq || a.2.val.cseq then none
    else some { n := a.1, src := a.2.val.psite, dst := a.2.val.csite, slots := a.2.val.slots }))
  match arcs.find? (onBadCycle arcs carry) with
  | none => []
  | some a => [{ site := noSite, widx := ((p.arcs[a.n]?).map At.widx).getD 0, code := 9 }]

/-! ## Check 8: store regions -/

/-- The fields of a store-mode word (R81). -/
def storeMode (w : W32) : Nat := bits w.toNat 31 30
def storeNb (w : W32) : Nat := bits w.toNat 29 28 + 1
def storeBase (w : W32) : Nat := bits w.toNat 27 16
def storeLen (w : W32) : Nat := bits w.toNat 15 4

/-- Byte ranges overlap. -/
def overlap (a la b lb : Nat) : Bool := decide (a < b + lb) && decide (b < a + la)

/-- The byte range of a store region. -/
def storeByteBase (w : W32) : Nat := 64 * storeBase w
def storeByteLen (w : W32) : Nat := 64 * storeLen w

/-- Overlapping entries, and a ninth entry of a tile (R81). R81 gives the ninth no code and no word: that it fails check 8 with
0x000D at its second word is a DESIGN CHOICE (log entry 53). -/
def storeOverlaps : List (At Store) → List (At Store) → List Reject
  | _, [] => []
  | before, x :: rest =>
    let mine := before.filter (fun b => b.val.tile == x.val.tile)
    let bad := decide (8 ≤ mine.length) || mine.any (fun b =>
      overlap (storeBase b.val.word) (storeLen b.val.word) (storeBase x.val.word) (storeLen x.val.word))
    (if bad then [{ site := noSite, widx := x.widx + 1, code := 0xD }] else []) ++ storeOverlaps (before ++ [x]) rest

/-- The roles of an address generator at a store region: 1 stores, 2 loads (R292). -/
def agRole (opc : Nat) : Nat :=
  match opc with
  | 2 | 7 => 1
  | 1 | 3 | 5 => 2
  | _ => 0

/-- The lines of the tile of member `i` of a scatter set that a descriptor names: the first and their number (R299). -/
def Desc.scatterLines (d : Desc) (i : Nat) : Nat × Nat :=
  let n := 2 ^ d.ilk
  let below (u : Nat) : Nat := (u + (n - 1 - i)) / n
  (below (d.base / 64), below ((d.base + d.extent) / 64) - below (d.base / 64))

/-- The bytes of a tile's store that a record's accesses name, in shifted tiles: the first and their number (R292, R298,
R299, R394). -/
def tileRange (p : Parsed) (dx dy : Int) (r : Rec) (tile : Nat) : Option (Nat × Nat) :=
  let shift (t : Nat) : Nat := (shiftTile dx dy t).getD t
  match r.kind with
  | .ow =>
    match p.entry (r.e 0 % 65536) with
    | none => none
    | some e =>
      if poolWord e.val 0 % 4 = 0 ∧ (r.sites.map siteTile).contains tile then
        some (rangeBase e.val, rangeExtent e.val / r.copies)
      else none
  | _ =>
    match p.pattern r with
    | none => none
    | some d =>
      if d.val.space ≠ 0 then none
      else if r.isOp .ag 4 then
        (indexOf? ((scatterSet d.val.tile d.val.ilk).map shift) tile).map (fun i =>
          (64 * (d.val.scatterLines i).1, 64 * (d.val.scatterLines i).2))
      else if shift d.val.tile = tile then some (d.val.base, d.val.extent)
      else none

/-- The record's descriptor lies wholly in a region as its mode allows (R292). -/
def namesRightly (p : Parsed) (r : Rec) (w : W32) : Bool :=
  match p.pattern r with
  | none => false
  | some d =>
    r.kind == .ag && agRole r.opc != 0 && d.val.base == storeByteBase w &&
      (match storeMode w with
      | 1 => decide (d.val.extent ≤ 64 * (storeLen w / storeNb w))
      | 2 => d.val.extent == storeByteLen w && r.opc != 3
      | _ => decide (d.val.extent ≤ storeByteLen w))

/-- The record names lines of a store region. -/
def namesRegion (p : Parsed) (dx dy : Int) (x : Store) (r : Rec) : Bool :=
  match tileRange p dx dy r x.tile with
  | none => false
  | some (b, l) => l != 0 && overlap b l (storeByteBase x.word) (storeByteLen x.word)

/-- The failures at one MULTI, FIFO or LINE region (R292). -/
def regionFaults (p : Parsed) (dx dy : Int) (x : At Store) : List Reject :=
  if storeMode x.val.word = 0 then []
  else
    let named := p.recs.filter (fun r => namesRegion p dx dy x.val r.val)
    let wrong := named.filter (fun r => !namesRightly p r.val x.val.word)
    let role (n : Nat) := named.filter (fun r => r.val.kind == .ag && agRole r.val.opc == n)
    let second (n : Nat) := (role n).drop 1
    let own : List Reject := [{ site := noSite, widx := x.widx + 1, code := 0xD }]
    (if (role 1).isEmpty || (role 2).isEmpty then own else []) ++
    (wrong ++ second 1 ++ second 2).map (fun r => { site := r.val.site, widx := r.opWord, code := 0xD })

/-- Check 8. -/
def storeFaults (p : Parsed) (dx dy : Int) : List Reject :=
  storeOverlaps [] p.stores ++ p.stores.flatMap (regionFaults p dx dy)

/-! ## Check 9: descriptors -/

/-- The record is a loading address generator of a LINE region (R298). -/
def loadsLine (p : Parsed) (dx dy : Int) (r : Rec) : Bool :=
  r.kind == .ag && agRole r.opc == 2 &&
    p.stores.any (fun x => storeMode x.val.word == 3 && namesRegion p dx dy x.val r)

/-- What a record asks of its pattern descriptor beside what its words say by themselves (R86, R298). -/
def descOk (p : Parsed) (dx dy : Int) (r : Rec) (l : List W32) : Bool :=
  let d := descOf l
  let scatter := r.isOp .ag 4
  let indexed := scatter || r.isOp .ag 3
  let above := (List.range 5).all (fun i => decide (i < d.nd) || (d.counts.getD i 0 == 0 && d.strides.getD i 0 == 0))
  (descWordFault l).isNone && above && d.extent != 0 &&
    (if indexed then d.word15 != 0#32 else d.word15.toNat % 64 == 0) &&
    !(d.space == 0 && r.isOp .ag 6) &&
    (if scatter && d.space == 0 then (scatterSet d.tile d.ilk).length == 2 ^ d.ilk else d.ilk == 0) &&
    (d.adv == 0 || loadsLine p dx dy r)

/-- kb of a DLOAD (R275, R331). -/
def kbOf (t : Nat) : Nat := laneCount t / 32

/-- An owner range descriptor's layout (R394). -/
def ownerOk (l : List W32) (n : Nat) : Bool :=
  l.length == 8 && decide (poolWord l 0 < 3) && rangeBase l % 64 == 0 && rangeExtent l != 0 && rangeExtent l % (64 * n) == 0 &&
    poolWord l 5 == 0 && poolWord l 6 == 0 && poolWord l 7 == 0

/-- A remote descriptor's layout (R355). -/
def remoteOk (l : List W32) : Bool :=
  l.length == 8 && decide (poolWord l 0 % 16 ≤ 8 ∧ poolWord l 0 < 32) && rangeBase l % 64 == 0 && rangeExtent l % 64 == 0 &&
    rangeBase l != 0 && rangeExtent l != 0 && poolWord l 5 == 0 && poolWord l 6 == 0 && poolWord l 7 == 0

/-- The record updates an owner range (R394). -/
def Rec.updates (r : Rec) : Bool := r.kind == .ow && r.opc != 0xB

/-- Check 9 of one record, given the records before it in image order: a failure at a pool entry, which several elements may
name, concerns no single one. An E0 or E1 that names no pool entry has no count word: WIDX names the extension word. An EREQ
or ERESP without its mate is put at the operation word. Both are the model's choice (log entry 35). -/
def descFaultsOf (p : Parsed) (dx dy : Int) (before : List (At Rec)) (r : At Rec) : List Reject :=
  let v := r.val
  let bad (b : Bool) (w : Nat) : List Reject := if b then [{ site := v.site, widx := w, code := 2 }] else []
  let pool (b : Bool) (w : Nat) : List Reject := if b then [{ site := noSite, widx := w, code := 2 }] else []
  match v.kind with
  | .ag =>
    match p.entry (v.e 0 % 65536) with
    | none => bad true (r.extWord 0)
    | some e =>
      let d := descOf e.val
      let set (q : Rec) : Option (List Nat) := match p.pattern q with
        | some x => if q.isOp .ag 4 && x.val.space == 0 then some (scatterSet x.val.tile x.val.ilk) else none
        | none => none
      let aTy := ((p.outArcs v.site 0).head?.map (fun a => a.2.val.ty)).getD 0
      pool (!descOk p dx dy v e.val) e.widx ++
      pool (v.opc == 5 && (d.dims.map Prod.fst).foldl (· * ·) 1 * kbOf aTy != 64) e.widx ++
      bad (v.repm != 0 && p.stores.any (fun x => storeMode x.val.word != 0 && namesRegion p dx dy x.val v)) e.widx ++
      pool (match set v with
        | none => false
        | some s => before.any (fun b => match set b.val with
          | none => false
          | some s' => s' != s)) e.widx
  | .hd =>
    if v.opc = 3 ∨ v.opc = 4 then
      if v.e 1 / 65536 % 2 = 1 then []
      else
        match p.entry (v.e 1 % 65536) with
        | none => bad true (r.extWord 1)
        | some e => pool (!descOk p dx dy v e.val) e.widx
    else []
  | .ow =>
    match p.entry (v.e 0 % 65536) with
    | none => bad true (r.extWord 0)
    | some e =>
      pool (!ownerOk e.val v.copies || (v.updates && before.any (fun b => b.val.updates &&
        (b.val.e 0 % 65536 == v.e 0 % 65536 ||
          (match p.entry (b.val.e 0 % 65536) with
          | none => false
          | some f => poolWord f.val 0 % 4 == poolWord e.val 0 % 4 &&
              overlap (rangeBase f.val) (rangeExtent f.val) (rangeBase e.val) (rangeExtent e.val)))))) e.widx
  | .br =>
    if v.opc = 3 ∨ v.opc = 4 then
      match p.entry (v.e 0 % 65536) with
      | none => bad true (r.extWord 0)
      | some e => pool (!remoteOk e.val) e.widx
    else if v.opc = 1 ∨ v.opc = 2 then
      let mates (o : Nat) := p.recs.filter (fun q => q.val.isOp .br o && q.val.e 0 == v.e 0)
      bad ((mates 1).length != 1 || (mates 2).length != 1) r.opWord
    else []
  | _ => []

/-- Check 9. -/
def descFaults (p : Parsed) (dx dy : Int) : List (At Rec) → List (At Rec) → List Reject
  | _, [] => []
  | before, r :: rest => descFaultsOf p dx dy before r ++ descFaults p dx dy (before ++ [r]) rest

/-! ## Check 10: bounds -/

/-- Check 10 (R301, R394). -/
def boundFaults (p : Parsed) (part : Nat) : List Reject :=
  p.recs.filterMap (fun r =>
    let v := r.val
    let fail (w : Nat) : Option Reject := some { site := noSite, widx := w, code := 0xB }
    match v.kind with
    | .ow =>
      match p.entry (v.e 0 % 65536) with
      | none => none
      | some e =>
        let space := poolWord e.val 0 % 4
        if space = 0 then (if rangeBase e.val + rangeExtent e.val / v.copies > tileBytes then fail e.widx else none)
        else if rangeBase e.val + rangeExtent e.val > spaceLimit space part 1 then fail e.widx
        else none
    | _ =>
      match p.pattern v with
      | none => none
      | some d =>
        let tiles := if v.isOp .ag 4 then 2 ^ d.val.ilk else 1
        let indexed := v.isOp .ag 3 || v.isOp .ag 4 || v.kind == .hd
        if d.val.base + d.val.extent > spaceLimit d.val.space part tiles then fail d.widx
        else if !indexed && !d.val.inBounds d.val.start then fail d.widx
        else none)

/-! ## Check 11: run tables and mask programs -/

/-- The clauses of a program: maximal runs of atoms ending at EOC (R84). -/
def clausesOf : List Atom → List Atom → List (List Atom)
  | [], [] => []
  | cur, [] => [cur]
  | cur, a :: rest => if a.eoc then (cur ++ [a]) :: clausesOf [] rest else clausesOf (cur ++ [a]) rest

/-- A mask program as a whole (R84). -/
def maskOk (l : List Atom) : Bool :=
  let cs := clausesOf [] l
  decide (1 ≤ l.length ∧ l.length ≤ 48 ∧ cs.length ≤ 8) && cs.all (fun c => decide (c.length ≤ 6)) &&
    (match l.reverse with
    | [] => false
    | a :: before => a.eop && before.all (fun b => !b.eop)) &&
    l.all (fun a =>
      match a.aop with
      | 2 | 3 => decide (a.p ≤ a.b.toNat)
      | 6 => decide (a.b.toNat ≤ a.p)
      | _ => true)

/-- A program uses the document-run table (R83, R316). -/
def usesTable (l : List Atom) : Bool := l.any (fun a => a.aop == 4 || a.aop == 5)

/-- The mask failures of check 11 (R84, R316). A record that names no mask program has no count word, and WIDX names its
operation word: the model's choice (log entry 35). -/
def maskFaults (p : Parsed) : List Reject :=
  (p.masks.filter (fun m => !maskOk m.val)).map (fun m => { site := noSite, widx := m.widx, code := 0xE }) ++
  p.recs.filterMap (fun r =>
    let v := r.val
    if v.kind = .hd ∧ (v.opc = 3 ∨ v.opc = 4) then
      match p.masks[v.e 0 % 65536]? with
      | none => some { site := v.site, widx := r.opWord, code := 0xE }
      | some m => if v.e 1 / 65536 % 2 = 1 ∧ usesTable m.val then some { site := v.site, widx := m.widx, code := 0xE } else none
    else none)

/-- A run table's descriptor has the form of R320 and stays in bounds (R321). -/
def tableDescOk (d : Desc) : Bool :=
  d.nd == 1 && d.strides.getD 0 0 == 64 && decide (1 ≤ d.counts.getD 0 0 ∧ d.counts.getD 0 0 ≤ 512) && d.inBounds d.start

/-- The entries of a run table: DOC, V, START and whether the reserved bits are zero (R320). -/
structure RunEntry where
  doc : Nat
  v : Bool
  start : Nat
  clean : Bool
  zero : Bool
  deriving DecidableEq, Repr

/-- The entries of a run table's bytes (R320). -/
def runEntries (bs : List Byte) : List RunEntry :=
  (List.range (bs.length / 8)).map (fun i =>
    let x := fieldLe bs (8 * i) 8
    { doc := x / 2 ^ 32, v := bits x 31 31 == 1, start := bits x 23 0, clean := bits x 30 24 == 0, zero := x == 0 })

/-- Entries after the first: runs strictly ascending, then zeros alone (R321). -/
def runsAscend : RunEntry → List RunEntry → Bool
  | _, [] => true
  | a, b :: rest => (if b.v then a.v && decide (a.start < b.start) && b.clean else b.zero) && runsAscend b rest

/-- A run table is well formed (R321). -/
def tableOk (l : List RunEntry) : Bool :=
  match l with
  | [] => false
  | a :: rest => a.v && a.start == 0 && a.clean && runsAscend a rest

/-- The records whose run table the loader reads, in image order, with their descriptors (R321). -/
def Parsed.tableRecs (p : Parsed) : List (At Rec × Desc) :=
  p.recs.filterMap (fun r =>
    if r.val.kind = .hd then (p.pattern r.val).map (fun d => (r, d.val)) else none)

/-! ## The whole pass -/

/-- Checks 1 to 10, each reporting its lowest WIDX, in order (R86). Under an offset the SITE of these failures is the shifted
site, and that of a failure of the first pass or of a record that leaves the site the image names: a DESIGN CHOICE (log entry
53). -/
def secondPass (p0 : Parsed) (dx dy : Int) (part : Nat) : Option Reject :=
  let p := p0.shift dx dy
  let rt := p.allRouted
  let checks : List (Unit → List Reject) :=
    [fun _ => (if dx = 0 ∧ dy = 0 then [] else p0.leaving dx dy) ++ siteFaults [] p.recs,
     fun _ => portFaults p ++ arcFaults p [] p.arcs,
     fun _ => typeFaults p,
     fun _ => routeFaults p,
     fun _ => slotFaults rt,
     fun _ => borderFaults rt,
     fun _ => cycleFaults p,
     fun _ => storeFaults p dx dy,
     fun _ => descFaults p dx dy [] p.recs,
     fun _ => boundFaults p part]
  checks.findSome? (fun f => firstReject (f ()))

/-- The configuration an image becomes (R192): its words as staged, each arc with E, L and the channels of its route. -/
def Parsed.staged (p0 : Parsed) (dx dy : Int) : Cfg :=
  let p := p0.shift dx dy
  { cfgid := p.cfgid
    recs := p.recs.map At.val
    arcs := p.allRouted.map (fun x => { x.1.2.val with
      elastic := pathElastic x.2, latch := pathLatch x.2
      chans := (x.2.filter (fun e => decide (e.2.val.outch < 16))).map (fun e => 32 * e.2.val.tile + e.2.val.outch) })
    routes := p.routes.map At.val
    stores := p.stores.map At.val
    masks := p.masks.map At.val
    pool := p.pool.map At.val }

end Sys2Proof.Machine
end

