-- ==== Sys2Proof/Machine/Chains.lean ====
section
/-! DEFINITION. The dispatcher's cells and semaphores: cells of address space 0 and the chains of reads on them (R103, R121,
R122), replies (R106), and the hardware semaphores with their grants (R107 to R109). -/

namespace Sys2Proof.Machine

/-- A dispatcher read of a granule (R371): answered at once when the granule is FULL or VOID, deferred when it is EMPTY. -/
def State.askCell (s : State) (rd : Reader) (p : Place) (asid : Nat) : State :=
  let add (a : Option Answer) : State :=
    { s with ports := { s.ports with
      reads := s.ports.reads ++ [{ reader := rd, place := p.granule, virt := none, asid := asid, answer := a }] } }
  match s.mem.gst p with
  | .empty => add none
  | .full => add (some (.filled (beatOf (s.unit asid p)) (s.mem.mark p)))
  | .void => add (some .voided)

/-- The place an address of address space 0 names, and whether its page is single-assignment (R122). -/
def State.as0Place (s : State) (va : Nat) : Option (Place × Bool) :=
  match s.walkOf 0 va with
  | .ok l => some (s.hbmPlace (l.phys + va % l.size), l.sa)
  | .error _ => none

/-- The address names a single-assignment granule of address space 0 (R103, R122). -/
def State.as0Cell (s : State) (va : Nat) : Bool :=
  match s.as0Place va with
  | some (_, sa) => sa
  | none => false

/-- Reads are posted on the `g` granules of a cell from `va` on. -/
def State.askGranules (s : State) (rd : Reader) (va : Nat) : Nat → State
  | 0 => s
  | g + 1 =>
    match s.as0Place va with
    | some (p, _) => (s.askCell rd p 0).askGranules rd (va + 64) g
    | none => s

/-- The bytes of a cell's `g` granules, once every one of a chain's reads on it has been answered by a fill. -/
def State.cellBytes (s : State) (rd : Reader) (va : Nat) : Nat → Option (List Byte)
  | 0 => some []
  | g + 1 =>
    match s.as0Place va with
    | none => none
    | some (p, _) =>
      match s.answerAt rd p with
      | some (.filled b _) => (State.cellBytes s rd (va + 64) g).map (fun r => beatBytes b ++ r)
      | _ => none

/-- A 64-byte cell of address space 0 is filled (R106, R125, R433): the bytes given, the rest zero. A cell that is
misaligned, is not single-assignment or is not EMPTY is left as it is. -/
def State.fillCell (s : State) (va : Nat) (bs : List Byte) : State :=
  if va % 64 ≠ 0 then s
  else
    match s.as0Place va with
    | some (p, true) =>
      match s.storeAt 0 p true (padTo bs 64) false with
      | .ok s1 => s1
      | .presence _ => s
    | _ => s

/-- The reply of a command (R106): the status in the first 8 bytes. -/
def State.reply (s : State) (cell : W64) (status : Nat) : State := s.fillCell cell.toNat (leBytes 8 status)

/-- A port's number (R434): 0 for CP-A, 1 for CP-B. -/
def portNum : PortId → Nat
  | .a => 0
  | .b => 1

/-- The state with a port written. -/
def State.setPort (s : State) (p : PortId) (x : Port) : State := { s with disp := s.disp.setPort p x }

/-- A port. -/
def State.port (s : State) (p : PortId) : Port := s.disp.port p

/-- The command chain's first cell (R121). -/
def firstCommand (p : PortId) : W64 := 0x10000#64 + BitVec.ofNat 64 (64 * portNum p)

/-- The security chain's first cell (R121). -/
def firstSecurity (p : PortId) : W64 := 0x10080#64 + BitVec.ofNat 64 (128 * portNum p)

/-- The command chain waits on its next cell (R103). -/
def State.postCommand (s : State) (p : PortId) (cell : W64) : State :=
  (s.setPort p { s.port p with cmd := some cell }).askGranules (.command p) cell.toNat 1

/-- The security chain waits on its next cell (R124). -/
def State.postSecurity (s : State) (p : PortId) (cell : W64) : State :=
  (s.setPort p { s.port p with sec := some cell }).askGranules (.security p) cell.toNat 2

/-- The command chain moves on: it stops with an alert at a NEXT that is misaligned or no single-assignment granule of
address space 0 (R103). -/
def State.advanceCommand (s : State) (p : PortId) (next : W64) : State :=
  let s := s.dropReads (fun r => r == .command p)
  if next.toNat % 64 = 0 ∧ s.as0Cell next.toNat then s.postCommand p next
  else (s.setPort p { s.port p with cmd := none }).notify (.chainStopped (portNum p))

/-- The security chain moves on (R103, R124); both granules of a cell are reads of the chain. -/
def State.advanceSecurity (s : State) (p : PortId) (next : W64) : State :=
  let s := s.dropReads (fun r => r == .security p)
  if next.toNat % 128 = 0 ∧ s.as0Cell next.toNat then s.postSecurity p next
  else (s.setPort p { s.port p with sec := none }).notify (.chainStopped (2 + portNum p))

/-! ## Semaphores -/

/-- A semaphore nobody holds (R107). -/
def Sem.free : Sem := { holder := 0x1FF, kept := none, waiters := [] }

/-- A semaphore. -/
def State.sem (s : State) (n : Nat) : Sem := Table.get s.disp.sems n Sem.free

/-- A code holds a semaphore: no saved cluster does (R107, R382). -/
def Sem.heldBy (x : Sem) (code : Nat) : Bool := x.kept.isNone && x.holder == code

/-- The state with a semaphore written; a free one is not listed. -/
def State.setSem (s : State) (n : Nat) (x : Sem) : State :=
  { s with disp := { s.disp with sems := if x = Sem.free then Table.del s.disp.sems n else Table.put s.disp.sems n x } }

/-- How far a code stands after the releaser's, ascending and wrapping after 0x1FE (R108). -/
def afterCode (releaser w : Nat) : Nat := (w + 0x1FF - releaser - 1) % 0x1FF

/-- The waiting code that comes first after the releaser's (R108). -/
def nextWaiter (releaser : Nat) : List Nat → Option Nat
  | [] => none
  | w :: ws =>
    match nextWaiter releaser ws with
    | none => some w
    | some v => if afterCode releaser w ≤ afterCode releaser v then some w else some v

/-- What a grant does for its requester (R108, R381): a waiting SEMA completes; a SEM_ACQ is answered OK and its chain
moves on. -/
def State.granted (s : State) (code : Nat) : State :=
  let port (p : PortId) : State :=
    match (s.port p).acq with
    | none => s
    | some a => ((s.setPort p { s.port p with acq := none }).reply a.reply 0).advanceCommand p a.next
  if code = 0x100 then port .a
  else if code = 0x101 then port .b
  else if code = 0x102 then s.setCore .mc s.mc.retire
  else s.setCore (.seq code) (s.core (.seq code)).retire

/-- A semaphore is released (R108): it goes to the waiter that comes first after the releaser's code, or is free. -/
def State.releaseSem (s : State) (n releaser : Nat) : State :=
  match nextWaiter releaser (s.sem n).waiters with
  | none => s.setSem n Sem.free
  | some w =>
    (s.setSem n { holder := w, kept := none, waiters := (s.sem n).waiters.filter (fun x => x != w) }).granted w

/-- Every semaphore a code holds is released, in ascending order (R109). -/
def State.releaseAll (s : State) (code : Nat) : State :=
  (s.disp.sems.filter (fun e => e.2.heldBy code)).foldl (fun s e => s.releaseSem e.1 code) s

/-- A code's waiting requests are withdrawn (R382). -/
def State.withdrawSem (s : State) (code : Nat) : State :=
  { s with disp := { s.disp with sems :=
      (s.disp.sems.map (fun e => (e.1, { e.2 with waiters := e.2.waiters.filter (fun x => x != code) }))) } }

end Sys2Proof.Machine
end

