-- ==== Sys2Proof/Machine/Sync.lean ====
section
/-! DEFINITION. Synchronisation instructions of a core (R380 to R391): semaphores, the cluster barrier, scoped loads and
stores, atomics, fences, presence instructions, SC accesses and the ring's event that performs them. The accesses of a core
are performed at once and in program order (log entry 6), so the orders of R364 and R367 hold of them whatever the scope. -/

namespace Sys2Proof.Machine

/-- LDA (R386): loads as LD.64 or LD.N32. -/
def execLda (d a : SReg) (scope : Scope) (w : Width) (s : State) : Out :=
  coreLoad s (.lda d a scope w) (s.me.reg a) (widthBytes w) .read false (fun bs c => c.setReg d (BitVec.ofNat 64 (leNat bs)))

/-- STL (R386): stores as ST.64 or ST.32. -/
def execStl (a b : SReg) (scope : Scope) (w : Width) (s : State) : Out :=
  coreStore s (.stl a b scope w) (s.me.reg a) (leBytes (widthBytes w) (s.me.reg b).toNat)

/-- An atomic of a core (R387): the checks in their order, then the read and the write as one event at the port. `f` takes
the old value and the operand, each of the access's width, and gives the new value, if any. -/
def atomic (s : State) (i : Instr) (d a b : SReg) (w : Width) (f : W64 → W64 → Option W64) : Out :=
  let n := widthBytes w
  let ea := s.me.reg a
  let info (g : Nat) : W64 := tinfo 0 g (s.spaceOf ea) false true (lgw n)
  if !aligned ea n then trap s i causeMisaligned ea (info 0)
  else
    match s.coreResolve ea .write with
    | (s1, .trap c) => trap s1 i c ea (info 0)
    | (s1, .fatal c) => coreFatal s1 c
    | (s1, .ok p sa) =>
      if p.isHost then trap s1 i causePermission ea (info 0)
      else if s1.coreEcc p then coreFatal s1 0x10
      else if sa then trap s1 i causePresence ea (info (s1.mem.gst p).code)
      else
        let asid := s.coreAsid s.cur
        let old : W64 := BitVec.ofNat 64 (leNat (s1.loadBytes asid p n))
        let operand : W64 := BitVec.ofNat 64 ((s.me.reg b).toNat % 2 ^ (8 * n))
        let s2 := match f old operand with
          | none => s1
          | some v => s1.storeBytes asid p (leBytes n v.toNat)
        done (s2.charge (s.coreCluster s.cur) p) (fun c => c.setReg d old)

/-- AADD (R387). -/
def execAadd (d a b : SReg) (scope : Scope) (w : Width) (s : State) : Out :=
  atomic s (.aadd d a b scope w) d a b w (fun x y => some (x + y))

/-- AAND (R387). -/
def execAand (d a b : SReg) (scope : Scope) (w : Width) (s : State) : Out :=
  atomic s (.aand d a b scope w) d a b w (fun x y => some (x &&& y))

/-- AOR (R387). -/
def execAor (d a b : SReg) (scope : Scope) (w : Width) (s : State) : Out :=
  atomic s (.aor d a b scope w) d a b w (fun x y => some (x ||| y))

/-- AXOR (R387). -/
def execAxor (d a b : SReg) (scope : Scope) (w : Width) (s : State) : Out :=
  atomic s (.axor d a b scope w) d a b w (fun x y => some (x ^^^ y))

/-- AMIN (R387). -/
def execAmin (d a b : SReg) (scope : Scope) (w : Width) (s : State) : Out :=
  atomic s (.amin d a b scope w) d a b w (fun x y => some (if signed x.toNat (8 * widthBytes w) < signed y.toNat (8 * widthBytes w) then x else y))

/-- AMAX (R387). -/
def execAmax (d a b : SReg) (scope : Scope) (w : Width) (s : State) : Out :=
  atomic s (.amax d a b scope w) d a b w (fun x y => some (if signed x.toNat (8 * widthBytes w) < signed y.toNat (8 * widthBytes w) then y else x))

/-- AMINN (R387). -/
def execAminn (d a b : SReg) (scope : Scope) (w : Width) (s : State) : Out :=
  atomic s (.aminn d a b scope w) d a b w (fun x y => some (if x.ult y then x else y))

/-- AMAXN (R387). -/
def execAmaxn (d a b : SReg) (scope : Scope) (w : Width) (s : State) : Out :=
  atomic s (.amaxn d a b scope w) d a b w (fun x y => some (if x.ult y then y else x))

/-- ASWP (R387). -/
def execAswp (d a b : SReg) (scope : Scope) (w : Width) (s : State) : Out :=
  atomic s (.aswp d a b scope w) d a b w (fun _ y => some y)

/-- ACAS (R387): sd holds the comparand; nothing is written unless it matches. -/
def execAcas (d a b : SReg) (scope : Scope) (w : Width) (s : State) : Out :=
  atomic s (.acas d a b scope w) d a b w (fun x y =>
    if x.toNat = (s.me.reg d).toNat % 2 ^ (8 * widthBytes w) then some y else none)

/-- A fence performs no access and completes (R388): every earlier access of the core has been performed (log entry 6). -/
def fenced (_scope : Scope) (s : State) : Out := onCore s id

/-- FENCE (R388). -/
def execFence (scope : Scope) (s : State) : Out := fenced scope s

/-- FENCE.ACQ (R388). -/
def execFenceAcq (scope : Scope) (s : State) : Out := fenced scope s

/-- FENCE.REL (R388). -/
def execFenceRel (scope : Scope) (s : State) : Out := fenced scope s

/-- LDF (R389): a load that requires a single-assignment granule. -/
def execLdf (d a : SReg) (scope : Scope) (w : Width) (s : State) : Out :=
  coreLoad s (.ldf d a scope w) (s.me.reg a) (widthBytes w) .presence true
    (fun bs c => c.setReg d (BitVec.ofNat 64 (leNat bs)))

/-- A presence instruction on a granule (R389): the checks, then its act on the granule. -/
def onGranule (s : State) (i : Instr) (a : SReg) (wr : Bool) (k : State → Place → Out) : Out :=
  let ea := s.me.reg a
  let info : W64 := tinfo 0 0 (s.spaceOf ea) true wr 6
  if !aligned ea 64 then trap s i causeMisaligned ea info
  else
    match s.coreResolve ea .presence with
    | (s1, .trap c) => trap s1 i c ea info
    | (s1, .fatal c) => coreFatal s1 c
    | (s1, .ok p _) => k s1 p

/-- PCLR (R389): the granule becomes EMPTY; its bytes stay, and reads deferred there stay deferred. -/
def execPclr (a : SReg) (s : State) : Out := onGranule s (.pclr a) a true (fun s1 p => done (s1.clearGranule p) id)

/-- PROBE (R389): the state of the granule. -/
def execProbe (d a : SReg) (s : State) : Out :=
  onGranule s (.probe d a) a false (fun s1 p =>
    done s1 (fun c => c.setReg d (BitVec.ofNat 64 (s1.mem.gst p).code)))

/-! ## SC accesses -/

/-- An SC access of a core (R391): the checks, then the access waits for the ring; once performed, the instruction
completes. -/
def scAccess (s : State) (i : Instr) (a : SReg) (w : Width) (store : Option W64) (k : W64 → Core → Core) : Out :=
  match s.me.wait with
  | .scDone _ v => done s (k v)
  | .scPosted => .next s
  | _ =>
    let n := widthBytes w
    let ea := s.me.reg a
    let info (g : Nat) : W64 := tinfo 0 g (s.spaceOf ea) false store.isSome (lgw n)
    if !aligned ea n then trap s i causeMisaligned ea (info 0)
    else
      match s.coreResolve ea (if store.isSome then .write else .read) with
      | (s1, .trap c) => trap s1 i c ea (info 0)
      | (s1, .fatal c) => coreFatal s1 c
      | (s1, .ok p sa) =>
        if !p.isLocal then trap s1 i causePermission ea (info 0)
        else if sa then trap s1 i causePresence ea (info (s1.mem.gst p).code)
        else
          let acc : ScAccess := { core := s.cur, place := p, asid := s.coreAsid s.cur,
                                  page := (virtOf s.cur ea).bind (s.pageOf (s.coreAsid s.cur)),
                                  width := n, store := store }
          waiting { s1 with ports := { s1.ports with sc := s1.ports.sc ++ [acc] } } .scPosted

/-- SCLD (R391). -/
def execScld (d a : SReg) (w : Width) (s : State) : Out := scAccess s (.scld d a w) a w none (fun v c => c.setReg d v)

/-- SCST (R391). -/
def execScst (a b : SReg) (w : Width) (s : State) : Out :=
  scAccess s (.scst a b w) a w (some (s.me.reg b)) (fun _ c => c)

/-- SC_ACCESS_PERFORM (R374, R391): the node that holds the token performs the oldest SC access, as one event. An
uncorrectable error there is a fatal fault (R338). -/
def execScAccessPerform (s : State) : Out :=
  match s.ports.sc with
  | [] => .next s
  | x :: rest =>
    let s1 := { s with ports := { s.ports with sc := rest } }
    let c := s1.core x.core
    if s1.eccAt x.place && !coreIsMc x.core then
      match coreFatal { s1 with cur := x.core } 0x10 with
      | .next s2 => .next { s2 with cur := s.cur }
      | o => o
    else
      let v : W64 := BitVec.ofNat 64 (leNat (s1.loadBytes x.asid x.place x.width))
      let s2 := match x.store with
        | none => s1
        | some b => s1.storeBytes x.asid x.place (leBytes x.width b.toNat)
      .next ((s2.setCore x.core { c with wait := .scDone x.store.isSome v }).charge (s.coreCluster x.core) x.place)

/-! ## Semaphores and barriers -/

/-- SEMA (R381): a semaphore the core holds raises SYNC; a free one is granted at once; else the core waits for its grant,
which completes the instruction (R108). -/
def execSema (n : BitVec 6) (s : State) : Out :=
  let own := coreHolder s.cur
  let x := s.sem n.toNat
  if s.me.wait = .sema n.toNat then .next s
  else if x.heldBy own then trap s (.sema n) causeSync 0#64 0#64
  else if x.holder = 0x1FF then done (s.setSem n.toNat { x with holder := own }) id
  else waiting (s.setSem n.toNat { x with waiters := x.waiters ++ [own] }) (.sema n.toNat)

/-- SEMR (R381): releases a semaphore the core holds; another raises SYNC. -/
def execSemr (n : BitVec 6) (s : State) : Out :=
  let own := coreHolder s.cur
  if (s.sem n.toNat).heldBy own then done (s.releaseSem n.toNat own) id
  else trap s (.semr n) causeSync 0#64 0#64

/-- A sequencer waits at a barrier. -/
def Core.atBarrier (c : Core) : Bool :=
  match c.wait with
  | .bar _ => true
  | _ => false

/-- Every waiting BAR of the regions completes (R383). -/
def State.departAll (s : State) : List Nat → State
  | [] => s
  | r :: rs =>
    let c := s.core (.seq r)
    State.departAll (if c.atBarrier then s.setCore (.seq r) c.retire else s) rs

/-- BAR (R383): the arrival, and at the last one the completion of every waiting BAR in one event. -/
def execBar (scope : Scope) (s : State) : Out :=
  onSeq s (.bar scope) (fun r =>
    match s.clusterOf r with
    | none => .next s
    | some k =>
      match s.cluster? k with
      | none => .next s
      | some c =>
        if s.me.atBarrier then .next s
        else if scopeNum scope < 2 then trap s (.bar scope) causeSync 0#64 0#64
        else if c.regions.any (fun x => (s.core (.seq x)).run == .halted) then trap s (.bar scope) causeSync 0#64 0#64
        else
          let arrived := c.barArrived ||| (1#128 <<< c.indexOf r)
          if (List.range c.regions.length).all (fun x => arrived.getLsbD x) then
            done ((s.setCluster k { c with barArrived := 0#128, barGen := c.barGen + 1#32 }).departAll c.regions) id
          else waiting (s.setCluster k { c with barArrived := arrived }) (.bar (wordOf (.bar scope))))

end Sys2Proof.Machine
end

