-- ==== Sys2Proof/Machine/System.lean ====
section
/-! DEFINITION. Control and status registers (R164 to R167, R191), invalidation by the management core (R165, R152), traps,
returns, waiting and stopping (R187 to R190). -/

namespace Sys2Proof.Machine

/-! ## Invalidation (R152) -/

/-- A range of virtual addresses of an ASID: `n` units of 64 KiB from a base on, 0 for the whole address space (R152). -/
structure InvalRange where
  asid : Nat
  lo : Nat
  hi : Nat
  deriving DecidableEq, Repr

/-- The range a base and a count describe (R146, R165). -/
def invalRange (asid base count : Nat) : InvalRange :=
  if count = 0 then { asid := asid, lo := 0, hi := 2 ^ 52 } else { asid := asid, lo := base, hi := base + count * 65536 }

/-- Cached translations that overlap the range are discarded: step 1 of R152. -/
def State.discardCached (s : State) (x : InvalRange) : State :=
  { s with ports := { s.ports with
    tlb := s.ports.tlb.filter (fun c => !(c.asid == x.asid && decide (c.base < x.hi) && decide (x.lo < c.base + c.size))) } }

/-- The page that an access was translated through overlaps the range. -/
def InvalRange.meets (x : InvalRange) (asid : Nat) : Option (Nat × Nat) → Bool
  | some q => asid == x.asid && decide (q.1 < x.hi) && decide (x.lo < q.1 + q.2)
  | none => false

/-- An access that was translated through a page that overlaps the range waits at its port: step 2 of R152, for which a
deferred read counts as performed. -/
def State.invalPending (s : State) (x : InvalRange) : Bool :=
  s.ports.pend.any (fun a => x.meets a.asid a.page && !s.ports.reads.any (fun r => r.reader == a.reader)) ||
  s.ports.sc.any (fun a => x.meets a.asid a.page)

/-- The range MC_INVAL_BASE and a count describe (R164, R165). -/
def State.mcRange (s : State) (v : W64) : InvalRange :=
  let b := s.mcr.invalBase.toNat
  invalRange (bits b 63 52) (bits b 51 16 * 65536) v.toNat

/-- The ASID is set; ASID 0 always is (R146). -/
def State.asidSet (s : State) (asid : Nat) : Bool := asid == 0 || (s.aspace? asid).isSome

/-- Step 1 of R152 for a write of MC_ASINVAL: a range of an ASID that is not set has no effect (R165). -/
def State.mcDiscard (s : State) (v : W64) : State :=
  if s.asidSet (s.mcRange v).asid then s.discardCached (s.mcRange v) else s

/-- Step 2 of R152 is not yet done for a write of MC_ASINVAL (R165). -/
def State.mcPending (s : State) (v : W64) : Bool := s.asidSet (s.mcRange v).asid && s.invalPending (s.mcRange v)

/-! ## CSRs -/

/-- The CSR exists on the core (R164). -/
def csrOn (c : CoreId) (n : BitVec 12) : Bool :=
  csrMap.any (fun e => e.1 == n.toNat && (if coreIsMc c then e.2.2 else e.2.1))

/-- The level of a CSR (R164). -/
def csrLevel (n : BitVec 12) : Nat := if n.toNat < 0x400 then 0 else if n.toNat < 0x800 then 1 else 2

/-- The committed entries of a region, in commit order (R192). -/
def Region.committed (x : Region) : List Entry :=
  sortBy Entry.cseq (x.cache.filter (fun e => e.state == .staged || e.state == .live))

/-- The LIVE entries of a region, in commit order. -/
def Region.liveEntries (x : Region) : List Entry := x.committed.filter (fun e => e.state == .live)

/-- CFG_STATUS (R193). -/
def Region.cfgStatus (x : Region) : Nat :=
  let q := x.committed
  let head := (q.head?.map Entry.cfgid).getD 0
  let tail := (q.getLast?.map Entry.cfgid).getD 0
  q.length + 16 * x.liveEntries.length + 2 ^ 8 * x.core.cfgErr.toNat + 2 ^ 11 * x.core.ucause.toNat +
    (if x.core.disc then 2 ^ 16 else 0) + 2 ^ 17 * x.core.ltag.toNat + 2 ^ 32 * tail + 2 ^ 48 * head

/-- A sensor before its first sweep (log entry 3). -/
def Sensor.init : Sensor :=
  { raw := 0, pub := 0, suspect := false, stk := false, rng := false, dis := false, stuckn := 0, cleann := 0, hist := [] }

/-- A sensor. -/
def State.sensor (s : State) (n : Nat) : Sensor := Table.get s.pow.sensors n Sensor.init

/-- The meter requests of a quadrant numbered region × 4 + quadrant (R164). -/
def State.meter (s : State) (q : Nat) : Meter := (s.region (q / 4)).meters[q % 4]'(Nat.mod_lt _ (by decide))

/-- The state with a quadrant's meter requests written. -/
def State.setMeter (s : State) (q : Nat) (m : Meter) : State :=
  let x := s.region (q / 4)
  s.setRegion (q / 4) { x with meters := x.meters.set (q % 4) m (Nat.mod_lt _ (by decide)) }

/-- The value of a CSR as the current core reads it (R164, R166). -/
def State.csrRead (s : State) (n : BitVec 12) : W64 :=
  let c := s.me
  let r : Nat := match s.cur with
    | .mc => 0
    | .seq r => r
  let k := (s.clusterOf r).bind s.cluster?
  let nat (x : Nat) : W64 := BitVec.ofNat 64 x
  let ofK (f : Cluster → W64) : W64 := (k.map f).getD 0#64
  match n.toNat with
  | 0x000 => ofK (fun k => nat (k.indexOf r))
  | 0x001 => ofK (fun k => nat k.regions.length)
  | 0x002 => ofK (fun k => nat k.asid)
  | 0x003 => ofK (fun k => nat k.recd.banks)
  | 0x004 => ofK (fun k => k.recd.args.getD 0 0#64)
  | 0x005 => ofK (fun k => k.recd.args.getD 1 0#64)
  | 0x006 => ofK (fun k => k.recd.args.getD 2 0#64)
  | 0x007 => ofK (fun k => k.recd.args.getD 3 0#64)
  | 0x008 => c.evtPend.setWidth 64
  | 0x009 => c.evtMask.setWidth 64
  | 0x00A => (c.preds ||| 1#8).setWidth 64
  | 0x00B => c.iter
  | 0x00C => c.insnCount
  | 0x010 => c.cfgReject
  | 0x011 => nat (s.region r).cfgStatus
  | 0x012 => c.exitLast
  | 0x018 => ofK (fun k => nat (k.energy.toNat / 1000))
  | 0x019 => ofK (fun k => k.snapCount.setWidth 64)
  | 0x400 => c.trap.status
  | 0x401 => c.trap.pc
  | 0x402 => c.trap.cause
  | 0x403 => c.trap.addr
  | 0x404 => c.trap.word
  | 0x405 => c.trap.info
  | 0x406 => c.trap.scratch0
  | 0x407 => c.trap.scratch1
  | 0x800 => s.mcr.mtvec
  | 0x801 => s.mcr.member.setWidth 64
  | 0x802 => s.mcr.invalBase
  | 0x804 => s.mcr.sensSel.setWidth 64
  | 0x805 =>
    let x := s.sensor s.mcr.sensSel.toNat
    nat (wrapTo x.pub 16 + if x.suspect then 65536 else 0)
  | 0x806 => s.mcr.meterSel.setWidth 64
  | 0x807 => (s.meter s.mcr.meterSel.toNat).mc.setWidth 64
  | 0x808 => nat s.mcr.budget
  | 0x809 => s.mcr.alertPend.setWidth 64
  | _ => 0#64

/-- Clears the pending events written as 1 (R166, R167). -/
def State.writeEvtPend (s : State) (v : W64) : State := s.setMe { s.me with evtPend := s.me.evtPend &&& ~~~(v.setWidth 5) }

/-- Clears the alert bits written as 1 (R166, R447). -/
def State.writeAlertPend (s : State) (v : W64) : State :=
  { s with mcr := { s.mcr with alertPend := s.mcr.alertPend &&& ~~~(v.setWidth 4) } }

/-- Writes MEMBER: every cached translation is discarded (R165). -/
def State.writeMember (s : State) (v : W64) : State :=
  { s with mcr := { s.mcr with member := v.setWidth 10 }, ports := { s.ports with tlb := [] } }

/-- Writes the management core's request of the selected quadrant (R440). -/
def State.writeMeterStep (s : State) (v : W64) : State :=
  let q := s.mcr.meterSel.toNat
  s.setMeter q { s.meter q with mc := v.setWidth 4 }

/-- A write of a CSR by the current core (R166); none when the write raises ILLEGAL. The level and the cores a CSR stands on
are checked before. -/
def State.csrWrite (s : State) (n : BitVec 12) (v : W64) : Option State :=
  let c := s.me
  let mine (x : Core) : Option State := some (s.setMe x)
  let mc (x : McRegs) : Option State := some { s with mcr := x }
  let lim (b : Bool) (x : Option State) : Option State := if b then x else none
  match n.toNat with
  | 0x008 => lim (v.toNat < 32) (some (s.writeEvtPend v))
  | 0x009 => lim (v.toNat < 32) (mine { c with evtMask := v.setWidth 5 })
  | 0x00A => lim (v.toNat < 256) (mine { c with preds := (v.setWidth 8 &&& 0xFE#8) ||| (c.preds &&& 1#8) })
  | 0x00B => mine { c with iter := v }
  | 0x401 => lim (v.toNat % 4 == 0) (mine { c with trap := { c.trap with pc := v } })
  | 0x406 => mine { c with trap := { c.trap with scratch0 := v } }
  | 0x407 => mine { c with trap := { c.trap with scratch1 := v } }
  | 0x800 => lim (v.toNat % 4 == 0 && decide (v.toNat < 0x200000)) (mc { s.mcr with mtvec := v })
  | 0x801 => lim (v.toNat < 576) (some (s.writeMember v))
  | 0x802 => lim (v.toNat % 65536 == 0) (mc { s.mcr with invalBase := v })
  | 0x803 => some (s.mcDiscard v)
  | 0x804 => lim (v.toNat < 664) (mc { s.mcr with sensSel := v.setWidth 10 })
  | 0x806 => lim (v.toNat < 512) (mc { s.mcr with meterSel := v.setWidth 9 })
  | 0x807 => lim (v.toNat < 16) (some (s.writeMeterStep v))
  | 0x809 => lim (v.toNat < 16) (some (s.writeAlertPend v))
  | _ => none

/-- The checks of R67, R68 and R164 before a CSR is accessed. -/
def csrAccess (s : State) (i : Instr) (n : BitVec 12) (k : Out) : Out :=
  if !csrOn s.cur n then illegal s i
  else if s.me.priv.code < csrLevel n then trap s i causePrivilege 0#64 0#64
  else k

/-- A CSR write by an instruction (R166, R191): refused with ILLEGAL, or made; one of MC_ASINVAL completes only when the
accesses it covers have been performed (R165). -/
def csrStore (s : State) (i : Instr) (n : BitVec 12) (v : W64) (f : Core → Core) : Out :=
  match s.csrWrite n v with
  | none => illegal s i
  | some s1 => if n = 0x803#12 ∧ s1.mcPending v then .next s1 else onCore s1 f

/-- CSRR (R191). -/
def execCsrr (d : SReg) (csr : BitVec 12) (s : State) : Out :=
  csrAccess s (.csrr d csr) csr (writeReg s d (s.csrRead csr))

/-- CSRW (R191). -/
def execCsrw (a : SReg) (csr : BitVec 12) (s : State) : Out :=
  csrAccess s (.csrw a csr) csr (csrStore s (.csrw a csr) csr (s.me.reg a) id)

/-- CSRX (R191): the read and the write are one access. -/
def execCsrx (d a : SReg) (csr : BitVec 12) (s : State) : Out :=
  csrAccess s (.csrx d a csr) csr (csrStore s (.csrx d a csr) csr (s.me.reg a) (fun c => c.setReg d (s.csrRead csr)))

/-- An act of the current core: nothing unless it runs, as after mc_stop and in a wedged region (R185, R186). -/
def byCore (s : State) (f : State → Out) : Out := if s.me.run = .running then f s else .next s

/-- EVT_PEND (R167): a write by the current core; a reserved bit written as 1 changes nothing (R166). -/
def execEvtPend (v : W64) (s : State) : Out :=
  byCore s (fun s => .next (if v.toNat < 32 then s.writeEvtPend v else s))

/-- An act of the management core: nothing once mc_stop has halted it (R186). -/
def byMc (s : State) (f : State → State) : Out := .next (if s.mc.run = .stopped then s else f s)

/-- ALERT_PEND (R447): a write by the management core; a reserved bit written as 1 changes nothing (R166). -/
def execAlertPend (v : W64) (s : State) : Out := byMc s (fun s => if v.toNat < 16 then s.writeAlertPend v else s)

/-- MC_ASINVAL (R165, R153): a write of a count discards the cached translations of the range; while an access translated
there stands at its port the write is not complete, and it stands on the agenda again (log entry 7). -/
def execMcAsinval (v : W64) (s : State) : Out :=
  byMc s (fun s =>
    let s1 := s.mcDiscard v
    if s1.mcPending v then { s1 with agenda := s1.agenda ++ [.event (.mcAsinval v)] } else s1)

/-- METER_STEP (R440): a write sets the request of the selected quadrant; a value above 15 changes nothing (R166). -/
def execMeterStep (v : W64) (s : State) : Out := byMc s (fun s => if v.toNat < 16 then s.writeMeterStep v else s)

/-- MEMBER (R165): a write of a member number, 0 to 575; another value changes nothing. -/
def execMember (v : W64) (s : State) : Out := byMc s (fun s => if v.toNat < 576 then s.writeMember v else s)

/-- CSR_WRITE (R166): a write by the current core, when it runs, of a CSR that its level allows replaces the value, or raises
ILLEGAL. -/
def execCsrWrite (csr : BitVec 12) (v : W64) (s : State) : Out :=
  byCore s (fun s =>
    csrAccess s (.csrw 0#5 csr) csr
      (match s.csrWrite csr v with
      | none => illegal s (.csrw 0#5 csr)
      | some s1 =>
        .next (if csr = 0x803#12 ∧ s1.mcPending v then { s1 with agenda := s1.agenda ++ [.event (.mcAsinval v)] } else s1)))

/-! ## Traps, returns and stops -/

/-- Another core than the current one raises a trap. -/
def trapOn (s : State) (c : CoreId) (cause : Nat) (word : W32) : State :=
  { trapEntry { s with cur := c } cause 0#64 0#64 0#12 word with cur := s.cur }

/-- Every BAR that waits in the regions raises SYNC and clears its arrival bit (R384). -/
def State.breakBarrier (s : State) (k : Nat) : List Nat → State
  | [] => s
  | r :: rs =>
    let s1 := match (s.core (.seq r)).wait, s.cluster? k with
      | .bar w, some c =>
        trapOn (s.setCluster k { c with barArrived := c.barArrived &&& ~~~(1#128 <<< c.indexOf r) }) (.seq r) causeSync w
      | _, _ => s
    State.breakBarrier s1 k rs

/-- HALT (R190): the sequencer executes nothing more, and the barriers of its cluster break (R384); on the management core
it is mc_stop (R186). -/
def haltCore (s : State) : State :=
  let s1 := s.setMe s.me.retire
  match s.cur with
  | .mc => mcStop s1
  | .seq r =>
    let s2 := s1.setMe { s1.me with run := .halted }
    match s.clusterOf r with
    | none => s2
    | some k => s2.breakBarrier k (((s.cluster? k).map Cluster.regions).getD [])

/-- HALT (R190). -/
def execHalt (s : State) : Out := .next (haltCore s)

/-- TRAP (R188): raises TRAP with its code; on a sequencer, code 0xFFF acts as HALT. -/
def execTrap (code : BitVec 12) (s : State) : Out :=
  if code = 0xFFF#12 ∧ !coreIsMc s.cur then .next (haltCore s)
  else .next (trapEntry s causeTrap 0#64 0#64 code (wordOf (.trap code)))

/-- RTT (R187). -/
def execRtt (s : State) : Out := trapReturn s .rtt

/-- WFE (R189): waits until a selected event is pending; it completes at once when none is selected. -/
def execWfe (s : State) : Out :=
  if s.me.evtMask = 0#5 ∨ s.me.evtPend &&& s.me.evtMask ≠ 0#5 then onCore s id else .next s

end Sys2Proof.Machine
end

