-- ==== Sys2Proof/Machine/Fabric.lean ====
section
/-! DEFINITION. The fabric of a region: the instances committed to it, the arcs with their room (R25, R26, R216 to R220), the
sequencer's ports (R203, R207, R495), and the view of one element that a firing works on. -/

namespace Sys2Proof.Machine

/-! ## Sites -/

/-- An agent before it has issued anything. -/
def Agent.init : Agent :=
  { park := .running, resp := [], replay := [], heldTok := none, nextId := 0, outst := [], written := 0#32,
    notWritten := 0#32, segErr := none, segPoison := false }

/-- The kept counters at placement (R295, R314, R337). -/
def Kept.init : Kept :=
  { beats := 0#64, hdFull := 0#64, hdPartial := 0#64, hdEmpty := 0#64, hdSkipb := 0#64, dlTiles := 0#64, dlDense := 0#64,
    dlTerms := 0#64, dlResid := 0#64, dlDrop := 0#64, dlDropmag := 0#32 }

/-- A matrix element's kept registers at placement (R274). -/
def MxRegs.init : MxRegs :=
  { t0 := Vector.replicate 1024 0#32, t1 := Vector.replicate 1024 0#32, pz0 := false, pz1 := false, rec0 := none,
    rec1 := none, act := false, window := Vector.replicate 2048 (0#16, 0#8), wty := Vector.replicate 64 0#5, steps := 0#64, early := 0#64 }

/-- A site at placement. -/
def Site.init : Site :=
  { active := none, next := none, mode := 0#8, lfsr := 0#32, stalls := Vector.replicate 6 0#32, stalled := false,
    discard := 0#32, op := .none, agent := Agent.init, kept := Kept.init, mx := none, deliv := [], srcEnd := false,
    fired := 0, frame := Vector.replicate 2 0, frameIn := Vector.replicate 4 0, served := 0,
    frozen := false }

/-- A site of a region. -/
def Region.site (x : Region) (n : Nat) : Site := Table.get x.sites n Site.init

/-- The region with a site written. -/
def Region.setSite (x : Region) (n : Nat) (t : Site) : Region := { x with sites := Table.put x.sites n t }

/-- An element discards tokens (R201): its counter saturates, and DISC is set. -/
def Site.discarded (t : Site) (n : Nat) : Site := { t with discard := n.rec t.discard (fun _ d => satInc d) }

/-- DISC is set (R193). -/
def Region.setDisc (x : Region) : Region := { x with core := { x.core with disc := true } }

/-! ## Instances -/

/-- The committed entry with a place in commit order. -/
def Region.held (x : Region) (c : Nat) : Option Entry :=
  x.cache.find? (fun e => e.cseq == c && (e.state == .staged || e.state == .live))

/-- The entry of a place in commit order changed. -/
def Region.mapHeld (x : Region) (c : Nat) (f : Entry → Entry) : Region :=
  { x with cache := x.cache.map (fun e => if e.cseq = c ∧ (e.state = .staged ∨ e.state = .live) then f e else e) }

/-- The copy of a record that stands at a site (R228). -/
def Rec.copyAt (r : Rec) (site : Nat) : Option Nat :=
  if r.repm = 0 then (if r.site = site then some 0 else none) else indexOf? r.sites site

/-- The record at a site in a configuration, with the copy that stands there. -/
def Cfg.recAt (c : Cfg) (site : Nat) : Option (Rec × Nat) :=
  c.recs.findSome? (fun r => (r.copyAt site).map (fun k => (r, k)))

/-- The site runs a record. -/
def Site.busy (t : Site) : Bool :=
  match t.active with
  | some l => l.recd.isSome
  | none => false

/-- The instance a site has adopted, with a record or an empty one, 0 for none (R196, R200). -/
def Region.adopted (x : Region) (site : Nat) : Nat :=
  match (x.site site).active with
  | some l => l.cseq
  | none => 0

/-! ## Arcs -/

/-- An arc without tokens. -/
def Arc.empty : Arc := { queue := [], ctl := none, comma := false, halted := false }

/-- The key of an arc. -/
def arcKey (c n : Nat) : Nat := c * 1024 + n

/-- An arc of an instance. -/
def Region.arc (x : Region) (c n : Nat) : Arc := Table.get x.arcs (arcKey c n) Arc.empty

/-- The region with an arc written; one that holds nothing is not listed. -/
def Region.setArc (x : Region) (c n : Nat) (a : Arc) : Region :=
  { x with arcs := if a = Arc.empty then Table.del x.arcs (arcKey c n) else Table.put x.arcs (arcKey c n) a }

/-- The word of an arc. -/
def Region.arcWord (x : Region) (c n : Nat) : Option ArcWord := (x.held c).bind (fun e => e.cfg.arcs[n]?)

/-- Pool slots of an arc (R217). -/
def ArcWord.pool (a : ArcWord) : Nat := a.slots - a.elastic - a.latch

/-- An arc that ends in a tile, as R220 shares its pool: its number, its pool slots, and whether its consumer runs the
instance, so that the arc has its reserved entry. -/
structure PoolArc where
  n : Nat
  p : Nat
  runs : Bool

/-- The arcs of an instance that end in a tile and are not freed yet: their consumer has not gone on. -/
def Region.poolArcs (x : Region) (tile : Nat) (e : Entry) : List PoolArc :=
  e.cfg.arcs.zipIdx.filterMap (fun a =>
    let at' := x.adopted a.1.csite
    if a.1.cseq || siteTile a.1.csite != tile || decide (e.cseq < at') then none
    else some { n := a.2, p := a.1.pool, runs := at' == e.cseq })

/-- Pool slots given out in order of arc number from what remains (R220): those of arc `n`, and what is left behind them
all. -/
def grantSlots (n : Nat) : Nat → List PoolArc → Nat × Nat
  | left, [] => (0, left)
  | left, a :: rest =>
    let got := min left a.p
    let (r, left') := grantSlots n (left - got) rest
    (if a.n = n then got else r, left')

/-- The pool slots of arc `n` of instance `c`, the instances with their arcs given oldest first: each takes its reserved
entries and its pool slots from what the older ones leave. -/
def shareOf (c n : Nat) : Nat → List (Nat × List PoolArc) → Nat
  | _, [] => 0
  | left, (e, l) :: rest =>
    let (got, left') := grantSlots n (left - (l.filter (fun a => a.runs)).length) l
    if e = c then got else shareOf c n left' rest

/-- The pool slots an arc of a tile holds (R218, R220): an older instance keeps all of its own, and a newer one has what they
leave, by arc number (log entry 14). -/
def Region.share (x : Region) (tile c n : Nat) : Nat :=
  shareOf c n 64 (x.committed.map (fun e => (e.cseq, x.poolArcs tile e)))

/-- No instance older than `c` stands in the region. -/
def Region.oldest (x : Region) (c : Nat) : Bool := x.committed.all (fun e => decide (c ≤ e.cseq))

/-- How many tokens an arc can hold beside its control part (R219, R220, R223). -/
def Region.cap (x : Region) (c n : Nat) : Nat :=
  match x.arcWord c n with
  | none => 0
  | some a =>
    if a.cseq || x.oldest c then a.slots + 1
    else
      let got := x.share (siteTile a.csite) c n
      if x.adopted a.csite < c then got else min (a.slots + 1) (a.elastic + a.latch + 1 + got)

/-- The token of the control part moves into a freed place at the tail (R216). -/
def Arc.settle (a : Arc) (cap : Nat) : Arc :=
  match a.ctl with
  | some t => if a.queue.length < cap then { a with queue := a.queue ++ [t], ctl := none } else a
  | none => a

/-- An arc as it stands. -/
def Region.arcNow (x : Region) (c n : Nat) : Arc := (x.arc c n).settle (x.cap c n)

/-- The token at the head of an arc; none while the arc is halted (R208). -/
def Region.headOf (x : Region) (c n : Nat) : Option Token :=
  let a := x.arcNow c n
  if a.halted then none else a.queue.head?

/-- The older instance's SWITCHOVER has passed every channel that an arc's route shares with a route of it (R202): it has
once the producer of the older arc has gone on (log entry 50). -/
def Region.channelsFree (x : Region) (c : Nat) (w : ArcWord) : Bool :=
  x.committed.all (fun e => decide (c ≤ e.cseq) || e.cfg.arcs.all (fun o =>
    !o.chans.any w.chans.contains || decide (e.cseq < x.adopted o.psite)))

/-- The consumer of an arc has adopted its instance, or no older one stands before it: the arc has the reserved entry of its
port (R216, R220). -/
def Region.entryTaken (x : Region) (c : Nat) (w : ArcWord) : Bool :=
  w.cseq || x.oldest c || decide (c ≤ x.adopted w.csite)

/-- A token can enter an arc's route (R202, R208). -/
def Region.routeOpen (x : Region) (c n : Nat) : Bool :=
  !(x.arc c n).halted && (x.arcWord c n).any (x.channelsFree c)

/-- Room for a DATA token (R219). -/
def Region.acceptsData (x : Region) (c n : Nat) : Bool :=
  let a := x.arcNow c n
  x.routeOpen c n && a.ctl.isNone && decide (a.queue.length < x.cap c n)

/-- Room for a control token (R26, R219): a place as for DATA, or the control part of the reserved entry, which an arc of a
newer instance has once its consumer adopts (R220). -/
def Region.acceptsCtl (x : Region) (c n : Nat) : Bool :=
  let a := x.arcNow c n
  x.routeOpen c n && a.ctl.isNone && (decide (a.queue.length < x.cap c n) || (x.arcWord c n).any (x.entryTaken c))

/-- Room for a token. -/
def Region.accepts (x : Region) (c n : Nat) (t : Token) : Bool :=
  if t.isControl then x.acceptsCtl c n else x.acceptsData c n

/-- The head of an arc is removed (R216). -/
def Region.pop (x : Region) (c n : Nat) : Region :=
  let a := x.arcNow c n
  x.setArc c n ({ a with queue := a.queue.drop 1 }.settle (x.cap c n))

/-! ## Sequencer input ports (R203, R207) -/

/-- The arc of a configuration that ends at a sequencer port. -/
def Cfg.seqIn (c : Cfg) (p : Nat) : Option Nat := c.arcs.findIdx? (fun a => a.cseq && a.csite == p)

/-- The arc a sequencer input port stands at: that of the oldest committed instance from its bound on that declares one
(R207). -/
def Region.portAt (x : Region) (p : Nat) : Option (Nat × Nat) :=
  x.committed.findSome? (fun e =>
    if e.cseq < Table.get x.ports p 0 then none else (e.cfg.seqIn p).map (fun n => (e.cseq, n)))

/-- The token at a sequencer input port. -/
def Region.portHead (x : Region) (p : Nat) : Option Token := (x.portAt p).bind (fun a => x.headOf a.1 a.2)

/-- A SWITCHOVER at the head of a sequencer input port moves the port on (R207), as often as one stands there. -/
def Region.portMove (p : Nat) : Nat → Region → Region
  | 0, x => x
  | n + 1, x =>
    match x.portAt p with
    | none => x
    | some a =>
      match x.headOf a.1 a.2 with
      | some t =>
        if t.kind = .switchover then
          let x1 := x.pop a.1 a.2
          Region.portMove p n { x1 with ports := Table.put x1.ports p (a.1 + 1) }
        else x
      | none => x

/-- A token enters an arc, where it has room (R216). -/
def Region.enqueue (x : Region) (c n : Nat) (t : Token) : Region :=
  let a := x.arcNow c n
  if a.ctl.isNone ∧ a.queue.length < x.cap c n then x.setArc c n { a with queue := a.queue ++ [t] }
  else if t.isControl then x.setArc c n { a with ctl := some t }
  else x

/-- A token enters an arc. At a sequencer input port that held none, TAKE is set (R167), and a SWITCHOVER moves the port
on. -/
def Region.push (x : Region) (c n : Nat) (t : Token) : Region :=
  let x1 := x.enqueue c n t
  match x.arcWord c n with
  | none => x1
  | some a =>
    if a.cseq ∧ a.csite < 15 then
      let empty := (x.portHead a.csite).isNone
      let x2 := if empty ∧ (x1.portHead a.csite).isSome then { x1 with core := x1.core.raiseEvent 1 } else x1
      x2.portMove a.csite 8
    else x1

/-- A token is written to several arcs. -/
def Region.pushAll (x : Region) (c : Nat) (l : List Nat) (t : Token) : Region := l.foldl (fun x n => x.push c n t) x

/-- A token discarded by a sequencer port (R495). -/
def Region.seqDiscarded (x : Region) : Region :=
  { x with core := { x.core with seqDiscard := satInc x.core.seqDiscard, disc := true } }

/-! ## Sources (R198) -/

/-- The arcs of a configuration that leave a sequencer output port, or any of them. -/
def Cfg.seqOut (c : Cfg) (p : Option Nat) : List Nat :=
  (c.arcs.zipIdx.filter (fun a => a.1.pseq && (match p with
    | none => true
    | some q => a.1.psite == q))).map Prod.snd

/-- The records that consume no input port. -/
def Cfg.sources (c : Cfg) : List Rec := c.recs.filter (fun r => r.inMask == 0)

/-- A control token is delivered to every source element of an instance (R199, R209, R210). -/
def Region.deliver (x : Region) (c : Nat) (cfg : Cfg) (t : Token) : Region :=
  cfg.sources.foldl (fun x r => x.setSite r.site { x.site r.site with deliv := (x.site r.site).deliv ++ [(c, t)] }) x

/-! ## The view of one element -/

/-- An element that can act: its region, its site with the record it runs, and the configuration around it. -/
structure Ctx where
  r : Nat
  x : Region
  site : Nat
  st : Site
  recd : Rec
  cfg : Cfg
  cseq : Nat
  cfgid : Nat
  deriving DecidableEq, Repr

/-- A region runs (R185, R417): its cluster is placed and has not aborted, and its sequencer is not wedged. -/
def State.runs (s : State) (r : Nat) : Bool :=
  (match (s.region r).cluster.bind s.cluster? with
    | some k => k.abort.isNone
    | none => false) && (s.region r).core.run != .wedged

/-- A snapshot has reached a region (R420, R422): one whose sequencer stands in a RUN is reached when that has completed
(R197). -/
def State.snapped (s : State) (r : Nat) : Bool :=
  ((s.region r).cluster.bind s.cluster?).any (fun k => k.snap.isSome) && (match (s.region r).core.wait with
    | .run _ => false
    | _ => true)

/-- A region changes by itself: it runs, and no snapshot has reached it (R435). -/
def State.moves (s : State) (r : Nat) : Bool := s.runs r && !s.snapped r

/-- The element at a site that runs a record as copy 0, in a region that runs, and not frozen (R422). -/
def ctxOf (s : State) (r site : Nat) : Option Ctx :=
  let x := s.region r
  let st := x.site site
  match st.active with
  | some l =>
    match l.recd, x.held l.cseq with
    | some q, some e =>
      if !s.runs r || st.frozen || l.copy != 0 then none
      else some { r := r, x := x, site := site, st := st, recd := q, cfg := e.cfg, cseq := l.cseq, cfgid := l.cfgid }
    | _, _ => none
  | none => none

/-- The arc at an input port. -/
def Ctx.inArc (c : Ctx) (q : Nat) : Option Nat :=
  if c.recd.consumes q then c.cfg.arcs.findIdx? (fun a => !a.cseq && a.csite == c.site && a.cport == q) else none

/-- The arcs of an output port. -/
def Ctx.outs (c : Ctx) (p : Nat) : List Nat :=
  (c.cfg.arcs.zipIdx.filter (fun a => !a.1.pseq && a.1.psite == c.site && a.1.pport == p)).map Prod.snd

/-- The type of an input arc. -/
def Ctx.inTy (c : Ctx) (q : Nat) : Nat := (((c.inArc q).bind (fun n => c.cfg.arcs[n]?)).map ArcWord.ty).getD 0

/-- The type of an output port. -/
def Ctx.outTy (c : Ctx) (p : Nat) : Nat := (((c.outs p).head?.bind (fun n => c.cfg.arcs[n]?)).map ArcWord.ty).getD 0

/-- The token at the head of an input port. -/
def Ctx.head (c : Ctx) (q : Nat) : Option Token := (c.inArc q).bind (fun n => c.x.headOf c.cseq n)

/-- The kind of the token at the head of an input port. -/
def Ctx.headKind (c : Ctx) (q : Nat) : Option Kind := (c.head q).map Token.kind

/-- The DATA token at the head of an input port. -/
def Ctx.dataAt (c : Ctx) (q : Nat) : Option Token := (c.head q).filter (fun t => t.kind == .data)

/-- Every arc of an output port has room for a DATA token. -/
def Ctx.room (c : Ctx) (p : Nat) : Bool := (c.outs p).all (fun n => c.x.acceptsData c.cseq n)

/-- Every arc of an output port has room for a control token. -/
def Ctx.roomCtl (c : Ctx) (p : Nat) : Bool := (c.outs p).all (fun n => c.x.acceptsCtl c.cseq n)

/-- Every output arc has room for a control token. -/
def Ctx.roomAll (c : Ctx) : Bool := c.roomCtl 0 && c.roomCtl 1

/-- The input ports the record consumes, ascending. -/
def Ctx.ports (c : Ctx) : List Nat := [0, 1, 2, 3].filter c.recd.consumes

/-- The place in its group of the token that follows one in the stream of an arc of an MX type (R40): a STOP restarts the
groups. -/
def nextFrame (ty n : Nat) (t : Token) : Nat :=
  if !inX ty then n
  else match t.kind with
    | .data => (n + 1) % (groupBeats ty + 1)
    | .stop => 0
    | _ => n

/-- The place in its group of the next token that an input port consumes (R40). -/
def Ctx.placeIn (c : Ctx) (q : Nat) : Nat := c.st.frameIn.toList.getD q 0

/-- The head of an input port is consumed. -/
def Ctx.take (c : Ctx) (q : Nat) : Ctx :=
  match c.inArc q with
  | none => c
  | some n =>
    { c with
      x := c.x.pop c.cseq n
      st := match c.head q with
        | some t =>
          if inX (c.inTy q) then { c.st with frameIn := c.st.frameIn.setIfInBounds q (nextFrame (c.inTy q) (c.placeIn q) t) }
          else c.st
        | none => c.st }

/-- The heads of several input ports are consumed. -/
def Ctx.takeAll (c : Ctx) (l : List Nat) : Ctx := l.foldl Ctx.take c

/-- A token as the element writes it on an output port (R34, R37): of DATA without an error record, the payload in the form
of the port's type, where a scale beat stands at place 0 of a group (R40). -/
def Ctx.written (c : Ctx) (p : Nat) (t : Token) : Token :=
  if t.kind = .data ∧ t.err = false then { t with payload := outBeat (c.outTy p) (c.st.frame.toList.getD p 0 == 0) t.payload }
  else t

/-- A quadrant's injection meter admits a DATA token (R437, R456). -/
def Region.countInject (x : Region) (q : Nat) : Region :=
  let m := x.meters[q % 4]'(Nat.mod_lt _ (by decide))
  { x with meters := x.meters.set (q % 4) { m with admitting := m.admitting + 1 } (Nat.mod_lt _ (by decide)) }

/-- The output ports of the element are injection points (R437): those of an AG, HD, OW or BR, and those of a source. -/
def Ctx.injects (c : Ctx) : Bool :=
  c.recd.inMask == 0 || (match c.recd.kind with
    | .ag => true
    | .hd => true
    | .ow => true
    | .br => true
    | _ => false)

/-- A token is emitted on every arc of an output port. -/
def Ctx.emit (c : Ctx) (p : Nat) (t : Token) : Ctx :=
  let admitted := t.kind == .data && c.injects && !(c.outs p).isEmpty
  { c with
    x := (if admitted then c.x.countInject (tileQuadrant (siteTile c.site)) else c.x).pushAll c.cseq (c.outs p) (c.written p t)
    st := { c.st with
      frame := c.st.frame.setIfInBounds p (nextFrame (c.outTy p) (c.st.frame.toList.getD p 0) t) } }

/-- A token is emitted on every output arc. -/
def Ctx.emitAll (c : Ctx) (t : Token) : Ctx := (c.emit 0 t).emit 1 t

/-- The operation state written. -/
def Ctx.setOp (c : Ctx) (o : OpState) : Ctx := { c with st := { c.st with op := o } }

/-- The element discards `n` tokens, or counts a mark of unequal streams (R201, R226). -/
def Ctx.discard (c : Ctx) (n : Nat) : Ctx :=
  if n = 0 then c else { c with st := c.st.discarded n, x := c.x.setDisc }

/-- The head of an input port is discarded (R201). -/
def Ctx.drop (c : Ctx) (q : Nat) : Ctx := (c.take q).discard 1

/-- The copy on which the next firing runs (R229). -/
def Ctx.copy (c : Ctx) : Nat := c.st.fired % c.recd.copies

/-- The site of a copy. -/
def Ctx.copySite (c : Ctx) (k : Nat) : Nat :=
  if k = 0 then c.site else c.recd.sites.getD k c.site

/-- The site state of a copy. -/
def Ctx.copyState (c : Ctx) (k : Nat) : Site := if k = 0 then c.st else c.x.site (c.copySite k)

/-- A copy's site state written. -/
def Ctx.setCopy (c : Ctx) (k : Nat) (t : Site) : Ctx :=
  if k = 0 then { c with st := t } else { c with x := c.x.setSite (c.copySite k) t }

/-- The LFSR of the copy the next firing runs on. -/
def Ctx.lfsr (c : Ctx) : W32 := (c.copyState c.copy).lfsr

/-- That LFSR written. -/
def Ctx.setLfsr (c : Ctx) (l : W32) : Ctx := c.setCopy c.copy { c.copyState c.copy with lfsr := l }

/-- The numbers of an element's copies. -/
def Ctx.copies (c : Ctx) : List Nat := List.range c.recd.copies

/-- A copy stands at the instance its element runs. -/
def Ctx.hasCopy (c : Ctx) (k : Nat) : Bool :=
  k == 0 || (match (c.copyState k).active with
    | some l => l.cseq == c.cseq && l.copy == k && l.recd.isSome
    | none => false)

/-- The copy of the next firing has adopted the operation (R228, R229). -/
def Ctx.copyReady (c : Ctx) : Bool := c.hasCopy c.copy

/-- Every copy has adopted the operation: a control token that the element handles has reached them all (R229). -/
def Ctx.whole (c : Ctx) : Bool := c.copies.all c.hasCopy

/-- A mode word is taken by every copy, with RESEED under R50 (R227, R229). -/
def Ctx.takeMode (c : Ctx) (m : Byte) : Ctx :=
  (List.range c.recd.copies).foldl (fun c k =>
    let t := c.copyState k
    c.setCopy k { t with mode := m, lfsr := if m.getLsbD 5 then lfsrLoad c.recd.seed k else t.lfsr }) c

/-- The rounding in force (R45). -/
def Ctx.rm (c : Ctx) : Nat := rmOf c.st.mode c.recd.ro

/-- FZI and FZO in force (R43). -/
def Ctx.fzi (c : Ctx) : Bool := fziOf c.st.mode
def Ctx.fzo (c : Ctx) : Bool := fzoOf c.st.mode

/-- The state with the element's region written back. -/
def Ctx.back (c : Ctx) (s : State) : State := s.setRegion c.r (c.x.setSite c.site c.st)

/-- The same element in a state whose region has moved on. -/
def Ctx.refresh (c : Ctx) (s : State) : Ctx := { c with x := s.region c.r, st := (s.region c.r).site c.site }

end Sys2Proof.Machine
end

