-- ==== Sys2Proof/Machine/Firing.lean ====
section
/-! DEFINITION. The firing rule (R214), the stall counters (R215), and the rules for STOP and MODE that every operation keeps
unless its own description replaces them (R226, R227). -/

namespace Sys2Proof.Machine

/-! ## Operation state -/

/-- An address generator's run state at adoption (R295). -/
def AgState.init : AgState :=
  { isOpen := false, off := 0, j := [0, 0, 0, 0, 0], poison := false, recd := none, bad := none, past := false, runs := 0,
    emitRun := 0, closing := none, dl := none, touched := false }

/-- A matrix element's progress at adoption (R274). -/
def MxState.init : MxState :=
  { cmd := none, aFrame := { scale := none, beats := 0 }, bFrame := { scale := none, beats := 0 }, ldPoison := false,
    ldRec := none, boundary := none }

/-- A scan at adoption (R317). -/
def ScanState.init : ScanState :=
  { cur := none, nb := 0#32, ord := 0#32, summary := none, yielded := false }

/-- An owner at adoption (R392). -/
def OwState.init : OwState := { toks := [], blk := 0, applying := false, skip := false, closing := none }

/-- The operation state at adoption (R238, R263, R274, R295, R314, R353, R392). -/
def opInit (r : Rec) : OpState :=
  match r.kind with
  | .ve =>
    match r.opc with
    | 0x10 => .cvt { lanes := [], poison := false, recd := none }
    | 0x30 => .tacc { acc := [], ev := Ev.none, poison := false, recd := none, closing := false }
    | 0x31 => .mxpack { vals := [], poison := false, recd := none, emit := [], emitPoison := false }
    | 0x32 => .mxunpack { scale := none, beats := 0, held := none, sent := 0 }
    | 0x3A => .carry false
    | 0x3B => .inv none
    | 0x3E => .const 0
    | _ => .none
  | .sq =>
    match r.opc with
    | 0x01 => .loop none false
    | 0x02 => .loop none false
    | 0x08 | 0x09 | 0x0A => .ctl 0#32 false
    | 0x10 => .permit 0 false
    | 0x11 => .done { collected := 0#32, count := 0#32, poison := false, recd := none }
    | 0x12 => .count 0#32
    | 0x13 => .exit false
    | _ => .none
  | .mx => .mx MxState.init
  | .ag => .ag AgState.init
  | .hd =>
    match r.opc with
    | 0x01 | 0x02 => .scan ScanState.init
    | _ => .pmask { pair := none, cls := none, row := 0 }
  | .ow => .ow OwState.init
  | .br => if r.opc = 2 then .br [] else if r.opc = 4 then .ow OwState.init else .none

/-! ## Need sets (R214) -/

/-- The token at a control port names true (R231). -/
def Token.truth (t : Token) : Bool := t.payload.getLsbD 0

/-- The need set of a vector element's next firing: input ports and output ports. -/
def veNeeds (c : Ctx) : List Nat × List Nat :=
  match c.recd.opc, c.st.op with
  | 0x38, _ =>
    match c.dataAt 1 with
    | none => ([0, 1], [])
    | some t => ([0, 1], if t.poison then [0, 1] else if t.truth then [0] else [1])
  | 0x39, _ =>
    match c.head 0 with
    | none => ([0], [0])
    | some t =>
      if t.kind = .data then (if t.poison then ([0, 1, 2], [0]) else if t.truth then ([0, 1], [0]) else ([0, 2], [0]))
      else ([0, 1, 2], [0])
  | _, .carry loop =>
    if loop then
      match c.dataAt 2 with
      | none => ([2], [])
      | some t => if !t.poison && t.truth then ([1, 2], [0]) else ([2], [])
    else ([0], [0])
  | _, .inv held =>
    let ins := if held.isNone then [0, 1] else [1]
    match c.dataAt 1 with
    | none => (ins, [])
    | some t => (ins, if t.poison || t.truth then [0] else [])
  | 0x3C, _ => ([0], [0, 1])
  | 0x3D, _ => ([0], [])
  | _, .cvt v =>
    let ls := laneCount (c.inTy 0)
    let ld := laneCount (c.outTy 0)
    if ls < ld then ([0], if ld ≤ v.lanes.length + ls then [0] else [])
    else if v.lanes.isEmpty then ([0], [0]) else ([], [0])
  | _, .tacc v => ([0], if v.closing then [0] else [])
  | _, .mxpack v => if v.emit.isEmpty then ([0], []) else ([], [0])
  | _, .mxunpack v =>
    if v.held.isSome then ([], [0]) else if v.scale.isSome then ([0], [0]) else ([0], [])
  | 0x3E, .const k => if c.recd.inMask = 0 then ([], if k = 2 then [] else [0]) else ([0], [0])
  | _, _ => (c.ports, [0])

/-- D, a controller's permit depth (R269). -/
def Ctx.permitDepth (c : Ctx) : Nat :=
  if c.recd.opc = 0x08 then 1 else if c.recd.opc = 0x09 then c.recd.e 0 % 256 else 0xFFFFFFFF

/-- The first of a controller's five firings whose head condition holds (R269), 0 for none; of the fifth, by its port. -/
def Ctx.ctlFiring (c : Ctx) (out : W32) (drain : Bool) : Nat :=
  if c.headKind 1 = some .data then 1
  else if drain = false ∧ c.headKind 0 = some .data ∧ out.toNat < c.permitDepth then 2
  else if drain = false ∧ c.headKind 0 = some .stop then 3
  else if c.headKind 1 = some .stop then 4
  else if c.headKind 0 = some .mode then 5
  else if c.headKind 1 = some .mode then 6
  else 0

/-- That firing has the outputs it needs (R269). -/
def Ctx.ctlRoom (c : Ctx) (drain : Bool) : Nat → Bool
  | 1 => c.room 1
  | 2 => c.room 0
  | 3 => c.roomCtl 0
  | 4 => !drain || c.roomCtl 1
  | 5 => c.roomCtl 0
  | 6 => c.roomCtl 1
  | _ => false

/-- The value of a run's next index. -/
def LoopRun.index (q : LoopRun) (step : Int) : Int := q.start + q.j * step

/-- The run has no further index. -/
def LoopRun.over (q : LoopRun) (step : Int) : Bool :=
  if q.single then decide (1 ≤ q.j)
  else (decide (0 < step) && decide (q.stop ≤ q.index step)) || (decide (step < 0) && decide (q.index step ≤ q.stop))

/-- The step of a loop generator's record (R266). -/
def Ctx.loopStep (c : Ctx) : Int := signed (c.recd.e (if c.recd.opc = 0x01 then 2 else 0)) 32

/-- The one run of a source LOOPA (R266). -/
def Ctx.sourceRun (c : Ctx) : LoopRun :=
  { start := signed (c.recd.e 0) 32, stop := signed (c.recd.e 1) 32, j := 0, poison := false, err := false, recd := 0#32,
    single := false }

/-- The need set of a stream sequencer's next firing: a source LOOPA that has not begun needs its output alone. -/
def sqNeeds (c : Ctx) : List Nat × List Nat :=
  match c.recd.opc, c.st.op with
  | _, .loop run started => if run.isSome || (c.recd.inMask == 0 && !started) then ([], [0]) else (c.ports, [])
  | _, .ctl _ _ => ([0], [0])
  | _, .permit _ stopped => ([], if stopped then [] else [0])
  | _, .done _ =>
    match c.ports.find? (fun q => (c.dataAt q).isSome) with
    | some q => ([q], [])
    | none => (c.ports, [0])
  | _, .count n => ([0], if c.recd.e 0 ≠ 0 ∧ (n + 1#32).toNat = c.recd.e 0 then [0, 1] else [0])
  | _, .exit _ => ([0], [])
  | _, _ => ([0], [0])

/-- K indices per operand beat (R275). -/
def mxKb (c : Ctx) : Nat := laneCount (c.inTy 1) / 32

/-- N and M of an MMT record's term shape (R276). -/
def termShape (c : Ctx) : Nat × Nat :=
  match c.recd.md % 4 with
  | 0 => (1, 4) | 1 => (2, 4) | 2 => (2, 8) | _ => (4, 8)

/-- B beats an MMT command has taken once its step `s` can run (R282). -/
def termBeats (c : Ctx) (s : Nat) : Nat :=
  let (n, m) := termShape c
  let kb := mxKb c
  (((s + 1) * kb + n - 1) / n * m + kb - 1) / kb

/-- A command that has no step left to perform (R279, R287). -/
def MxCmd.stepsOver (k : MxCmd) : Bool :=
  let f := mxFields k.word
  k.cut || f.op == 5 || decide (f.k ≤ k.steps)

/-- A scale beat is due on an operand arc (R40). -/
def scaleDue (c : Ctx) (q : Nat) (fr : MxFrame) : Bool := inX (c.inTy q) && fr.scale.isNone

/-- The need set of a matrix element's next event (R279, R280, R282, R283, R285, R287). -/
def mxNeeds (c : Ctx) (m : MxState) : List Nat × List Nat :=
  match m.boundary, m.cmd with
  | some _, _ => (c.ports.filter (fun q => q != 0), [0])
  | none, none => ([0], [])
  | none, some k =>
    let f := mxFields k.word
    if f.op = 6 then ([3], [])
    else if k.stepsOver then ([], [0])
    else if f.op = 3 then ([3], [])
    else if scaleDue c 1 m.aFrame then ([1], [])
    else if f.op = 2 then
      if f.bk || decide (termBeats c k.steps ≤ k.bBeats) then ([1, 3], []) else ([1, 2, 3], [])
    else if f.bk then ([1], [])
    else if scaleDue c 2 m.bFrame then ([2], [])
    else ([1, 2], [])

/-- The need set of a header element's next firing (R317, R318, R327, R328). -/
def hdNeeds (c : Ctx) : List Nat × List Nat :=
  match c.st.op with
  | .scan b =>
    if b.cur.isSome then ([], [0])
    else if c.recd.opc = 1 then (c.ports, [])
    else match b.summary with
      | some (l, _, _, _) => if l = 0#512 then ([], [0]) else ([1], [])
      | none => (if c.headKind 0 == some .stop then [0, 1] else [0], [])
  | .pmask p => if p.pair.isSome then ([], [0]) else ([0], [])
  | _ => ([0], [0])

/-- A copy of the element has an open run. -/
def Ctx.runOpen (c : Ctx) : Bool :=
  (List.range c.recd.copies).any (fun k => match (c.copyState k).op with
    | .ag a => a.isOpen
    | _ => false)

/-- The input ports SCATTER needs next (R308): port 1 while a run is open; else port 0, and port 1 with it for a STOP. -/
def Ctx.scatterIns (c : Ctx) : List Nat :=
  if c.runOpen then [1] else if c.headKind 0 == some .stop then [0, 1] else [0]

/-- The next response of a copy is at hand (R306). -/
def Ctx.respReady (c : Ctx) (k : Nat) : Bool :=
  match (c.copyState k).agent.resp with
  | .tok _ :: _ => true
  | _ => false

/-- The need set of an element's next firing (R214); for the elements with a memory side, the ports of the firing that
begins its next piece of work, or of the emission that is due. -/
def Ctx.needs (c : Ctx) : List Nat × List Nat :=
  match c.recd.kind, c.st.op with
  | .ve, _ => veNeeds c
  | .sq, _ => sqNeeds c
  | .mx, .mx m => mxNeeds c m
  | .hd, _ => hdNeeds c
  | .ow, .ow o =>
    if o.closing.isSome then ([], [0])
    else if c.recd.opc = 0xA then (if o.toks.isEmpty then ([0, 1], []) else if o.applying then ([], []) else ([1], []))
    else if o.applying then ([], [0])
    else (c.ports, [0])
  | .ag, .ag a =>
    if c.recd.opc = 4 then (c.scatterIns, [])
    else if c.recd.opc = 5 then (if c.recd.inMask ≠ 0 ∧ !a.isOpen then ([0], []) else ([], [0]))
    else if c.recd.opc = 2 ∨ (c.recd.inMask ≠ 0 ∧ a.emitRun = a.runs) then ([0], [])
    else ([], if c.respReady (a.emitRun % c.recd.copies) then [0] else [])
  | .br, _ =>
    if c.recd.opc = 3 then (if c.respReady 0 then ([], [0]) else ([0], [])) else (c.ports, [0])
  | _, _ => (c.ports, [0])

/-! ## Stalls (R215) -/

/-- Beats of a matrix element's drain (R284). -/
def drainBeats (c : Ctx) : Nat := 1024 / laneCount (c.outTy 0)

/-- What the element emits next is a control token, which the control permit admits too (R219). -/
def Ctx.emitsCtl (c : Ctx) : Bool :=
  match c.st.op with
  | .loop (some q) _ => q.over c.loopStep
  | .loop none _ => c.recd.inMask == 0 && c.sourceRun.over c.loopStep
  | .permit k _ => decide (c.recd.e 0 % 256 ≤ k)
  | .const k => c.recd.inMask == 0 && k == 1
  | .mx m => m.boundary.isSome || m.cmd.any (fun k => k.stepsOver && decide (drainBeats c ≤ k.drained))
  | .ag a =>
    match (c.copyState (a.emitRun % c.recd.copies)).agent.resp with
    | .tok t :: _ => t.isControl
    | _ => false
  | _ => false

/-- The first failing condition of the next firing: the number of its counter (R215). A controller that cannot fire at all
waits for its go firing (R269). -/
def Ctx.failing (c : Ctx) : Option Nat :=
  match c.st.op with
  | .ctl out drain =>
    if c.ctlRoom drain (c.ctlFiring out drain) then none else if (c.head 0).isNone then some 0 else some 4
  | _ =>
    match c.needs.1.find? (fun q => (c.head q).isNone) with
    | some q => some q
    | none => (c.needs.2.find? (fun p => !(if c.emitsCtl then c.roomCtl p else c.room p))).map (fun p => 4 + p)

/-- An episode is counted when a copy, having fired or adopted, cannot fire at once; a parked one counts nothing (R215). -/
def Ctx.count (c : Ctx) (copy : Nat) : Ctx :=
  let t := c.copyState copy
  match c.failing with
  | none => { c with st := { c.st with stalled := false } }
  | some n =>
    if t.agent.park = .running then
      let c1 := c.setCopy copy { t with stalls := t.stalls.setIfInBounds n (satInc (t.stalls.toList.getD n 0#32)) }
      { c1 with st := { c1.st with stalled := true } }
    else c

/-- A copy has finished a firing. -/
def Ctx.firedAt (c : Ctx) (copy : Nat) : Ctx := { c with st := { c.st with fired := c.st.fired + 1 } }.count copy

/-- A firing is finished by the copy it ran on: the next one is on the next copy (R229). -/
def Ctx.fired (c : Ctx) : Ctx := c.firedAt c.copy

/-! ## Running an event of an element -/

/-- The state after an event of an element, unchanged when the event is not enabled. -/
def orStay (s : State) (o : Option State) : Out := .next (o.getD s)

/-- A firing of one operation: it happens only at a running element whose record names the operation. -/
def fireOp (s : State) (r site : Nat) (k : EKind) (opc : Nat) (f : Ctx → Option Ctx) : Out :=
  orStay s ((ctxOf s r site).bind (fun c =>
    if c.recd.isOp k opc then (f c).map (fun c' => c'.back s) else none))

/-- A lane-wise firing (R214, R229): every port the word names is consumed, and the token that `g` makes of the operands is
emitted on output 0; `g` gives the LFSR of the copy as it leaves it. -/
def tokenFire (g : Ctx → List Token → W32 → Token × W32) (c : Ctx) : Option Ctx :=
  let ts := c.ports.filterMap c.dataAt
  if ts.length = c.ports.length ∧ c.room 0 ∧ c.copyReady then
    let (t, l) := g c ts c.lfsr
    some (((c.setLfsr l).takeAll c.ports).emit 0 t).fired
  else none

/-- A lane-wise firing with the poison and error record of R22 and R48: `f` gives the payload, the events and the LFSR. -/
def laneFire (f : Ctx → List Token → W32 → Beat × Ev × W32) : Ctx → Option Ctx :=
  tokenFire (fun c ts l =>
    let (p, ev, l') := f c ts l
    (resultTok ts (pvSelects c.recd.pv ev) p, l'))

/-! ## STOP and MODE (R226, R227) -/

/-- The largest depth among STOP tokens, and whether the depths differ (R226). -/
def depths (ts : List Token) : Nat × Bool :=
  let m := ts.foldl (fun m t => max m t.depth) 0
  (m, ts.any (fun t => t.depth != m))

/-- The needed ports whose heads are of a kind. -/
def Ctx.headed (c : Ctx) (ins : List Nat) (k : Kind) : List Nat := ins.filter (fun q => c.headKind q == some k)

/-- R226 over a set of ports: DATA at their heads is discarded while STOP heads one of them; once STOP heads them all, they
are consumed and `f` makes of the largest depth what is emitted, when every copy has reached them (R229). MODE is handled
first (R227), SWITCHOVER under R201. -/
def stopOver (c : Ctx) (ins : List Nat) (f : Ctx → Nat → Ctx) : Option Ctx :=
  if (c.headed ins .stop).isEmpty ∨ !(c.headed ins .mode).isEmpty ∨ !(c.headed ins .switchover).isEmpty then none
  else if !(c.headed ins .data).isEmpty then some ((c.headed ins .data).foldl Ctx.drop c)
  else if (c.headed ins .stop).length = ins.length ∧ c.roomAll ∧ c.whole then
    let (m, differ) := depths (ins.filterMap c.head)
    some (f ((c.takeAll ins).discard (if differ then 1 else 0)) m)
  else none

/-- The emission of R226: one STOP on every output arc. -/
def passStop (c : Ctx) (d : Nat) : Ctx := c.emitAll (stopTok d)

/-- R227 over a set of ports: DATA at their heads is discarded while MODE heads one of them; once each is headed by MODE or
STOP, the MODEs are consumed, the word of the lowest-numbered is taken and emitted; a STOP left standing is counted. -/
def modeOver (c : Ctx) (ins : List Nat) : Option Ctx :=
  let modes := c.headed ins .mode
  if modes.isEmpty ∨ !(c.headed ins .switchover).isEmpty then none
  else if !(c.headed ins .data).isEmpty then some ((c.headed ins .data).foldl Ctx.drop c)
  else if (modes.length + (c.headed ins .stop).length = ins.length) ∧ c.roomAll ∧ c.whole then
    match modes.filterMap c.head with
    | [] => none
    | t :: _ =>
      let m : Byte := t.payload.setWidth 8
      some ((((c.takeAll modes).takeMode m).emitAll (modeTok m)).discard (if (c.headed ins .stop).isEmpty then 0 else 1))
  else none

/-- A MODE at one port, taken as the mode word and emitted on the output ports given. -/
def modeAt (c : Ctx) (q : Nat) (outs : List Nat) : Option Ctx :=
  match c.head q with
  | some t =>
    if t.kind = .mode ∧ outs.all c.roomCtl ∧ c.whole then
      let m : Byte := t.payload.setWidth 8
      some (outs.foldl (fun c p => c.emit p (modeTok m)) ((c.take q).takeMode m))
    else none
  | none => none

/-- The next control token that the sequencer has delivered to a source for the instance it runs, COMMA apart (R198). -/
def Ctx.delivered (c : Ctx) : Option Token :=
  (c.st.deliv.find? (fun d => d.1 == c.cseq && d.2.kind != .comma)).map Prod.snd

/-- That token is taken. -/
def Ctx.undeliver (c : Ctx) : Ctx :=
  match c.st.deliv.find? (fun d => d.1 == c.cseq && d.2.kind != .comma) with
  | none => c
  | some d => { c with st := { c.st with deliv := c.st.deliv.erase d } }

/-- A source whose stream has ended emits a MODE delivered to it, and takes its word (R198, R210). -/
def sourceMode (c : Ctx) : Option Ctx :=
  if c.recd.inMask ≠ 0 ∨ c.st.srcEnd = false ∨ c.roomAll = false ∨ c.whole = false then none
  else
    match c.delivered with
    | some t =>
      if t.kind = .mode then
        let m : Byte := t.payload.setWidth 8
        some ((c.undeliver.takeMode m).emitAll (modeTok m))
      else none
    | none => none

end Sys2Proof.Machine
end

