-- ==== Sys2Proof/Machine/Agent.lean ====
section
/-! DEFINITION. The memory side that AG, HD, OW and BR copies share: the copies of a record (R228), parking and the fault
records it queues (R407, R408, R410), store modes of tile stores (R290, R291, R293), and how an access issues. -/

namespace Sys2Proof.Machine

/-! ## Copies -/

/-- The element a site belongs to, as its copy 0, and the number of the copy that stands there (R228). -/
def copyCtx (s : State) (r site : Nat) : Option (Ctx × Nat) :=
  match ((s.region r).site site).active with
  | none => none
  | some l =>
    match l.recd with
    | none => none
    | some q =>
      (ctxOf s r q.site).bind (fun c =>
        if c.cseq = l.cseq ∧ ((s.region r).site site).frozen = false then some (c, l.copy) else none)

/-- The cluster an element belongs to, with its number. -/
def Ctx.cluster (c : Ctx) (s : State) : Option (Nat × Cluster) :=
  c.x.cluster.bind (fun n => (s.cluster? n).map (fun k => (n, k)))

/-- The agent of a copy. -/
def Ctx.agent (c : Ctx) (k : Nat) : Agent := (c.copyState k).agent

/-- That agent written. -/
def Ctx.setAgent (c : Ctx) (k : Nat) (g : Agent) : Ctx := c.setCopy k { c.copyState k with agent := g }

/-- The copy runs: it is neither parked nor replaying. -/
def Agent.runs (g : Agent) : Bool := g.park == .running

/-- Every copy has performed its issued stores and runs. -/
def Ctx.stored (c : Ctx) : Bool := c.copies.all (fun k => (c.agent k).outst.isEmpty && (c.agent k).runs)

/-- A pool entry of the element's configuration. -/
def Ctx.pool (c : Ctx) (n : Nat) : List W32 := c.cfg.pool.getD n []

/-! ## Faults (R407, R410) -/

/-- The SPACE code of a fault record (R410). -/
def Space.code : Space → Nat
  | .virt => 0
  | .island => 1
  | .tile _ => 2

/-- The ACC field of a fault record: access, space and presence state (R410). -/
def accField (a : Acc) (sp : Space) (gst : Nat) : Nat :=
  (match a with
    | .read => 0
    | .write => 1
    | .presence => 2) + 4 * sp.code + 16 * gst

/-- The access a fault record names for an access of an element (R149, R299). -/
def AccKind.acc : AccKind → Acc
  | .load => .read
  | .store => .write
  | .clear => .presence
  | .atom => .write

/-- A fault record is queued at the dispatcher for an ASID (R407, R410). -/
def State.queueFault (s : State) (asid : Nat) (f : FaultRec) : State :=
  match s.aspace? asid with
  | none => s
  | some a =>
    { s with disp := { s.disp with aspaces := Table.put s.disp.aspaces asid { a with waiting := a.waiting ++ [f] } } }

/-- The fault record of a copy of an element (R410). -/
def Ctx.faultRec (c : Ctx) (s : State) (k cls acc addr : Nat) (j : List W32) (errrec : W32) : Option FaultRec :=
  (c.cluster s).map (fun p =>
    { agent := .elem c.r (c.copySite k), cluster := p.1, cls := cls, who := c.copySite k, cidx := p.2.indexOf c.r,
      acc := acc, cfgid := c.cfgid, addr := addr, j := j, errrec := errrec })

/-- The record is queued in the ASID of the element's cluster. -/
def Ctx.raise (c : Ctx) (s : State) (k cls acc addr : Nat) (j : List W32) (errrec : W32) : State :=
  match c.faultRec s k cls acc addr j errrec, c.cluster s with
  | some f, some p => s.queueFault p.2.asid f
  | _, _ => s

/-- A copy parks holding a poisoned token (R311, R414). -/
def Ctx.parkToken (c : Ctx) (s : State) (k port : Nat) (t : Token) (acc addr : Nat) (j : List W32) : State :=
  let g := c.agent k
  let c1 := c.setAgent k { g with park := .parking, heldTok := some { port := port, token := t } }
  c1.raise (c1.back s) k clsPoison acc addr j (if t.err then t.record else 0#32)

/-- A held access takes its place in issue order (R407). -/
def holdAccess (l : List Access) (a : Access) : List Access := insertBy Access.id a l

/-- The point counters as a fault record carries them. -/
def counters (j : List Nat) : List W32 := j.map (BitVec.ofNat 32)

/-- A copy parks at an access (R407): it holds the access; the first access to fault names the record. -/
def Ctx.parkAccess (c : Ctx) (s : State) (k : Nat) (a : Access) (cls gst : Nat) : State :=
  let g := c.agent k
  let first := g.park == .running || g.park == .replaying
  let c1 := c.setAgent k { g with park := if first then .parking else g.park, replay := holdAccess g.replay a }
  if first then c1.raise (c1.back s) k cls (accField a.kind.acc a.space gst) (a.addr % 2 ^ 64) (counters a.j) 0#32
  else c1.back s

/-! ## Store modes of tile stores (R290, R291, R293) -/

/-- The line region of a tile store that contains an address, with its number, when it is not PLAIN. -/
def TileStore.at? (ts : TileStore) (a : Nat) : Option (Nat × StoreRegion) :=
  (ts.regions.zipIdx.find? (fun q => storeMode q.1.word != 0 &&
    decide (storeBase q.1.word ≤ a / 64) && decide (a / 64 < storeBase q.1.word + storeLen q.1.word))).map
    (fun q => (q.2, q.1))

/-- A line region before any access (R290). -/
def StoreRegion.fresh (w : W32) : StoreRegion :=
  { word := w, full := 0#4, w := 0#2, r := 0#2, head := 0#12, count := 0#12, wn := 0#64, o := 0#64 }

/-- The store state of a tile of a region. -/
def Region.tileStore (x : Region) (t : Nat) : TileStore := Table.get x.tiles t { cseq := 0, regions := [] }

/-- The tile has taken the store modes of an instance (R293). -/
def Region.tileReady (x : Region) (t cseq : Nat) : Bool := decide (cseq ≤ (x.tileStore t).cseq)

/-- Offset of an address from the base of its region, in lines. -/
def StoreRegion.rel (q : StoreRegion) (a : Nat) : Nat := a / 64 - storeBase q.word

/-- Lines per buffer of a MULTI region (R291). -/
def StoreRegion.bl (q : StoreRegion) : Nat := storeLen q.word / storeNb q.word

/-- An access waits before issue (R291): `first` at its run's first access, `n` accesses of the same element issued before
it and not yet performed. -/
def StoreRegion.waits (q : StoreRegion) (a : Nat) (store first : Bool) (n : Nat) : Bool :=
  match storeMode q.word, store with
  | 1, true => first && (n != 0 || q.full.getLsbD q.w.toNat)
  | 1, false => first && (n != 0 || !q.full.getLsbD q.r.toNat)
  | 2, true => decide (storeLen q.word ≤ q.count.toNat + n)
  | 2, false => decide (q.count.toNat ≤ n)
  | 3, true => decide (q.o.toNat + storeLen q.word ≤ q.wn.toNat + n)
  | 3, false => (first && n != 0) || decide (q.wn.toNat ≤ q.o.toNat + q.rel a)
  | _, _ => false

/-- The line an access reaches (R291), behind `n` issued accesses of the same element. -/
def StoreRegion.line (q : StoreRegion) (a : Nat) (store : Bool) (n : Nat) : Nat :=
  storeBase q.word +
  match storeMode q.word, store with
  | 1, true => q.w.toNat * q.bl + q.rel a
  | 1, false => q.r.toNat * q.bl + q.rel a
  | 2, true => (q.head.toNat + q.count.toNat + n) % storeLen q.word
  | 2, false => (q.head.toNat + n) % storeLen q.word
  | 3, true => (q.wn.toNat + n) % storeLen q.word
  | 3, false => (q.o.toNat + q.rel a) % storeLen q.word
  | _, _ => q.rel a

/-- What performing an access does to its region (R291). -/
def StoreRegion.performed (q : StoreRegion) (store : Bool) : StoreRegion :=
  match storeMode q.word, store with
  | 2, true => { q with count := q.count + 1#12 }
  | 2, false => { q with head := BitVec.ofNat 12 ((q.head.toNat + 1) % storeLen q.word), count := q.count - 1#12 }
  | 3, true => { q with wn := q.wn + 1#64 }
  | _, _ => q

/-- What the end of a run does to its region (R291). -/
def StoreRegion.runEnd (q : StoreRegion) (store : Bool) (adv : Nat) : StoreRegion :=
  let next (n : BitVec 2) : BitVec 2 := BitVec.ofNat 2 ((n.toNat + 1) % storeNb q.word)
  match storeMode q.word, store with
  | 1, true => { q with full := q.full ||| (1#4 <<< q.w.toNat), w := next q.w }
  | 1, false => { q with full := q.full &&& ~~~(1#4 <<< q.r.toNat), r := next q.r }
  | 3, false => { q with o := q.o + BitVec.ofNat 64 adv }
  | _, _ => q

/-- The line region at an address of a tile changed. -/
def Region.mapLines (x : Region) (t a : Nat) (f : StoreRegion → StoreRegion) : Region :=
  let ts := x.tileStore t
  match ts.at? a with
  | none => x
  | some (n, q) => { x with tiles := Table.put x.tiles t { ts with regions := ts.regions.set n (f q) } }

/-- An access to a tile store waits before issue (R291, R293). -/
def Ctx.tileWaits (c : Ctx) (sp : Space) (a : Nat) (store first : Bool) (n : Nat) : Bool :=
  match sp with
  | .tile t =>
    !c.x.tileReady t c.cseq || (match (c.x.tileStore t).at? a with
      | some (_, q) => q.waits a store first n
      | none => false)
  | _ => false

/-- The place of an access once it is resolved: in a tile store, the line its region's mode gives (R291). -/
def Ctx.placed (c : Ctx) (p : Place) (store : Bool) (n : Nat) : Place :=
  match p with
  | .tile r t o =>
    match (c.x.tileStore t).at? o with
    | some (_, q) => .tile r t (64 * q.line o store n)
    | none => p
  | _ => p

/-! ## Issuing an access (R306, R407) -/

/-- A fresh access of a copy. -/
def Ctx.access (c : Ctx) (p : Nat × Cluster) (k : Nat) (kind : AccKind) (sp : Space) (addr : Nat) (data : Beat)
    (j : List Nat) : Access :=
  { region := c.r, site := c.copySite k, id := (c.agent k).nextId, kind := kind, space := sp, addr := addr, data := data,
    j := j, place := none, sa := false, page := none, asid := p.2.asid, cluster := p.1 }

/-- An access is translated and goes to its port, or parks its copy (R149, R306, R407); `n` accesses of the copy are issued
and not performed. -/
def Ctx.issue (c : Ctx) (s : State) (k : Nat) (a : Access) (n : Nat) : State :=
  match c.cluster s with
  | none => c.back s
  | some (kn, cl) =>
    match s.resolveIn cl c.r a.space a.addr a.kind.acc with
    | (s1, .ok p sa) =>
      let s2 := c.back s1
      { s2 with ports := { s2.ports with
        pend := s2.ports.pend ++
          [{ a with place := some (c.placed p (a.kind == .store) n), sa := sa
                    page := (a.space.virt? a.addr).bind (s.pageOf cl.asid) }] } }
    | (s1, .fault cls) => c.parkAccess s1 k a cls 0
    | (s1, .protect) => (c.back s1).fatalFault kn 0x11 c.r (c.copySite k)

/-- A payload that the spec does not state, of a token that a poisoned operand gives rise to (R22, R31; log entry 12): a free
value of the operation, the operand's payload and the point. -/
def freePayload (op : Nat) (b : Beat) (j : List Nat) : Beat :=
  Config.freeBeat (j.foldl (fun n x => n * 2 ^ 32 + x) op * 2 ^ 512 + b.toNat)

/-- Every copy runs and holds no token: the element may consume (R407). -/
def Ctx.unparked (c : Ctx) : Bool := c.copies.all (fun k => (c.agent k).runs && (c.agent k).heldTok.isNone)

/-- The accesses of a copy that stand at a port. -/
def State.pendingOf (s : State) (r site : Nat) : List Access :=
  s.ports.pend.filter (fun a => a.region == r && a.site == site)

/-- A replaying copy reissues the first access it holds (R413): translated afresh; with none left it runs again. -/
def Ctx.reissue (c : Ctx) (s : State) (k : Nat) : Option State :=
  let g := c.agent k
  if g.park ≠ .replaying then none
  else
    match g.replay with
    | [] => if g.heldTok.isNone then some ((c.setAgent k { g with park := .running }).back s) else none
    | a :: rest =>
      let n := ((s.pendingOf c.r (c.copySite k)).filter (fun b => b.kind == a.kind)).length
      some ((c.setAgent k { g with replay := rest }).issue s k { a with place := none } n)

/-! ## Responses (R306) -/

/-- A copy appends to its response buffer. -/
def Ctx.respond (c : Ctx) (k : Nat) (l : List RespItem) : Ctx :=
  let g := c.agent k
  c.setAgent k { g with resp := g.resp ++ l }

/-- Beats of a response buffer: loads issued and not yet emitted. -/
def Agent.beats (g : Agent) : Nat :=
  (g.resp.filter (fun i => match i with
    | .load _ _ _ => true
    | .tok t => t.kind == .data
    | .endRun => false)).length

/-- A load's result takes its place in the response buffer. -/
def Agent.fillLoad (g : Agent) (id : Nat) (f : Bool → Option W32 → Token) : Agent :=
  { g with resp := g.resp.map (fun i => match i with
      | .load n p r => if n = id then .tok (f p r) else i
      | _ => i) }

/-- The token at the head of a copy's response buffer is emitted on output 0. -/
def Ctx.emitResp (c : Ctx) (k : Nat) : Option Ctx :=
  let g := c.agent k
  match g.resp with
  | .tok t :: rest =>
    if (if t.isControl then c.roomCtl 0 else c.room 0) then
      some ((c.emit 0 t).setAgent k { g with resp := rest })
    else none
  | _ => none

/-- The completion payload (R310). -/
def completionBeat (written notWritten : W32) : Beat :=
  written.setWidth 512 ||| (notWritten.setWidth 512 <<< 32)

end Sys2Proof.Machine
end

