-- ==== Sys2Proof/Machine/SeqFabric.lean ====
section
/-! DEFINITION. The sequencer's hand on the fabric (09_fabric_control.md): the configuration cache with its fetches, PREF,
CFG, RUN, SWO, INJ, TAKE, WEX, HALTA, RELA, ICOMMA and IMODE, and the events of loading, prefetching and exits. -/

namespace Sys2Proof.Machine

/-- A region changed. -/
def State.mapRegion (s : State) (r : Nat) (f : Region → Region) : State := s.setRegion r (f (s.region r))

/-- An event of a region: nothing where no cluster runs, after an abort or once the region is wedged (R185, R417, R419). -/
def State.inRegion (s : State) (r : Nat) (f : State → State) : Out := .next (if s.runs r then f s else s)

/-- An event of a region that a snapshot holds back, since the items of a frozen cluster do not change (R435). -/
def State.inMoving (s : State) (r : Nat) (f : State → State) : Out := .next (if s.moves r then f s else s)

/-! ## Reading an image (R99, R100, R101, R194) -/

/-- What a fetch and check of an image gives. -/
inductive ImageRes where
  | ok (cfg : Cfg) (exits : List W32)
  | rejected (w : W64)
  | missing
  | wait
  | fault (cls : Nat)
  | fatal (cls : Nat)
  deriving DecidableEq, Repr

/-- A read that gave no bytes, as the outcome of a fetch. -/
def ReadRes.stop : ReadRes → ImageRes
  | .ok _ => .missing
  | .wait => .wait
  | .fault c _ => .fault c
  | .fatal c => .fatal c

/-- The words of a byte list (R3). -/
def wordsOf (bs : List Byte) (n : Nat) : List W32 := (List.range n).map (fun i => BitVec.ofNat 32 (fieldLe bs (4 * i) 4))

/-- Searches the configuration directory for an identifier (R100): the bytes of its entry. In a directory out of order, or with
two entries of one identifier, the first match counts: a DESIGN CHOICE (log entry 53). -/
def State.findEntry (s : State) (rd : Reader) (kn : Nat) (k : Cluster) (r id : Nat) : Nat → Nat → State × ReadRes
  | 0, _ => (s, .ok [])
  | n + 1, a =>
    match s.readRange rd kn k r .virt a 64 with
    | (s1, .ok bs) => if fieldLe bs 0 2 = id then (s1, .ok bs) else State.findEntry s1 rd kn k r id n (a + 64)
    | x => x

/-- The directory entry of an identifier in a cluster's graph image; no bytes when it names none. -/
def State.dirEntry (s : State) (rd : Reader) (kn : Nat) (k : Cluster) (r id : Nat) : State × ReadRes :=
  s.findEntry rd kn k r id k.header.ncfg (k.recd.image + k.header.cdirOff).toNat

/-- The space a pattern descriptor names, its tile shifted by the cluster's offset (R144, R298). -/
def Desc.spaceUnder (d : Desc) (dx dy : Int) : Space :=
  match d.space with
  | 0 => .tile ((shiftTile dx dy d.tile).getD d.tile)
  | 1 => .island
  | _ => .virt

/-- The run tables the loader reads (R321): the rejections they give, or the read that stopped it. -/
def State.checkTables (s : State) (rd : Reader) (kn : Nat) (k : Cluster) (r : Nat) :
    List (At Rec × Desc) → List Reject → State × Except ReadRes (List Reject)
  | [], acc => (s, .ok acc)
  | (q, d) :: rest, acc =>
    let bad : Reject := { site := q.val.site, widx := q.opWord, code := 0xF }
    if tableDescOk d = false then State.checkTables s rd kn k r rest (acc ++ [bad])
    else
      match s.readRange rd kn k r (d.spaceUnder k.dx k.dy) (((d.base : Int) + d.start).toNat) (64 * d.counts.getD 0 0) with
      | (s1, .ok bs) => State.checkTables s1 rd kn k r rest (if tableOk (runEntries bs) then acc else acc ++ [bad])
      | (s1, x) => (s1, .error x)

/-- The loader's checks over the words of an image, and the configuration it becomes (R85, R86, R144, R321). The image's own
CFGID is not compared with its directory entry's, under which it runs: the model's choice (log entry 36). -/
def State.checkImage (s : State) (rd : Reader) (kn : Nat) (k : Cluster) (r : Nat) (words : List W32)
    (exits : List W32) : State × ImageRes :=
  match parseImage (k.dx != 0 || k.dy != 0) words with
  | .error e => (s, .rejected e.word)
  | .ok p =>
    match secondPass p k.dx k.dy k.recd.banks with
    | some e => (s, .rejected e.word)
    | none =>
      let q := p.shift k.dx k.dy
      match s.checkTables rd kn k r q.tableRecs [] with
      | (s1, .error x) => (s1, x.stop)
      | (s1, .ok l) =>
        match firstReject (l ++ maskFaults q) with
        | some e => (s1, .rejected e.word)
        | none => (s1, .ok (p.staged k.dx k.dy) exits)

/-- The image of a directory entry is read, each granule charged once (R460), and checked (R100, R101, R194). -/
def State.readImage (s : State) (rd : Reader) (kn : Nat) (k : Cluster) (r : Nat) (entry : List Byte) : State × ImageRes :=
  let a := (k.recd.image + BitVec.ofNat 64 (fieldLe entry 8 8)).toNat
  match s.readRange rd kn k r .virt a 32 with
  | (s1, .ok hd) =>
    let n := max 8 (fieldLe hd 28 4)
    match (s1.uncharged s).readRange rd kn k r .virt a (4 * n) with
    | (s2, .ok bs) => s2.checkImage rd kn k r (wordsOf bs n) (wordsOf (slice entry 16 32) 8)
    | (s2, x) => (s2, x.stop)
  | (s1, x) => (s1, x.stop)

/-- The image of an identifier, from the directory on. -/
def State.fetchImage (s : State) (rd : Reader) (kn : Nat) (k : Cluster) (r id : Nat) : State × ImageRes :=
  match s.dirEntry rd kn k r id with
  | (s1, .ok []) => (s1, .missing)
  | (s1, .ok bs) => s1.readImage rd kn k r bs
  | (s1, x) => (s1, x.stop)

/-! ## The cache (R192) -/

/-- The entry counts as FETCHED. -/
def Entry.isFetched (e : Entry) : Bool := e.state == .fetched || e.state == .rejected

/-- The entry holds its image checked. -/
def Entry.isChecked (e : Entry) : Bool := e.state != .rejected

/-- An entry that holds an identifier checked (R194). -/
def Region.checkedEntry (x : Region) (id : Nat) : Option Entry := x.cache.find? (fun e => e.cfgid == id && e.isChecked)

/-- The FETCHED entry fetched longest ago. -/
def Region.oldestFetched (x : Region) : Option Entry :=
  (x.cache.filter Entry.isFetched).foldl (fun o e => match o with
    | none => some e
    | some y => if e.age < y.age then some e else some y) none

/-- Room for one more entry (R192): a FREE entry, or the FETCHED entry fetched longest ago is evicted. -/
def Region.makeRoom (x : Region) : Region :=
  if x.cache.length < 8 then x
  else
    match x.oldestFetched with
    | none => x
    | some e => { x with cache := x.cache.erase e, predEvicted := if e.byPred then x.predEvicted + 1#32 else x.predEvicted }

/-- An entry that has just been fetched. -/
def Region.addFetched (x : Region) (id : Nat) (st : EntryState) (cfg : Cfg) (exits : List W32) (rj : W64)
    (pred : Bool) : Region :=
  { x with
    cache := x.cache ++ [{ state := st, cfgid := id, cseq := 0, age := x.nextAge, cfg := cfg, exits := exits, reject := rj,
                           byPred := pred, exitSt := .unsent }]
    nextAge := x.nextAge + 1 }

/-- An empty configuration, which a rejected entry holds in place of words. -/
def Cfg.empty : Cfg := { cfgid := 0, recs := [], arcs := [], routes := [], stores := [], masks := [], pool := [] }

/-- A fetch by PREF or the predictor can be of use (R195). -/
def Region.wantsFetch (x : Region) (id : Nat) : Bool :=
  id != 0 && (x.checkedEntry id).isNone && decide (x.committed.length < 8)

/-- A fetch and check in the background (R195, R212): it takes its entry, never waits on presence, and is abandoned by a
fault. An uncorrectable error or a save store it meets is a fatal fault (R404). -/
def State.prefetch (s : State) (r id : Nat) (pred : Bool) : State :=
  match (s.clusterOf r).bind (fun kn => (s.cluster? kn).map (fun k => (kn, k))) with
  | none => s
  | some (kn, k) =>
    if (s.region r).wantsFetch id = false then s
    else
      let keep (s1 : State) : State := { s1 with ports := { s1.ports with reads := s.ports.reads } }
      let take (s1 : State) : State := (keep s1).mapRegion r Region.makeRoom
      match s.fetchImage (.core (.seq r)) kn k r id with
      | (s1, .missing) => keep s1
      | (s1, .ok cfg ex) => (take s1).mapRegion r (fun x => x.addFetched id .fetched cfg ex 0#64 pred)
      | (s1, .rejected w) => (take s1).mapRegion r (fun x => x.addFetched id .rejected Cfg.empty [] w pred)
      | (s1, .wait) => take s1
      | (s1, .fault _) => take s1
      | (s1, .fatal c) => (take s1).fatalFault kn c r 0x1FF

/-- PREF (R195). -/
def execPref (a : SReg) (s : State) : Out :=
  onSeq s (.pref a) (fun r =>
    let v := (s.me.reg a).toNat
    let x := s.region r
    done (if v < 65536 ∧ x.wantsFetch v then s.setRegion r { x with prefetch := x.prefetch ++ [v] } else s) id)

/-- PREFETCH_CHECK (R195): the oldest background fetch of a region completes. -/
def execPrefetchCheck (region : Nat) (s : State) : Out :=
  s.inMoving region (fun s =>
    match (s.region region).prefetch with
    | [] => s
    | id :: rest => (s.mapRegion region (fun x => { x with prefetch := rest })).prefetch region id false)

/-- PREDICTOR_FETCH (R212): at most one fetch after each exit taken. -/
def execPredictorFetch (region cfgid : Nat) (s : State) : Out :=
  s.inMoving region (fun s =>
    if (s.region region).predReady then
      (s.mapRegion region (fun x => { x with predReady := false })).prefetch region (cfgid % 65536) true
    else s)

/-! ## CFG -/

/-- A CONFIG trap with its reason (R193, R194). -/
def configTrap (s : State) (i : Instr) (err ucause : Nat) : Out :=
  let c := s.me
  trap (s.setMe { c with cfgErr := BitVec.ofNat 3 err, ucause := if err = 4 then BitVec.ofNat 5 ucause else c.ucause })
    i causeConfig 0#64 0#64

/-- An instance is committed (R192, R194): it joins the commit queue STAGED. `used` is a fetch of the predictor's that it
used. -/
def Region.commit (x : Region) (id : Nat) (cfg : Cfg) (exits : List W32) (used : Bool) : Region :=
  { x with
    cache := x.cache ++ [{ state := .staged, cfgid := id, cseq := x.nextCseq, age := x.nextAge, cfg := cfg, exits := exits,
                           reject := 0#64, byPred := false, exitSt := .unsent }]
    nextCseq := x.nextCseq + 1
    nextAge := x.nextAge + 1
    predUsed := if used then x.predUsed + 1#32 else x.predUsed }

/-- CFG of an identifier that an entry holds checked: the FETCHED entry is taken, or its words are copied. -/
def Region.commitHeld (x : Region) (id : Nat) : Option Region :=
  match x.cache.find? (fun e => e.cfgid == id && e.state == .fetched) with
  | some e => some ({ x with cache := x.cache.erase e }.commit id e.cfg e.exits e.byPred)
  | none => (x.checkedEntry id).map (fun e => x.makeRoom.commit id e.cfg e.exits false)

/-- CFG once its identifier names a directory entry and fewer than eight instances are committed: the image is read and
checked. -/
def cfgRead (s : State) (i : Instr) (r kn cfgid : Nat) (res : State × ImageRes) : Out :=
  match res with
  | (s1, .ok cfg ex) => done (s1.mapRegion r (fun x => x.makeRoom.commit cfgid cfg ex false)) id
  | (s1, .rejected w) => configTrap (s1.setMe { s1.me with cfgReject := w }) i 3 0
  | (s1, .missing) => configTrap s1 i 1 0
  | (s1, .wait) => .next (s1.uncharged s)
  | (s1, .fault c) => configTrap s1 i 4 (c + 4)
  | (s1, .fatal c) =>
    .next ((s1.setMe { s1.me with run := .stopped }).fatalFault kn c r 0x1FF)

/-- CFG (R194). -/
def execCfg (a : SReg) (s : State) : Out :=
  onSeq s (.cfg a) (fun r =>
    let i : Instr := .cfg a
    let v := (s.me.reg a).toNat
    let x := s.region r
    match (s.clusterOf r).bind (fun kn => (s.cluster? kn).map (fun k => (kn, k))) with
    | none => .next s
    | some (kn, k) =>
      let full := decide (8 ≤ x.committed.length)
      if v = 0 ∨ 65535 < v then configTrap s i 1 0
      else
        match x.cache.find? (fun e => e.cfgid == v) with
        | some _ =>
          if full then configTrap s i 2 0
          else
            match x.commitHeld v with
            | some x1 => done (s.setRegion r x1) id
            | none =>
              match x.cache.find? (fun e => e.cfgid == v && e.state == .rejected) with
              | some e => configTrap (s.setMe { s.me with cfgReject := e.reject }) i 3 0
              | none => .next s
        | none =>
          match s.dirEntry (.core (.seq r)) kn k r v with
          | (s1, .ok []) => configTrap s1 i 1 0
          | (s1, .ok bs) => if full then configTrap s1 i 2 0 else cfgRead s i r kn v (s1.readImage (.core (.seq r)) kn k r bs)
          | (s1, z) => if full then configTrap s1 i 2 0 else cfgRead s i r kn v (s1, z.stop))

/-- CONFIG_LOAD (R196): the first committed instance that a site has not adopted is loaded into its next configuration
register, once that register is free: its record, or an empty one. -/
def execConfigLoad (region site : Nat) (s : State) : Out :=
  s.inMoving region (fun s =>
    let x := s.region region
    let t := x.site site
    let load (e : Entry) (q : Option Rec) (k : Nat) : State :=
      s.setRegion region (x.setSite site { t with next := some { cseq := e.cseq, cfgid := e.cfgid, recd := q, copy := k } })
    if t.next.isSome ∨ t.frozen ∨ 512 ≤ site then s
    else
      match x.committed.find? (fun e => decide (x.adopted site < e.cseq)) with
      | none => s
      | some e =>
        match e.cfg.recAt site with
        | some (q, k) => load e (some q) k
        | none => load e none 0)

/-! ## Snapshots reach a region (R162, R209, R420 to R422) -/

/-- The sites that arcs of the committed instances reach from a set of sites. -/
def reachSites (arcs : List (Nat × Nat)) : Nat → List Nat → List Nat
  | 0, l => l
  | n + 1, l =>
    let more := (arcs.filter (fun a => l.contains a.1 && !l.contains a.2)).map Prod.snd
    if more.isEmpty then l else reachSites arcs n (more.foldl (fun l m => if l.contains m then l else l ++ [m]) l)

/-- The sites that a COMMA given to the sources and the sequencer's output ports of the LIVE instances reaches (R422). -/
def Region.commaReach (x : Region) : List Nat :=
  let live := x.liveEntries
  let src := live.flatMap (fun e => e.cfg.sources.map Rec.site)
  let seq := live.flatMap (fun e => (e.cfg.arcs.filter (fun a => a.pseq && !a.cseq)).map ArcWord.csite)
  let arcs := x.committed.flatMap (fun e =>
    (e.cfg.arcs.filter (fun a => !a.pseq && !a.cseq)).map (fun a => (a.psite, a.csite)))
  reachSites arcs 512 (src ++ seq)

/-- A COMMA is set on arcs (R421). -/
def Region.commaOn (x : Region) (c : Nat) (l : List Nat) : Region :=
  l.foldl (fun x n => x.setArc c n { x.arc c n with comma := true }) x

/-- COMMA goes out on every arc of the committed instances that leaves a site (R422). -/
def Region.commaFrom (x : Region) (site : Nat) : Region :=
  x.committed.foldl (fun x e =>
    x.commaOn e.cseq ((e.cfg.arcs.zipIdx.filter (fun a => !a.1.pseq && a.1.psite == site)).map Prod.snd)) x

/-- The record that a site runs. -/
def Site.recd? (t : Site) : Option Rec := t.active.bind (fun l => l.recd)

/-- The sites, not frozen, that run a record whose own site is given: an element with its copies. -/
def Region.membersOf (x : Region) (site : Nat) : List Nat :=
  (x.sites.filter (fun e => !e.2.frozen && e.2.recd?.any (fun q => q.site == site))).map Prod.fst

/-- Sites freeze. -/
def Region.freeze (x : Region) (l : List Nat) : Region := l.foldl (fun x n => x.setSite n { x.site n with frozen := true }) x

/-- The COMMA of a snapshot is delivered in a region (R209, R422): to every source of every LIVE instance, on every arc from
a sequencer output port, and to every element it would not reach, which freezes with its copies and emits COMMA. -/
def Region.deliverComma (x : Region) (payload : W32) : Region :=
  let tok : Token := { kind := .comma, poison := false, err := false, payload := payload.setWidth 512 }
  let x1 := x.liveEntries.foldl (fun x e => (x.deliver e.cseq e.cfg tok).commaOn e.cseq (e.cfg.seqOut none)) x
  let reach := x.commaReach
  let apart (e : Nat × Site) : Bool := !e.2.recd?.any (fun q => reach.contains q.site)
  ((x1.sites.filter apart).map Prod.fst).foldl (fun x n => x.commaFrom n) (x1.freeze ((x1.sites.filter apart).map Prod.fst))

/-- A core that has made its SC store completes that instruction; an SC load is abandoned (R162, R391). -/
def Core.settle (c : Core) : Core :=
  match c.wait with
  | .scDone true _ => c.retire
  | .scDone false _ => { c with wait := .none, fetched := none }
  | _ => c

/-- A sequencer freezes between two instructions, and a waiting one is abandoned (R162): its posted reads, its semaphore
request and an SC access not yet performed are withdrawn, an SC load already performed is re-executed, and an SC store that
has made its write completes; a BAR keeps its arrival (R383). -/
def State.freezeCore (s : State) (r : Nat) : State :=
  let c := s.core (.seq r)
  if c.run ≠ .running then s
  else
    let s1 := s.dropCoreReads (.seq r)
    match c.wait with
    | .sema _ => (s1.setCore (.seq r) { c with run := .frozen, wait := .none, fetched := none }).withdrawSem r
    | .scPosted =>
      { s1.setCore (.seq r) { c with run := .frozen, wait := .none, fetched := none } with
        ports := { s1.ports with sc := s1.ports.sc.filter (fun a => a.core != .seq r) } }
    | .scDone _ _ => s1.setCore (.seq r) { c.settle with run := .frozen }
    | _ => s1.setCore (.seq r) { c with run := .frozen, fetched := none }

/-- A snapshot reaches one sequencer (R209, R420): it delivers the COMMA and freezes. -/
def State.snapRegion (s : State) (payload : W32) (r : Nat) : State :=
  (s.mapRegion r (fun x => x.deliverComma payload)).freezeCore r

/-- The core is in a RUN that has made its instance LIVE (R197). -/
def Core.inRun (c : Core) : Bool :=
  match c.wait with
  | .run _ => true
  | _ => false

/-- A snapshot of a cluster begins, or joins the one under way (R420): every sequencer delivers it, one that stands in RUN
when that has completed (R197). -/
def State.beginSnapshot (s : State) (kn : Nat) (preempt : Option Nat) (number : W32) : State :=
  match s.cluster? kn with
  | none => s
  | some k =>
    match k.snap with
    | some p => if preempt.isSome then s.setCluster kn { k with snap := some { p with preempt := preempt } } else s
    | none =>
      (k.regions.filter (fun r => !(s.core (.seq r)).inRun)).foldl (fun s r => s.snapRegion number r)
        (s.setCluster kn { k with snap := some { preempt := preempt, number := number } })

/-- ICOMMA (R209, R420). -/
def execIcomma (a : SReg) (s : State) : Out :=
  onSeq s (.icomma a) (fun r =>
    match s.clusterOf r with
    | none => .next s
    | some kn =>
      let v : W32 := (s.me.reg a).setWidth 32
      .next ((((s.setMe s.me.retire).beginSnapshot kn none v)).freezeCore r))

/-! ## RUN and SWO -/

/-- Every site of an instance has adopted it (R197). -/
def Region.allAdopted (x : Region) (c : Nat) (cfg : Cfg) : Bool :=
  cfg.recs.all (fun q => (q.site :: q.sites).all (fun t => decide (c ≤ x.adopted t)))

/-- The oldest STAGED instance. -/
def Region.oldestStaged (x : Region) : Option Entry := x.committed.find? (fun e => e.state == .staged)

/-- The youngest LIVE instance. -/
def Region.youngestLive (x : Region) : Option Entry := x.liveEntries.getLast?

/-- An instance becomes LIVE. -/
def Region.goLive (x : Region) (c : Nat) : Region := x.mapHeld c (fun e => { e with state := .live })

/-- RUN completes once every site has adopted (R197); a snapshot under way then reaches the sequencer. -/
def runWait (s : State) (r c : Nat) : Out :=
  let x := s.region r
  match x.held c with
  | none => .next s
  | some e =>
    if x.allAdopted c e.cfg then
      let s1 := s.setMe s.me.retire
      .next (match ((s1.clusterOf r).bind s1.cluster?).bind Cluster.snap with
        | some p => s1.snapRegion p.number r
        | none => s1)
    else waiting s (.run c)

/-- RUN (R197). -/
def execRun (s : State) : Out :=
  onSeq s .run (fun r =>
    let x := s.region r
    match s.me.wait with
    | .run c => runWait s r c
    | _ =>
      if !x.liveEntries.isEmpty then configTrap s .run 6 0
      else
        match x.oldestStaged with
        | none => configTrap s .run 5 0
        | some e => runWait (s.setRegion r (x.goLive e.cseq)) r e.cseq)

/-- A control token is delivered to every source of an instance (R199, R210): to its source elements, and behind the tokens
on the arcs from the sequencer's output ports; none when one of those arcs cannot yet accept it. -/
def Region.toSources (x : Region) (e : Entry) (t : Token) : Option Region :=
  let outs := e.cfg.seqOut none
  if outs.all (fun n => x.acceptsCtl e.cseq n) then some ((x.deliver e.cseq e.cfg t).pushAll e.cseq outs t) else none

/-- SWO (R199). -/
def execSwo (a : SReg) (s : State) : Out :=
  onSeq s (.swo a) (fun r =>
    let x := s.region r
    match x.youngestLive, x.oldestStaged with
    | none, _ => configTrap s (.swo a) 7 0
    | some _, none => configTrap s (.swo a) 5 0
    | some o, some e =>
      if (s.me.reg a).toNat ≠ e.cfgid then configTrap s (.swo a) 5 0
      else
        match (x.goLive e.cseq).toSources o (switchTok e.cfgid) with
        | none => .next s
        | some x1 => done (s.setRegion r x1) id)

/-! ## Ports of the sequencer -/

/-- An ARC trap (R206 to R210). -/
def arcTrap (s : State) (i : Instr) : Out := trap s i causeArc 0#64 0#64

/-- A DATA token is admitted on arcs of a sequencer output port, each in the quadrant of its consumer (R437). -/
def Region.admitInto (x : Region) (cfg : Cfg) (outs : List Nat) : Region :=
  outs.foldl (fun x n => match cfg.arcs[n]? with
    | some a => if a.cseq then x else x.countInject (tileQuadrant (siteTile a.csite))
    | none => x) x

/-- INJ (R206): the token is placed on the arcs of a sequencer output port of the youngest LIVE instance once they have
room. -/
def inject (s : State) (i : Instr) (r p : Nat) (t : Token) : Out :=
  let x := s.region r
  match x.youngestLive with
  | none => arcTrap s i
  | some e =>
    let outs := e.cfg.seqOut (some p)
    if outs.isEmpty then arcTrap s i
    else if outs.all (fun n => x.accepts e.cseq n t) then
      done (s.setRegion r ((if t.kind = .data then x.admitInto e.cfg outs else x).pushAll e.cseq outs t)) id
    else .next s

/-- The payload of INJ.DATA: concat(zero384, sb, sa) (R206). -/
def injPayload (c : Core) (a b : SReg) : Beat := ((c.reg b).setWidth 512 <<< 64) ||| (c.reg a).setWidth 512

/-- INJ.DATA (R206). -/
def execInjData (a b : SReg) (port : BitVec 4) (s : State) : Out :=
  onSeq s (.injData a b port) (fun r => inject s (.injData a b port) r port.toNat (dataTok (injPayload s.me a b)))

/-- INJ.DATA.P (R206). -/
def execInjDataP (a b : SReg) (port : BitVec 4) (s : State) : Out :=
  onSeq s (.injDataP a b port) (fun r =>
    inject s (.injDataP a b port) r port.toNat { dataTok (injPayload s.me a b) with poison := true })

/-- INJ.STOP (R206): a depth above 7 or a nonzero sb raises ARC, behind the check that the arc exists. -/
def execInjStop (a b : SReg) (port : BitVec 4) (s : State) : Out :=
  onSeq s (.injStop a b port) (fun r =>
    let v := (s.me.reg a).toNat
    if 7 < v ∨ s.me.reg b ≠ 0#64 then arcTrap s (.injStop a b port)
    else inject s (.injStop a b port) r port.toNat (stopTok v))

/-- MODE tokens at the head of a sequencer input port are consumed, and SWITCHOVER moves the port on (R207). -/
def Region.skipModes (p : Nat) : Nat → Region → Region
  | 0, x => x
  | n + 1, x =>
    let x1 := x.portMove p 8
    match x1.portAt p, x1.portHead p with
    | some a, some t => if t.kind = .mode then Region.skipModes p n (x1.pop a.1 a.2) else x1
    | _, _ => x1

/-- A MODE at the head of a sequencer input port is consumed while its arc has no place for a token that may still come: so many
as this takes (R207, R219). -/
def Region.makePlace (p : Nat) : Nat → Region → Region
  | 0, x => x
  | n + 1, x =>
    match x.portAt p, x.portHead p with
    | some a, some t =>
      let q := x.arcNow a.1 a.2
      let closed := (q.queue ++ q.ctl.toList).any (fun u => u.kind == .switchover)
      let place := q.ctl.isNone && decide (q.queue.length < x.cap a.1 a.2)
      if t.kind = .mode ∧ !closed ∧ !place then Region.makePlace p n (x.pop a.1 a.2) else x
    | _, _ => x

/-- TAKE (R207): the MODE and SWITCHOVER tokens before the token it takes are consumed with it, so that a snapshot meets them in
place while TAKE waits; a full arc gives up a MODE before (log entry 37). -/
def execTake (d : SReg) (port : BitVec 4) (s : State) : Out :=
  onSeq s (.take d port) (fun r =>
    let p := port.toNat
    if ((s.region r).portAt p).isNone then arcTrap s (.take d port)
    else
      let x := (s.region r).skipModes p 64
      match x.portAt p with
      | none => arcTrap (s.setRegion r x) (.take d port)
      | some a =>
        match x.headOf a.1 a.2 with
        | none => .next (s.setRegion r ((s.region r).makePlace p 64))
        | some t =>
          done (s.setRegion r ((x.pop a.1 a.2).portMove p 8))
            (fun c => { c.setReg d (t.payload.setWidth 64) with ltag := t.tag }))

/-- EXIT_LAST (R204). -/
def exitWord (swept : Bool) (cfgid n : Nat) : W64 :=
  BitVec.ofNat 64 (n % 8 + 2 ^ 16 * (cfgid % 65536) + 2 ^ 32 + (if swept then 2 ^ 33 else 0))

/-- The instance whose exit comes next: the oldest whose exit has not been taken (R203). -/
def Region.exitNext (x : Region) : Option Entry := x.committed.find? (fun e => e.exitSt != .taken)

/-- The head of a sequencer input port is removed. -/
def Region.popPort (x : Region) (p : Nat) : Region :=
  match x.portAt p with
  | some a => x.pop a.1 a.2
  | none => x

/-- WEX takes an exit (R205): one that is not swept from the head of port 15. -/
def takeExit (s : State) (d : SReg) (r : Nat) (e : Entry) (swept : Bool) (n : Nat) : Out :=
  let v := exitWord swept e.cfgid n
  let t := e.exits.getD (n % 8) 0xFFFFFFFF#32
  let x := if swept then s.region r else (s.region r).popPort 15
  let s1 := s.setRegion r { x.mapHeld e.cseq (fun e => { e with exitSt := .taken }) with predReady := true }
  let s2 := s1.setMe { s1.me with exitLast := v, iter := s1.me.iter + 1#64 }
  if swept || t == 0xFFFFFFFF#32 then trap s2 (.wex d) causeExit 0#64 0#64
  else .next (s2.setMe ((s2.me.setReg d v).complete (t.setWidth 64)))

/-- WEX (R205); a debug halt of its arc keeps an exit token (R208). -/
def execWex (d : SReg) (s : State) : Out :=
  onSeq s (.wex d) (fun r =>
    match (s.region r).exitNext with
    | none => .next s
    | some e =>
      match e.exitSt with
      | .arrived n => if ((s.region r).portHead 15).isSome then takeExit s d r e false n else .next s
      | .swept => takeExit s d r e true 0
      | _ => .next s)

/-- Every site and every sequencer input port that ran an instance has adopted a later one (R203, R211). -/
def Region.leftBehind (x : Region) (e : Entry) : Bool :=
  x.allAdopted (e.cseq + 1) e.cfg &&
  (List.range 16).all (fun p => (e.cfg.seqIn p).isNone || decide (e.cseq < Table.get x.ports p 0))

/-- EXIT_ARRIVAL (R203, R495): the token at port 15. An exit token sets EXIT; the first one of an instance stays for WEX, and the
tokens behind it wait; a further one, a STOP and a MODE are discarded and counted; a SWITCHOVER moves the port on. With no token
there, an instance that every element and port has left without an exit sends a swept exit. -/
def Region.exitArrive (x : Region) : Region :=
  match x.portAt 15, x.portHead 15 with
  | some a, some t =>
    let x1 := x.pop a.1 a.2
    match t.kind with
    | .data =>
      let raised (y : Region) : Region := { y with core := y.core.raiseEvent 0 }
      match (x.held a.1).map Entry.exitSt with
      | some .unsent => (raised x).mapHeld a.1 (fun e => { e with exitSt := .arrived (t.payload.toNat % 8) })
      | some (.arrived _) => x
      | _ => (raised x1).seqDiscarded
    | .switchover => { x1 with ports := Table.put x1.ports 15 (a.1 + 1) }
    | .comma => x1
    | _ => x1.seqDiscarded
  | _, _ =>
    match x.committed.find? (fun e => e.exitSt == .unsent) with
    | none => x
    | some e =>
      if x.liveEntries.any (fun l => decide (e.cseq < l.cseq)) && x.leftBehind e then
        let x1 := x.mapHeld e.cseq (fun e => { e with exitSt := .swept })
        { x1 with core := x1.core.raiseEvent 0 }
      else x

/-- EXIT_ARRIVAL (R203), outside a snapshot (R435). -/
def execExitArrival (region : Nat) (s : State) : Out := s.inMoving region (fun s => s.mapRegion region Region.exitArrive)

/-! ## Debug halts and modes -/

/-- The halted arcs of a region (R208). -/
def Region.haltedArcs (x : Region) : Nat := (x.arcs.filter (fun a => a.2.halted)).length

/-- HALTA (R208). -/
def execHalta (arc : BitVec 10) (s : State) : Out :=
  onSeq s (.halta arc) (fun r =>
    let x := s.region r
    match x.youngestLive with
    | none => arcTrap s (.halta arc)
    | some e =>
      let n := arc.toNat
      if e.cfg.arcs.length ≤ n then arcTrap s (.halta arc)
      else if (x.arc e.cseq n).halted then done s id
      else if 16 ≤ x.haltedArcs then arcTrap s (.halta arc)
      else done (s.setRegion r (x.setArc e.cseq n { x.arc e.cseq n with halted := true })) id)

/-- RELA (R208). -/
def execRela (arc : BitVec 10) (s : State) : Out :=
  onSeq s (.rela arc) (fun r =>
    let x := s.region r
    match x.youngestLive with
    | none => done s id
    | some e => done (s.setRegion r (x.setArc e.cseq arc.toNat { x.arc e.cseq arc.toNat with halted := false })) id)

/-- IMODE (R210). -/
def execImode (m : BitVec 8) (s : State) : Out :=
  onSeq s (.imode m) (fun r =>
    let x := s.region r
    match x.youngestLive with
    | none => arcTrap s (.imode m)
    | some e =>
      match x.toSources e (modeTok m) with
      | none => .next s
      | some x1 => done (s.setRegion r x1) id)

end Sys2Proof.Machine
end

