-- ==== Sys2Proof/Machine/Ag.lean ====
section
/-! DEFINITION. The address generators (R295 to R313): runs over a pattern, loads with their responses in point order, stores,
fills and clears with their completions, and the performing of an access at its port (R289, R338, R371). -/

namespace Sys2Proof.Machine

/-! ## Runs over a pattern (R298 to R301) -/

/-- The run state of a copy. -/
def Ctx.ag (c : Ctx) (k : Nat) : AgState :=
  match (c.copyState k).op with
  | .ag a => a
  | _ => AgState.init

/-- That state written. -/
def Ctx.setAg (c : Ctx) (k : Nat) (a : AgState) : Ctx := c.setCopy k { c.copyState k with op := .ag a }

/-- The pattern descriptor of an address generator. -/
def Ctx.desc (c : Ctx) : Desc := descOf (c.pool (c.recd.e 0 % 65536))

/-- The dimension at which a run's odometer turns: 0 when every COUNT is positive, else the one above the outermost COUNT of
0, below which a run visits nothing (R300, R312). -/
def odoBase : Nat → List (Nat × Int) → Nat
  | _, [] => 0
  | d, x :: rest =>
    let b := odoBase (d + 1) rest
    if b ≠ 0 then b else if x.1 = 0 then d + 1 else 0

/-- The odometer turns from dimension `d` on (R300): the counters, the marks passed, and whether the run has ended. -/
def turnOdo (j : List Nat) : Nat → List (Nat × Int) → List Nat × List Nat × Bool
  | _, [] => (j, [], true)
  | d, x :: rest =>
    let v := j.getD d 0 + 1
    if v < x.1 then (j.set d v, [], false)
    else
      let (j', marks, done) := turnOdo (j.set d 0) (d + 1) rest
      (j', d :: marks, done)

/-- What follows the point or empty span at the counters `j` of a run (R300). -/
def Desc.turn (d : Desc) (j : List Nat) : List Nat × List Nat × Bool :=
  let b := odoBase 0 d.dims
  turnOdo j b (d.dims.drop b)

/-- The address of a point (R300). -/
def Desc.point (d : Desc) (off : Int) (j : List Nat) : Int :=
  ((d.dims.zip j).foldl (fun s x => s + (x.2 : Int) * x.1.2) ((d.base : Int) + off))

/-- scatter_place (R299): the tiles of a scatter set are shifted one by one (R144). -/
def scatterPlace (dx dy : Int) (d : Desc) (a : Nat) : Space × Nat :=
  let set := scatterSet d.tile d.ilk
  let u := a / 64
  let t := set.getD (u % 2 ^ d.ilk) d.tile
  (.tile ((shiftTile dx dy t).getD t), 64 * (u / 2 ^ d.ilk))

/-- The space and address of an access at a byte address (R299). -/
def Ctx.reach (c : Ctx) (k : Cluster) (a : Nat) : Space × Nat :=
  let d := c.desc
  if c.recd.opc = 4 ∧ d.space = 0 then scatterPlace k.dx k.dy d a else (d.spaceUnder k.dx k.dy, a)

/-- The copy that the next run goes to (R313). -/
def Ctx.nextRun (c : Ctx) : Nat := (c.ag 0).runs % c.recd.copies

/-- The copy of the run whose results are emitted next (R313). -/
def Ctx.emitting (c : Ctx) : Nat := (c.ag 0).emitRun % c.recd.copies

/-- The copy that the next run goes to can begin it. -/
def Ctx.canBegin (c : Ctx) : Bool :=
  let k := c.nextRun
  let g := c.agent k
  c.hasCopy k && !(c.ag k).isOpen && g.runs && g.heldTok.isNone

/-- A run begins on the next copy. -/
def Ctx.beginRun (c : Ctx) (off : Int) (poison : Bool) (recd : Option W32) (bad : Option Token) : Ctx :=
  let k := c.nextRun
  let c1 := c.setAg 0 { c.ag 0 with runs := (c.ag 0).runs + 1 }
  c1.setAg k { c1.ag k with
    isOpen := true, off := off, j := [0, 0, 0, 0, 0], poison := poison, recd := recd, bad := bad, past := false,
    touched := false }

/-- The run whose results are emitted next is finished. -/
def Ctx.endEmit (c : Ctx) : Ctx := c.setAg 0 { c.ag 0 with emitRun := (c.ag 0).emitRun + 1 }

/-- Every run begun has been emitted. -/
def Ctx.agIdle (c : Ctx) : Bool := (c.ag 0).emitRun == (c.ag 0).runs

/-! ## Loads (R302, R303, R306) -/

/-- The marks of a run as response items. -/
def markItems (marks : List Nat) : List RespItem := marks.map (fun d => .tok (stopTok d))

/-- An access of a copy's run issues (R291). -/
def Ctx.touch (c : Ctx) (k : Nat) : Ctx := c.setAg k { c.ag k with touched := true }

/-- A load run moves past a point, its marks behind the item of the point; the run closes behind its last mark. -/
def Ctx.passPoint (c : Ctx) (k : Nat) (first : List RespItem) : Ctx :=
  let a := c.ag k
  let (j, marks, done) := c.desc.turn a.j
  let c1 := c.respond k (first ++ markItems marks ++ (if done then [.endRun] else []))
  c1.setAg k { a with j := j, isOpen := !done }

/-- The next point of a copy's open load run (R300, R303, R306, R312). -/
def loadPoint (s : State) (c : Ctx) (k : Nat) : Option State :=
  let a := c.ag k
  let g := c.agent k
  let d := c.desc
  if !a.isOpen || !g.runs then none
  else if d.isEmpty then
    some ((c.passPoint k [.tok (stopTok (odoBase 0 d.dims - 1))]).back s)
  else if 16 ≤ g.beats then none
  else
    match a.bad with
    | some t =>
      let t1 : Token := if t.err then t else { t with payload := freePayload 0 t.payload a.j }
      some ((c.passPoint k [.tok t1]).back s)
    | none =>
      match c.cluster s with
      | none => none
      | some p =>
        let (sp, addr) := c.reach p.2 (d.point a.off a.j).toNat
        let n := (s.pendingOf c.r (c.copySite k)).length
        if c.tileWaits sp addr false (!a.touched) n then none
        else
          let acc := c.access p k .load sp addr 0#512 a.j
          let c1 := (c.passPoint k [.load g.nextId a.poison a.recd]).touch k
          some ((c1.setAgent k { c1.agent k with nextId := g.nextId + 1 }).issue s k acc n)

/-- The index an index token names (R303). -/
def indexOfTok (ty : Nat) (t : Token) : Int :=
  if ty = tyI32 then signed (laneAt t.payload 32 0) 32
  else if ty = tyN32 then (laneAt t.payload 32 0 : Nat)
  else signed (laneAt t.payload 64 0) 64

/-- Why a run at an offset makes no access (R303): its error token, formed at a site; a pattern without points has no
error (R312). -/
def Desc.badOffset (d : Desc) (off : Int) (site : Nat) : Option Token :=
  if d.isEmpty then none
  else if off % 64 ≠ 0 then some (errTok (errRecord 6 site))
  else if d.inBounds off then none
  else some (errTok (errRecord 5 site))

/-- The record of a token that carries ERR. -/
def Token.errRec (t : Token) : Option W32 := if t.err then some t.record else none

/-- ALOAD begins a run (R302): once as a source, or on a trigger. -/
def aloadStart (c : Ctx) : Option Ctx :=
  if !c.canBegin then none
  else if c.recd.inMask = 0 then (if (c.ag 0).runs = 0 then some (c.beginRun c.desc.start false none none) else none)
  else (c.dataAt 0).map (fun t => ((c.take 0).beginRun c.desc.start t.poison t.errRec none).firedAt c.nextRun)

/-- GATHER begins a run (R303). -/
def gatherStart (c : Ctx) : Option Ctx :=
  if !c.canBegin then none
  else
    (c.dataAt 0).map (fun t =>
      let off := indexOfTok (c.inTy 0) t * c.desc.word15.toNat
      let bad := if t.poison then some (poisonTok true t.errRec t.payload) else c.desc.badOffset off (c.copySite c.nextRun)
      ((c.take 0).beginRun off false none bad).firedAt c.nextRun)

/-- An event of a loading operation: a copy that replays reissues; copy 0 begins a run when it can; else the copy visits its
next point. -/
def loadEvent (start : Ctx → Option Ctx) (s : State) (c : Ctx) (k : Nat) : Option State :=
  match c.reissue s k with
  | some s1 => some s1
  | none =>
    match (if k = 0 then start c else none) with
    | some c1 => some (c1.back s)
    | none => loadPoint s c k

/-- An event of a copy of an operation with a memory side. -/
def agentOp (s : State) (r site : Nat) (kind : EKind) (opc : Nat) (f : State → Ctx → Nat → Option State) : Out :=
  orStay s ((copyCtx s r site).bind (fun p => if p.1.recd.isOp kind opc then f s p.1 p.2 else none))

/-- AG_ALOAD (R302). -/
def execAgAload (region site : Nat) (s : State) : Out := agentOp s region site .ag 1 (loadEvent aloadStart)

/-- AG_GATHER (R303). -/
def execAgGather (region site : Nat) (s : State) : Out := agentOp s region site .ag 3 (loadEvent gatherStart)

/-- A run's marker stands at the head of its copy's responses: the run is emitted. -/
def dropEnd (c : Ctx) (k : Nat) : Ctx :=
  let g := c.agent k
  match g.resp with
  | .endRun :: rest =>
    let c1 := (c.setAgent k { g with resp := rest }).endEmit
    { c1 with st := { c1.st with srcEnd := c1.recd.inMask == 0 } }
  | _ => c

/-- The next response in run and point order is emitted (R306, R313). -/
def emitResponse (c : Ctx) : Option Ctx :=
  let k := c.emitting
  (c.emitResp k).map (fun c1 => (dropEnd c1 k).count k)

/-- AG_RESPONSE_EMIT (R306). -/
def execAgResponseEmit (region site : Nat) (s : State) : Out :=
  orStay s ((ctxOf s region site).bind (fun c =>
    if c.recd.isOp .ag 1 || c.recd.isOp .ag 3 then (emitResponse c).map (fun c' => c'.back s) else none))

/-! ## Stores (R307 to R311) -/

/-- A copy counts beats as not written. -/
def Ctx.notWritten (c : Ctx) (k : Nat) : Ctx :=
  let g := c.agent k
  c.setAgent k { g with notWritten := g.notWritten + 1#32 }

/-- A storing run moves past a point; past the last, `close` ends it and else it stays open. -/
def Ctx.passStore (c : Ctx) (k : Nat) (close : Bool) : Ctx :=
  let a := c.ag k
  let (j, _, done) := c.desc.turn a.j
  c.setAg k { a with j := j, past := done, isOpen := !(done && close) }

/-- A copy issues a store or a clear at its next point; `taken` consumes what gives the beat, `fin` finishes the firing. -/
def storePoint (s : State) (c : Ctx) (k : Nat) (kind : AccKind) (data : Beat) (close : Bool) (taken fin : Ctx → Ctx) :
    Option State :=
  let a := c.ag k
  let g := c.agent k
  match c.cluster s with
  | none => none
  | some p =>
    let (sp, addr) := c.reach p.2 (c.desc.point a.off a.j).toNat
    if 16 ≤ g.outst.length || c.tileWaits sp addr true (!a.touched) g.outst.length then none
    else
      let acc := c.access p k kind sp addr data a.j
      let c1 := ((taken c).passStore k close).touch k
      let c2 := c1.setAgent k { c1.agent k with nextId := g.nextId + 1, outst := g.outst ++ [g.nextId] }
      some ((fin c2).issue s k acc g.outst.length)

/-- The ACC field of a poisoned token at a storing element (R410). -/
def Ctx.storeAcc (c : Ctx) (s : State) (kind : AccKind) : Nat :=
  match c.cluster s with
  | none => 0
  | some p => accField kind.acc (c.desc.spaceUnder p.2.dx p.2.dy) 0

/-- A poisoned beat at a point of a storing run parks the copy (R311); its run makes no access there. -/
def parkBeat (s : State) (c : Ctx) (k port : Nat) (t : Token) : State :=
  let a := c.ag k
  let addr := if a.bad.isSome then 0
    else match c.cluster s with
      | none => 0
      | some p => (c.reach p.2 (c.desc.point a.off a.j).toNat).2
  (c.take port).parkToken s k port t (c.storeAcc s .store) addr (counters a.j)

/-- A DATA beat of a port for the open run of a storing copy, held (already consumed) or at the port's head: its store, with every
NaN canonical (R37) unless it is a scale beat (R40), or a beat not written. -/
def storeBeat (s : State) (c : Ctx) (k port : Nat) (t : Token) (held close : Bool) (taken fin : Ctx → Ctx) : Option State :=
  if (c.ag k).bad.isSome then some ((fin (((taken c).notWritten k).passStore k close)).back s)
  else
    storePoint s c k .store (memBeat (c.inTy port) (c.placeIn port == (if held then 1 else 0)) t.payload) close taken fin

/-- A copy gives up the token it held while it parked. -/
def Ctx.dropHeld (c : Ctx) (k : Nat) : Ctx := c.setAgent k { c.agent k with heldTok := none }

/-- ASTORE (R307): a beat is the next point of its segment's run; beats past the last point are discarded and count as not
written, as do those of an empty pattern (R312). -/
def astoreEvent (s : State) (c : Ctx) (k : Nat) : Option State :=
  let g := c.agent k
  let a := c.ag k
  match c.reissue s k with
  | some s1 => some s1
  | none =>
    match g.heldTok with
    | some h =>
      if g.park = .replaying ∧ g.replay.isEmpty then
        storeBeat s c k 0 h.token true false (fun c => c.dropHeld k) id
      else none
    | none =>
      if !g.runs || a.closing.isSome then none
      else
        match c.dataAt 0 with
        | none => none
        | some t =>
          let c0 := if a.isOpen then c else c.beginRun c.desc.start false none none
          if c0.desc.isEmpty then some ((((c0.take 0).notWritten k)).fired.back s)
          else if (c0.ag k).past then some (((c0.drop 0).notWritten k).fired.back s)
          else if t.poison then some (parkBeat s c0 k 0 t)
          else storeBeat s c0 k 0 t false false (fun c => c.take 0) (fun c => c.firedAt k)

/-- AG_ASTORE (R307). -/
def execAgAstore (region site : Nat) (s : State) : Out := agentOp s region site .ag 2 astoreEvent

/-- SCATTER forms its run from an index (R308); the first bad run of a segment gives its completion's record. -/
def scatterIndex (c : Ctx) (t : Token) : Ctx :=
  let off := indexOfTok (c.inTy 0) t * c.desc.word15.toNat
  let bad := c.desc.badOffset off (c.copySite c.nextRun)
  let c1 := c.beginRun off false none bad
  let c2 := if c1.desc.isEmpty then c1.setAg c.nextRun { c1.ag c.nextRun with isOpen := false } else c1
  match bad with
  | none => c2
  | some b =>
    let g := c2.agent 0
    c2.setAgent 0 { g with segPoison := true, segErr := if g.segErr.isSome then g.segErr else some b.record }

/-- The copy that holds SCATTER's open run. -/
def Ctx.openCopy (c : Ctx) : Option Nat := c.copies.find? (fun k => (c.ag k).isOpen)

/-- SCATTER (R308): an index begins a run, and the beats of port 1 are its points. -/
def scatterEvent (s : State) (c : Ctx) (k : Nat) : Option State :=
  let g := c.agent k
  match c.reissue s k with
  | some s1 => some s1
  | none =>
    match g.heldTok with
    | some h =>
      if g.park = .replaying ∧ g.replay.isEmpty then
        if h.port = 0 then
          let c0 := c.dropHeld k
          let c1 := c0.setAg 0 { c0.ag 0 with runs := (c.ag 0).runs - 1 }
          let c2 := c1.setAg k { c1.ag k with isOpen := false }
          some ((scatterIndex c2 h.token).back s)
        else storeBeat s c k 1 h.token true true (fun c => c.dropHeld k) id
      else none
    | none =>
      match c.openCopy with
      | some q =>
        if q ≠ k || !g.runs then none
        else
          match c.dataAt 1 with
          | none => none
          | some t =>
            if t.poison then some (parkBeat s c k 1 t)
            else storeBeat s c k 1 t false true (fun c => c.take 1) (fun c => c.firedAt k)
      | none =>
        if k ≠ 0 || !c.canBegin || (c.ag 0).closing.isSome then none
        else
          match c.dataAt 0 with
          | none => none
          | some t =>
            if t.poison then
              let q := c.nextRun
              let c1 := (c.take 0).beginRun 0 false none none
              some (c1.parkToken s q 0 t (c.storeAcc s .store) 0 [0#32, 0#32, 0#32, 0#32, 0#32])
            else some (((scatterIndex (c.take 0) t).firedAt c.nextRun).back s)

/-- AG_SCATTER (R308). -/
def execAgScatter (region site : Nat) (s : State) : Out := agentOp s region site .ag 4 scatterEvent

/-- The beat FILL writes (R309). -/
def fillBeat (c : Ctx) : Beat := packLanes 32 (List.replicate 16 (c.recd.e 1))

/-- FILL or PCLEAR begins a run; an empty pattern has no point (R309, R312). -/
def Ctx.beginFill (c : Ctx) : Ctx :=
  let k := c.nextRun
  let c1 := c.beginRun c.desc.start false none none
  if c.desc.isEmpty then c1.setAg k { c1.ag k with past := true } else c1

/-- FILL and PCLEAR (R309): a run begins, once as a source or on a trigger, also while copy 0 is parked with an earlier one (R313);
its points are written or cleared. -/
def fillEvent (kind : AccKind) (s : State) (c : Ctx) (k : Nat) : Option State :=
  let g := c.agent k
  let a := c.ag k
  let data := if kind = .clear then 0#512 else fillBeat c
  match c.reissue s k with
  | some s1 => some s1
  | none =>
    if g.heldTok.isSome ∧ g.park = .replaying ∧ g.replay.isEmpty then some ((c.dropHeld k).back s)
    else if k = 0 ∧ c.canBegin ∧ c.recd.inMask = 0 ∧ a.runs = 0 then some (c.beginFill.back s)
    else if k = 0 ∧ c.canBegin ∧ (c.dataAt 0).isSome then
      let t := (c.dataAt 0).getD (dataTok 0)
      let c1 := (c.take 0).beginFill
      if t.poison then
        some (c1.parkToken s c.nextRun 0 t (c.storeAcc s kind) 0 [0#32, 0#32, 0#32, 0#32, 0#32])
      else some ((c1.firedAt c.nextRun).back s)
    else if a.isOpen && !a.past && g.runs && g.heldTok.isNone then storePoint s c k kind data false id id
    else none

/-- AG_PCLEAR (R309). -/
def execAgPclear (region site : Nat) (s : State) : Out := agentOp s region site .ag 6 (fillEvent .clear)

/-- AG_FILL (R309). -/
def execAgFill (region site : Nat) (s : State) : Out := agentOp s region site .ag 7 (fillEvent .store)

/-! ## Completions (R310) -/

/-- The counts of several copies, which are reset. -/
def Ctx.takeCounts (c : Ctx) (ks : List Nat) : Ctx × W32 × W32 :=
  ks.foldl (fun x k =>
    let g := x.1.agent k
    (x.1.setAgent k { g with written := 0#32, notWritten := 0#32 }, x.2.1 + g.written, x.2.2 + g.notWritten)) (c, 0#32, 0#32)

/-- The completion of copies' counts, poisoned by the first error of the segment, then a STOP, on output 0. -/
def Ctx.complete (c : Ctx) (ks : List Nat) (d : Nat) : Ctx :=
  let (c1, w, n) := c.takeCounts ks
  let g := c1.agent 0
  let c2 := c1.setAgent 0 { g with segErr := none, segPoison := false }
  (c2.emit 0 (poisonTok g.segPoison g.segErr (completionBeat w n))).emitAll (stopTok d)

/-- A completion and the STOP behind it have room (R219, R220): the STOP enters behind the completion. -/
def Ctx.canComplete (c : Ctx) : Bool := c.room 0 && (c.emit 0 (dataTok 0)).roomAll

/-- The completion that is due (R307 to R310). A run of FILL or PCLEAR ends with it, and the wait for the next trigger is counted
(R215). -/
def agComplete (c : Ctx) : Option Ctx :=
  let a := c.ag 0
  if c.canComplete = false then none
  else if c.recd.opc = 2 ∨ c.recd.opc = 4 then
    match a.closing with
    | none => none
    | some d =>
      if c.stored then some ((c.complete c.copies d).setAg 0 { a with closing := none, emitRun := a.runs }) else none
  else if c.recd.opc = 6 ∨ c.recd.opc = 7 then
    let k := c.emitting
    let b := c.ag k
    let g := c.agent k
    if c.agIdle || !b.isOpen || !b.past || !g.outst.isEmpty || !g.runs || g.heldTok.isSome then none
    else
      let c1 := ((c.complete [k] 0).setAg k { b with isOpen := false, past := false }).endEmit
      some ({ c1 with st := { c1.st with srcEnd := c1.recd.inMask == 0 } }.count c1.nextRun)
  else none

/-- AG_COMPLETION (R310). -/
def execAgCompletion (region site : Nat) (s : State) : Out :=
  orStay s ((ctxOf s region site).bind (fun c =>
    if c.recd.kind = .ag then (agComplete c).map (fun c' => c'.back s) else none))

/-! ## An access is performed (R289, R291, R305, R338, R370, R371) -/

/-- The pattern's dimensions are used up, or the next run has not begun: the accesses that stand are a run's last. -/
def Ctx.runVisited (c : Ctx) : Bool :=
  let a := c.ag 0
  !a.isOpen || a.past || a.j.all (fun x => x == 0)

/-- The line region an access of an address generator reached changes as it is performed, and at the end of its run. -/
def Ctx.lineDone (c : Ctx) (a : Access) (last : Bool) : Ctx :=
  match a.space with
  | .tile t =>
    let store := a.kind == .store
    let adv := c.desc.adv
    { c with x := c.x.mapLines t a.addr (fun q =>
        let q1 := q.performed store
        if last && c.runVisited && c.recd.opc != 2 then q1.runEnd store adv else q1) }
  | _ => c

/-- A store or clear of a copy has been performed. -/
def Agent.storeDone (g : Agent) (id : Nat) : Agent :=
  { g with outst := g.outst.filter (fun n => n != id), written := g.written + 1#32 }

/-- An access performed counts for its copy (R295, R353). -/
def Ctx.countAccess (c : Ctx) (k : Nat) : Ctx :=
  let t := c.copyState k
  c.setCopy k { t with kept := { t.kept with beats := t.kept.beats + 1#64 } }

/-- The token of a load of a run with poison and record (R302, R305). -/
def loadTok (b : Beat) (p : Bool) (r : Option W32) : Token := poisonTok p r b

/-- The token of a load that found a VOID granule (R304, R305). -/
def voidTok (site : Nat) (_ : Bool) (r : Option W32) : Token :=
  match r with
  | some e => errTok e
  | none => errTok (errRecord 8 site)

/-- The result of an atomic function (R356, R387). -/
def atomResult (fn : Nat) (w64 : Bool) (old x cmp : Nat) : Option Nat :=
  let n := if w64 then 64 else 32
  let o := signed old n
  let y := signed x n
  match fn with
  | 0 => some ((old + x) % 2 ^ n)
  | 1 => some (old &&& x)
  | 2 => some (old ||| x)
  | 3 => some (old ^^^ x)
  | 4 => some (if y < o then x else old)
  | 5 => some (if o < y then x else old)
  | 6 => some (if x < old then x else old)
  | 7 => some (if old < x then x else old)
  | 8 => some x
  | _ => if old = cmp then some x else none

/-- The element an access belongs to, whether or not it is frozen: it is found as copy 0 of the record that the access's
site runs. -/
def ownerOf (s : State) (a : Access) : Option (Ctx × Nat) :=
  let x := s.region a.region
  match (x.site a.site).active with
  | none => none
  | some l =>
    match l.recd, x.held l.cseq with
    | some q, some e =>
      some ({ r := a.region, x := x, site := q.site, st := x.site q.site, recd := q, cfg := e.cfg, cseq := l.cseq,
              cfgid := l.cfgid }, l.copy)
    | _, _ => none

/-- An access whose element is gone has no effect on it. -/
def State.unpend (s : State) (k : Nat) : State := { s with ports := { s.ports with pend := s.ports.pend.eraseIdx k } }

/-- A load at its port (R305, R371): its beat, a VOID granule's token, or the wait on an EMPTY granule; a frozen copy's load
that would wait goes back to its replay buffer (R423). -/
def performLoad (s : State) (k : Nat) (a : Access) (p : Place) (c : Ctx) (n : Nat) : State :=
  let g := c.agent n
  let fin (s1 : State) (f : Bool → Option W32 → Token) : State :=
    let s2 := (s1.unpend k).dropReads (fun r => r == a.reader)
    let c1 := (c.setAgent n (g.fillLoad a.id f)).countAccess n
    let last := (s2.pendingOf a.region a.site).isEmpty
    ((if c.recd.kind = .ag then c1.lineDone a last else c1).back s2).charge (some a.cluster) p
  match s.loadAt a.reader a.asid p a.sa 64 with
  | (s1, .ok bs) => fin s1 (loadTok (beatOf bs))
  | (s1, .void) => fin s1 (voidTok a.site)
  | (s1, .wait) =>
    if (c.copyState n).frozen then
      ((c.setAgent n { g with replay := holdAccess g.replay { a with place := none } }).back (s.unpend k))
    else s1

/-- A store or clear at its port (R309, R311, R370); a clear moves no granule and is charged nothing (R460). -/
def performStore (s : State) (k : Nat) (a : Access) (p : Place) (c : Ctx) (n : Nat) : State :=
  let g := c.agent n
  let s0 := s.unpend k
  let res := if a.kind = .clear then .ok (s0.clearGranule p) else s0.storeAt a.asid p a.sa (beatBytes a.data) false
  let paid (s1 : State) : State := if a.kind = .clear then s1 else s1.charge (some a.cluster) p
  match res with
  | .presence gs => c.parkAccess s0 n a clsPresence gs.code
  | .ok s1 =>
    let g1 := g.storeDone a.id
    let c1 := (c.setAgent n g1).countAccess n
    paid ((if c.recd.kind = .ag then c1.lineDone a g1.outst.isEmpty else c1).back s1)

/-- An atomic at its port (R356, R387): PERMISSION in host memory, PRESENCE on a single-assignment granule. -/
def performAtom (s : State) (k : Nat) (a : Access) (p : Place) (c : Ctx) (n : Nat) : State :=
  let g := c.agent n
  let s0 := s.unpend k
  if p.isHost then c.parkAccess s0 n a clsPermission 0
  else if a.sa then c.parkAccess s0 n a clsPresence (s.mem.gst p).code
  else
    let w64 := c.recd.e 0 / 256 % 2 == 1
    let w := if w64 then 8 else 4
    let old := leNat (s0.loadBytes a.asid p w)
    let m := 2 ^ (8 * w)
    let s1 := match atomResult (c.recd.e 0 % 16) w64 old (a.data.toNat % m) (a.data.toNat / 2 ^ 64 % m) with
      | some v => s0.storeBytes a.asid p (leBytes w v)
      | none => s0
    let c1 := (c.setAgent n (g.fillLoad a.id (fun q r => poisonTok q r (BitVec.ofNat 512 old)))).countAccess n
    (c1.back s1).charge (some a.cluster) p

/-- An access may be performed now: none stands before it at its port, one on a line of a FIFO or LINE region follows the
earlier ones of its element (R291), and a deferred load has its answer (R371). -/
def State.mayPerform (s : State) (k : Nat) (a : Access) (p : Place) : Bool :=
  let before := s.ports.pend.take k
  let deferred (b : Access) : Bool := s.ports.reads.any (fun r => r.reader == b.reader)
  let inOrder := match a.space with
    | .tile t =>
      match ((s.region a.region).tileStore t).at? a.addr with
      | some (_, q) => decide (2 ≤ storeMode q.word)
      | none => false
    | _ => false
  if deferred a then (match s.answerAt a.reader p with
    | some _ => true
    | none => false)
  else before.all (fun b => (match b.place with
    | some q => q.port != p.port || deferred b
    | none => true) && !(inOrder && b.region == a.region && b.site == a.site))

/-- The k-th access standing at the ports is performed. -/
def performAccess (s : State) (k : Nat) : Option State :=
  match s.ports.pend[k]? with
  | none => none
  | some a =>
    match a.place, ownerOf s a with
    | some p, some (c, n) =>
      if !s.mayPerform k a p then none
      else if s.eccAt p then some ((s.unpend k).fatalFault a.cluster 0x10 a.region a.site)
      else
        some (match a.kind with
          | .load => performLoad s k a p c n
          | .atom => performAtom s k a p c n
          | _ => performStore s k a p c n)
    | _, _ => some (s.unpend k)

/-- ACCESS_PERFORMED (R289, R338): a port performs one access. -/
def execAccessPerformed (k : Nat) (s : State) : Out := orStay s (performAccess s k)

/-! ## Store-mode changes (R293) -/

/-- The tiles of tile stores that an element's accesses name (R293, R298, R320, R394). -/
def Cfg.tilesOf (e : Cfg) (dx dy : Int) (q : Rec) : List Nat :=
  let shift (t : Nat) : Nat := (shiftTile dx dy t).getD t
  match q.kind with
  | .ow =>
    if poolWord (e.pool.getD (q.e 0 % 65536) []) 0 % 4 = 0 then q.sites.map siteTile else []
  | _ =>
    match q.patternIdx with
    | none => []
    | some n => (descTiles q (descOf (e.pool.getD n []))).map shift

/-- Some element whose operation in an instance older than `c` names the tile has not adopted `c`: it may still run that
operation, or have it before it. -/
def Region.namedByOlder (x : Region) (dx dy : Int) (t c : Nat) : Bool :=
  x.committed.any (fun en => decide (en.cseq < c) && en.cfg.recs.any (fun q =>
    (en.cfg.tilesOf dx dy q).contains t && (q.site :: q.sites).any (fun n => decide (x.adopted n < c))))

/-- The line regions a tile has under an instance: one whose word is unchanged keeps its state (R290, R293). -/
def Cfg.regionsOf (e : Cfg) (t : Nat) (old : List StoreRegion) : List StoreRegion :=
  (e.stores.filter (fun q => q.tile == t)).map (fun q =>
    (old.find? (fun o => o.word == q.word)).getD (StoreRegion.fresh q.word))

/-- A tile takes the store modes of the next LIVE instance, once every site of the tile and every element that names it has
adopted it; none after an abort, in a wedged region, or once a snapshot has reached the region (R185, R419, R435). -/
def storeChange (s : State) (r t : Nat) : Option State :=
  let x := s.region r
  let ts := x.tileStore t
  match x.cluster.bind s.cluster?, x.liveEntries.find? (fun e => decide (ts.cseq < e.cseq)) with
  | some k, some e =>
    if s.moves r && (List.range 8).all (fun i => decide (e.cseq ≤ x.adopted (8 * t + i))) && !x.namedByOlder k.dx k.dy t e.cseq then
      some (s.setRegion r { x with
        tiles := Table.put x.tiles t { cseq := e.cseq, regions := e.cfg.regionsOf t ts.regions } })
    else none
  | _, _ => none

/-- STORE_MODE_CHANGE (R293). -/
def execStoreModeChange (region tile : Nat) (s : State) : Out := orStay s (storeChange s region tile)

/-! ## STOP, MODE and SWITCHOVER (R302, R307 to R309) -/

/-- The MULTI buffer that ASTORE fills flips as its segment ends (R291). -/
def astoreEnd (s : State) (c : Ctx) : Ctx :=
  match c.cluster s with
  | none => c
  | some p =>
    match c.desc.spaceUnder p.2.dx p.2.dy with
    | .tile t => { c with x := c.x.mapLines t c.desc.base (fun q => q.runEnd true 0) }
    | _ => c

/-- ASTORE ends its segment at a STOP once its stores are performed (R307). -/
def astoreStop (s : State) (c : Ctx) : Option Ctx :=
  let a := c.ag 0
  match c.head 0 with
  | none => none
  | some t =>
    if t.kind = .stop ∧ a.closing.isNone ∧ c.stored ∧ c.unparked then
      let c1 := if a.isOpen then astoreEnd s (c.take 0) else c.take 0
      some (c1.setAg 0 { a with closing := some t.depth, isOpen := false, past := false })
    else none

/-- STOP at SCATTER (R308): at port 1 it ends the open run; with no run open and STOP at port 0, R226 over both ports. -/
def scatterStop (c : Ctx) : Option Ctx :=
  match c.openCopy with
  | some k =>
    if c.headKind 1 = some .stop ∧ (c.agent k).runs ∧ (c.agent k).heldTok.isNone then
      some (c.setAg k { c.ag k with isOpen := false })
    else none
  | none =>
    if c.headKind 0 = some .stop ∧ (c.ag 0).closing.isNone ∧ c.stored then
      stopOver c [0, 1] (fun c m => c.setAg 0 { c.ag 0 with closing := some m })
    else none

/-- STOP at an address generator (R302, R303, R307 to R309, R336). -/
def agStop (s : State) (c : Ctx) : Option Ctx :=
  if c.recd.opc = 2 then astoreStop s c
  else if c.recd.opc = 4 then scatterStop c
  else
    match c.head 0 with
    | none => none
    | some t =>
      if t.kind = .stop ∧ c.agIdle ∧ c.roomAll ∧ c.whole then
        let m := if c.recd.opc = 5 then t.depth else min (t.depth + c.desc.nd) 7
        some ((c.take 0).emitAll (stopTok m))
      else none

/-- MODE at an address generator (R227, R302, R307, R308); a parked copy consumes no token (R407). -/
def agMode (c : Ctx) : Option Ctx :=
  if (c.ag 0).closing.isSome || !c.unparked then none
  else if c.recd.opc = 2 then modeAt c 0 [0, 1]
  else if c.recd.opc = 4 then
    match modeAt c 1 [0, 1] with
    | some c1 => some c1
    | none => if c.openCopy.isNone then modeAt c 0 [0, 1] else none
  else if !c.agIdle then none
  else if c.recd.inMask = 0 then sourceMode c
  else modeAt c 0 [0, 1]

/-- A copy's memory side is at rest: nothing issued, held or still to be emitted. -/
def Agent.rests (g : Agent) : Bool :=
  g.runs && g.resp.isEmpty && g.replay.isEmpty && g.heldTok.isNone && g.outst.isEmpty

/-- Every copy's memory side is at rest. -/
def Ctx.atRest (c : Ctx) : Bool := c.copies.all (fun k => (c.agent k).rests)

/-- What an address generator still has to do before it adopts (R198, R200, R336). -/
def agOwes (c : Ctx) : Bool :=
  let storing := c.recd.opc == 2 || c.recd.opc == 4
  !c.atRest || (c.ag 0).closing.isSome || (!storing && !c.agIdle) || (c.recd.inMask == 0 && !c.st.srcEnd)

end Sys2Proof.Machine
end

