-- ==== Sys2Proof/Machine/Alu.lean ====
section
/-! DEFINITION. Integer, bitfield and predicate instructions (R168 to R175). -/

namespace Sys2Proof.Machine

/-- Writes sd from sa and sb (R168). -/
def alu (s : State) (d a b : SReg) (f : W64 → W64 → W64) : Out := writeReg s d (f (s.me.reg a) (s.me.reg b))

/-- Writes sd from sa alone (R168, R170, R172). -/
def alu1 (s : State) (d a : SReg) (f : W64 → W64) : Out := writeReg s d (f (s.me.reg a))

/-- Sets pd and completes (R173, R174). -/
def writePred (s : State) (p : PReg) (b : Bool) : Out := onCore s (fun c => c.setPred p b)

/-- High 64 bits of the signed product (R168). -/
def mulHigh (x y : W64) : W64 := BitVec.ofInt 64 (x.toInt * y.toInt / (2 ^ 64 : Nat))

/-- High 64 bits of the unsigned product (R168). -/
def mulHighN (x y : W64) : W64 := BitVec.ofNat 64 (x.toNat * y.toNat / 2 ^ 64)

/-- Signed quotient truncated toward zero, with the borders of R169. -/
def divS (x y : W64) : W64 := if y = 0#64 then BitVec.allOnes 64 else x.sdiv y

/-- Unsigned quotient, with the border of R169. -/
def divN (x y : W64) : W64 := if y = 0#64 then BitVec.allOnes 64 else x / y

/-- Signed remainder with the sign of sa, with the borders of R169. -/
def remS (x y : W64) : W64 := if y = 0#64 then x else x.srem y

/-- Unsigned remainder, with the border of R169. -/
def remN (x y : W64) : W64 := if y = 0#64 then x else x % y

/-- The number of 1 bits (R168). -/
def popCount (x : W64) : W64 := BitVec.ofNat 64 ((List.range 64).countP (fun i => x.getLsbD i))

/-- The number of leading zero bits, 64 for zero (R168). -/
def leadZeros (x : W64) : W64 := if x = 0#64 then 64#64 else BitVec.ofNat 64 (63 - x.toNat.log2)

/-- Shift amount: bits [5:0] (R168). -/
def amount (x : W64) : Nat := x.toNat % 64

/-- ADD (R168): the sum. -/
def execAdd (d a b : SReg) (s : State) : Out := alu s d a b (fun x y => x + y)

/-- SUB (R168): the difference. -/
def execSub (d a b : SReg) (s : State) : Out := alu s d a b (fun x y => x - y)

/-- MUL (R168): the low 64 bits of the product. -/
def execMul (d a b : SReg) (s : State) : Out := alu s d a b (fun x y => x * y)

/-- MULH (R168): the high 64 bits of the signed product. -/
def execMulh (d a b : SReg) (s : State) : Out := alu s d a b (fun x y => mulHigh x y)

/-- MULHN (R168): the high 64 bits of the unsigned product. -/
def execMulhn (d a b : SReg) (s : State) : Out := alu s d a b (fun x y => mulHighN x y)

/-- DIV (R169): the signed quotient. -/
def execDiv (d a b : SReg) (s : State) : Out := alu s d a b (fun x y => divS x y)

/-- DIVN (R169): the unsigned quotient. -/
def execDivn (d a b : SReg) (s : State) : Out := alu s d a b (fun x y => divN x y)

/-- REM (R169): the signed remainder. -/
def execRem (d a b : SReg) (s : State) : Out := alu s d a b (fun x y => remS x y)

/-- REMN (R169): the unsigned remainder. -/
def execRemn (d a b : SReg) (s : State) : Out := alu s d a b (fun x y => remN x y)

/-- AND (R168): sa and sb. -/
def execAnd (d a b : SReg) (s : State) : Out := alu s d a b (fun x y => x &&& y)

/-- OR (R168): sa or sb. -/
def execOr (d a b : SReg) (s : State) : Out := alu s d a b (fun x y => x ||| y)

/-- XOR (R168): sa xor sb. -/
def execXor (d a b : SReg) (s : State) : Out := alu s d a b (fun x y => x ^^^ y)

/-- ANDN (R168): sa and not sb. -/
def execAndn (d a b : SReg) (s : State) : Out := alu s d a b (fun x y => x &&& ~~~y)

/-- SLL (R168): sa shifted left. -/
def execSll (d a b : SReg) (s : State) : Out := alu s d a b (fun x y => x <<< amount y)

/-- SRL (R168): sa shifted logically right. -/
def execSrl (d a b : SReg) (s : State) : Out := alu s d a b (fun x y => x >>> amount y)

/-- SRA (R168): sa shifted arithmetically right. -/
def execSra (d a b : SReg) (s : State) : Out := alu s d a b (fun x y => x.sshiftRight (amount y))

/-- MIN (R168): the signed minimum. -/
def execMin (d a b : SReg) (s : State) : Out := alu s d a b (fun x y => if x.slt y then x else y)

/-- MAX (R168): the signed maximum. -/
def execMax (d a b : SReg) (s : State) : Out := alu s d a b (fun x y => if x.slt y then y else x)

/-- MINN (R168): the unsigned minimum. -/
def execMinn (d a b : SReg) (s : State) : Out := alu s d a b (fun x y => if x.ult y then x else y)

/-- MAXN (R168): the unsigned maximum. -/
def execMaxn (d a b : SReg) (s : State) : Out := alu s d a b (fun x y => if x.ult y then y else x)

/-- POPC (R168): the number of 1 bits. -/
def execPopc (d a : SReg) (s : State) : Out := alu1 s d a popCount

/-- CLZ (R168): the leading zero count. -/
def execClz (d a : SReg) (s : State) : Out := alu1 s d a leadZeros

/-- SH1ADD (R168). -/
def execSh1add (d a b : SReg) (s : State) : Out := alu s d a b (fun x y => (x <<< 1) + y)

/-- SH2ADD (R168). -/
def execSh2add (d a b : SReg) (s : State) : Out := alu s d a b (fun x y => (x <<< 2) + y)

/-- SH3ADD (R168). -/
def execSh3add (d a b : SReg) (s : State) : Out := alu s d a b (fun x y => (x <<< 3) + y)

/-- ADDI (R170). -/
def execAddi (d a : SReg) (imm : BitVec 16) (s : State) : Out := alu1 s d a (fun x => x + sext16 imm)

/-- ANDI (R170). -/
def execAndi (d a : SReg) (imm : BitVec 16) (s : State) : Out := alu1 s d a (fun x => x &&& zext16 imm)

/-- ORI (R170). -/
def execOri (d a : SReg) (imm : BitVec 16) (s : State) : Out := alu1 s d a (fun x => x ||| zext16 imm)

/-- XORI (R170). -/
def execXori (d a : SReg) (imm : BitVec 16) (s : State) : Out := alu1 s d a (fun x => x ^^^ zext16 imm)

/-- SLLI (R170). -/
def execSlli (d a : SReg) (amount : BitVec 6) (s : State) : Out := alu1 s d a (fun x => x <<< amount.toNat)

/-- SRLI (R170). -/
def execSrli (d a : SReg) (amount : BitVec 6) (s : State) : Out := alu1 s d a (fun x => x >>> amount.toNat)

/-- SRAI (R170). -/
def execSrai (d a : SReg) (amount : BitVec 6) (s : State) : Out := alu1 s d a (fun x => x.sshiftRight amount.toNat)

/-- LIZ (R171): the immediate in halfword hw, the others zero. -/
def execLiz (d : SReg) (hw : BitVec 2) (imm : BitVec 16) (s : State) : Out :=
  writeReg s d (zext16 imm <<< halfShift hw)

/-- LIN (R171): the immediate in halfword hw, the others all ones. -/
def execLin (d : SReg) (hw : BitVec 2) (imm : BitVec 16) (s : State) : Out :=
  writeReg s d (~~~(zext16 (~~~imm) <<< halfShift hw))

/-- LIK (R171): the immediate in halfword hw, the others kept. -/
def execLik (d : SReg) (hw : BitVec 2) (imm : BitVec 16) (s : State) : Out :=
  writeReg s d ((s.me.reg d &&& ~~~(0xFFFF#64 <<< halfShift hw)) ||| (zext16 imm <<< halfShift hw))

/-- EXT (R172): the field, zero-extended. -/
def execExt (d a : SReg) (pos lenm : BitVec 6) (s : State) : Out := alu1 s d a (fun x => extractField x pos lenm)

/-- EXTS (R172): the field, sign-extended. -/
def execExts (d a : SReg) (pos lenm : BitVec 6) (s : State) : Out :=
  alu1 s d a (fun x => extractFieldSigned x pos lenm)

/-- INS (R172): the low bits of sa inserted in sd, its other bits kept. -/
def execIns (d a : SReg) (pos lenm : BitVec 6) (s : State) : Out :=
  alu1 s d a (fun x => insertField (s.me.reg d) x pos lenm)

/-- CMP (R173). -/
def execCmp (p : PReg) (c : Cond) (a b : SReg) (s : State) : Out :=
  writePred s p (condHolds c (s.me.reg a) (s.me.reg b))

/-- CMPI (R173). -/
def execCmpi (p : PReg) (c : Cond) (a : SReg) (imm : BitVec 14) (s : State) : Out :=
  writePred s p (condHolds c (s.me.reg a) (sext14 imm))

/-- PLOG (R174). -/
def execPlog (d a b : PReg) (tt : BitVec 4) (s : State) : Out :=
  writePred s d (truthTable tt (s.me.pred a) (s.me.pred b))

/-- SEL (R175). -/
def execSel (d a b : SReg) (p : PReg) (s : State) : Out :=
  writeReg s d (if s.me.pred p then s.me.reg a else s.me.reg b)

end Sys2Proof.Machine
end

