-- ==== Sys2Proof/Machine/Engine.lean ====
section
/-! DEFINITION. Engine commands (R341 to R344): command blocks, group tables, and how a command is issued. -/

namespace Sys2Proof.Machine

/-! ## Classes and blocks (R343) -/

/-- The engine classes (R66). -/
inductive EClass where
  | te | cv | cl
  deriving DecidableEq, Repr

/-- The class of an engine (R66): TE0 to TE15, CV0 to CV3, CL0 to CL3. -/
def engineClass (e : Nat) : EClass := if e < 16 then .te else if e < 20 then .cv else .cl

/-- A block from its 64 bytes (R343). -/
def cmdBlock (b : List Byte) : Block :=
  { kind := fieldLe b 0 1, spc := fieldLe b 1 1, stype := fieldLe b 2 1, dtype := fieldLe b 3 1, modeb := b.getD 4 0#8,
    opts := fieldLe b 5 1, scope := fieldLe b 6 1, src := fieldLe b 8 8, dst := fieldLe b 16 8, rowlen := fieldLe b 24 4,
    rows := fieldLe b 28 4, sstr := signed (fieldLe b 32 4) 32, dstr := fieldLe b 36 4, aux := fieldLe b 40 8,
    aux2 := fieldLe b 48 8, status := fieldLe b 56 8 }

/-- The destination stride of a block, as an i32 (R343). -/
def Block.dstride (b : Block) : Int := signed b.dstr 32

/-- Source and destination space codes (R343). -/
def Block.sspc (b : Block) : Nat := b.spc % 4
def Block.dspc (b : Block) : Nat := b.spc / 4 % 4

/-- SAT of a block (R343). -/
def Block.sat (b : Block) : Bool := b.opts % 2 == 1

/-- The reduction code of a block (R343). -/
def Block.red (b : Block) : Nat := b.opts / 4 % 4

/-- The block is a CSR conversion (R343). -/
def Block.isCsr (b : Block) (k : EClass) : Bool := k == .cv && b.kind == 2

/-- A code or a bit that R343 does not name: byte 7, the high half of SPC, and per class and kind the types, MODEB, OPTS,
AUX and AUX2 of R343. -/
def blockUnnamed (k : EClass) (raw : List Byte) : Bool :=
  let b := cmdBlock raw
  let reduces := k == .cl && (b.kind == 1 || b.kind == 2)
  fieldLe raw 7 1 != 0 || b.spc / 16 != 0 ||
  (k == .te && (b.stype != 0 || b.dtype != 0 || b.modeb != 0#8 || b.opts != 0)) ||
  b.opts / 16 != 0 || b.opts / 2 % 2 != 0 || (b.sat && k != .cv) || (b.red != 0 && !reduces) ||
  (b.aux != 0 && !(b.isCsr k || k == .cl)) ||
  (if b.isCsr k then false else if k == .cl && b.kind == 4 then decide (1024 ≤ b.aux2) else b.aux2 != 0)

/-- The types a conversion engine and the moving collectives know (R348, R350). -/
def castTypes : List Nat := [1, 2, 3, 4, 5, 14, 15, 17, 18]

/-- The types the reducing collectives know (R350). -/
def reduceTypes : List Nat := [1, 2, 14]

/-- The types are of the KIND's list (R347 to R350). -/
def blockTypes (k : EClass) (b : Block) : Bool :=
  match k with
  | .te => true
  | .cv => castTypes.contains b.stype && castTypes.contains b.dtype
  | .cl => (if b.kind ≤ 2 then reduceTypes else castTypes).contains b.stype && b.stype == b.dtype

/-- Bytes of an element of a type. -/
def typeBytes (t : Nat) : Nat := laneWidth t / 8

/-- Bytes of a source row, and of a destination row (R343). -/
def Block.srcRow (b : Block) (k : EClass) : Nat := if k = .te then b.rowlen else b.rowlen * typeBytes b.stype
def Block.dstRow (b : Block) (k : EClass) : Nat := if k = .te then b.rowlen else b.rowlen * typeBytes b.dtype

/-- Rows a command writes: a scatter its share, a gather every member's (R350). -/
def Block.dstRows (b : Block) (k : EClass) (g : Nat) : Nat :=
  if k ≠ .cl then b.rows else if b.kind = 2 then b.rows / g else if b.kind = 3 then g * b.rows else b.rows

/-- The bytes of a command's destination side: a CSR's hold no more entries than it has elements. -/
def Block.dstSide (b : Block) (k : EClass) (g : Nat) : Nat :=
  if b.isCsr k then min b.dstr (b.rows * b.rowlen) * typeBytes b.dtype else b.dstRows k g * b.dstRow k

/-- A block fails, its group table apart (R344); `mc` when the management core names it. -/
def blockFails (k : EClass) (mc : Bool) (raw : List Byte) : Bool :=
  let b := cmdBlock raw
  let island := b.sspc == 1 || b.dspc == 1
  let off (x : Nat) : Bool := x % 64 != 0
  let kinds := match k with
    | .te => 1
    | .cv => 2
    | .cl => 4
  blockUnnamed k raw || b.kind == 0 || decide (kinds < b.kind) ||
  b.sspc == 0 || b.sspc == 3 || b.dspc == 0 || b.dspc == 3 ||
  decide (b.scope < (if k = .cl then 5 else 4)) || decide (8 < b.scope) || b.red == 3 ||
  !modeWordOk b.modeb || b.modeb.getLsbD 5 || b.modeb.toNat % 8 == 4 ||
  (island && (mc || k == .cl)) ||
  off b.src || off b.dst || (b.isCsr k && (off b.aux || off b.aux2)) || decide (b.sstr % 64 ≠ 0) ||
  ((k == .te || (k == .cv && b.kind == 1)) && decide (b.dstride % 64 ≠ 0)) || off b.status ||
  off (b.srcRow k) || (!b.isCsr k && off (b.dstRow k)) ||
  decide (2 ^ 32 < b.rows * b.srcRow k) || decide (2 ^ 32 < b.dstSide k 1) ||
  !blockTypes k b

/-! ## Group tables (R344) -/

/-- No number twice. -/
def distinct : List Nat → Bool
  | [] => true
  | x :: t => !t.contains x && distinct t

/-- Granules a group table of G members takes. -/
def groupGranules (g : Nat) : Nat := (2 + 2 * g + 63) / 64

/-- The members a table names. -/
def groupMembers (raw : List Byte) : List Nat := (List.range (fieldLe raw 0 2)).map (fun i => fieldLe raw (2 + 2 * i) 2)

/-- A group table's count is out of its range (R344). -/
def groupSizeBad (g : Nat) : Bool := decide (g < 2) || decide (576 < g)

/-- A group table fails for a block on a member (R344, R350). -/
def groupFails (member : Nat) (b : Block) (g : List Nat) : Bool :=
  groupSizeBad g.length || !distinct g || g.any (fun m => decide (575 < m)) || !g.contains member ||
  (b.kind == 4 && decide (g.length ≤ b.aux2)) || (b.kind == 2 && b.rows % g.length != 0) ||
  decide (2 ^ 32 < b.dstSide .cl g.length)

/-! ## Queues (R341) -/

/-- The commands an engine holds. -/
def State.queueOf (s : State) (e : Nat) : List Cmd := Table.get s.engines e []

/-- The state with an engine's commands written; an engine that holds none is not listed. -/
def State.setQueue (s : State) (e : Nat) (q : List Cmd) : State :=
  { s with engines := if q.isEmpty then Table.del s.engines e else Table.put s.engines e q }

/-- A command as it is enqueued: no row moved (R347, R349). -/
def newCmd (iss : Issuer) (n : W32) (b : Block) (group : List Nat) (asid : Nat) (cluster : Option Nat) : Cmd :=
  { issuer := iss, n := n, blk := b, group := group, asid := asid, cluster := cluster, row := 0, buf := [], granules := 0,
    phase := 1, outBuf := [], outAddr := b.dst, idxBuf := [], idxAddr := b.aux, ptrs := [0], count := 0, ovf := 0#32,
    inv := 0#32, formed := false, park := .running, ended := none }

/-- A command is enqueued behind those the engine holds. -/
def State.enqueueCmd (s : State) (e : Nat) (c : Cmd) : State := s.setQueue e (s.queueOf e ++ [c])

/-- The engine holds as many commands as it can (R341). -/
def State.engineFull (s : State) (e : Nat) : Bool := decide (64 ≤ (s.queueOf e).length)

/-- The ticket of a command (R342). -/
def ticketOf (n : W32) (e : Nat) : Nat := n.toNat * 32 + e

end Sys2Proof.Machine
end

