-- ==== Sys2Proof/Machine/Special.lean ====
section
/-! DEFINITION. The special functions of R54 and R55. A value that is no dyadic number is enclosed between two numbers of 480
fraction bits that agree in all but their last 160, so that its rounding is that of the exact value (log entry 9). -/

namespace Sys2Proof.Machine

/-- Fraction bits of the enclosures. -/
def fracBits : Nat := 480

/-- floor(ln 2 × 2^480). -/
def ln2Fixed : Nat := 0xb17217f7d1cf79abc9e3b39803f2f6af40f343267298b62d8a0d175b8baafa2be7b876206debac98559552fb4afa1b10ed2eae35c138214427573b29

/-- The enclosure of a positive value at 480 fraction bits as an inexact value: its leading bits, and the news that more
follow. -/
def enclosed (neg : Bool) (lo hi : Nat) : Val :=
  let a := lo / 2 ^ 160
  if a = hi / 2 ^ 160 then .fin neg a (160 - 480) true else .fin neg (hi / 2 ^ 160) (160 - 480) false

/-- A value so small that every format rounds it by its sign alone. -/
def tiny (neg : Bool) : Val := .fin neg 1 (-1000) true

/-- Terms x^k / k! from k on, `n` of them, rounded down. -/
def expBelow (x : Nat) : Nat → Nat → Nat → Nat
  | 0, _, _ => 0
  | n + 1, k, t =>
    let t' := t * x / (2 ^ fracBits * k)
    t' + expBelow x n (k + 1) t'

/-- The same, rounded up. -/
def expAbove (x : Nat) : Nat → Nat → Nat → Nat
  | 0, _, t => 2 * t + 2
  | n + 1, k, t =>
    let t' := t * x / (2 ^ fracBits * k) + 1
    t' + expAbove x n (k + 1) t'

/-- An enclosure of e^x for x in [lo, hi], 0 ≤ x < 1, all at 480 fraction bits. -/
def expRange (lo hi : Nat) : Nat × Nat :=
  (2 ^ fracBits + expBelow lo 110 1 (2 ^ fracBits), 2 ^ fracBits + expAbove hi 110 1 (2 ^ fracBits))

/-- An enclosure of e^(−y) for a y given exactly at 480 fraction bits. -/
def expNeg (y : Nat) : Nat × Nat :=
  let k := y / (ln2Fixed + 1)
  let rlo := y - k * (ln2Fixed + 1)
  let rhi := y - k * ln2Fixed
  let (a, b) := expRange rlo rhi
  (2 ^ (2 * fracBits) / b / 2 ^ k, 2 ^ (2 * fracBits) / a / 2 ^ k + 1)

/-- m × 2^e at 480 fraction bits, exact for e ≥ −480. -/
def fixedOf (m : Nat) (e : Int) : Nat := (splitAt m e (-480)).1

/-- 1 / v (R54). -/
def rcpVal (neg : Bool) (m : Nat) (e : Int) : Val :=
  let n := m.log2 + 120
  .fin neg (2 ^ n / m) (-(n : Int) - e) (2 ^ n % m != 0)

/-- Bit by bit, the largest r with r² ≤ n among those of `b` bits above r. -/
def isqrtFrom (n : Nat) : Nat → Nat → Nat
  | 0, r => r
  | b + 1, r => if (r + 2 ^ b) * (r + 2 ^ b) ≤ n then isqrtFrom n b (r + 2 ^ b) else isqrtFrom n b r

/-- floor(√n). -/
def isqrt (n : Nat) : Nat := isqrtFrom n (n.log2 / 2 + 1) 0

/-- A positive value with an even exponent. -/
def evenExp (m : Nat) (e : Int) : Nat × Int := if e % 2 = 0 then (m, e) else (2 * m, e - 1)

/-- √v for v > 0 (R54). -/
def sqrtVal (m : Nat) (e : Int) : Val :=
  let (m', e') := evenExp m e
  let n := m' * 2 ^ 240
  let r := isqrt n
  .fin false r (e' / 2 - 120) (r * r != n)

/-- 1 / √v for v > 0 (R54). -/
def rsqrtVal (m : Nat) (e : Int) : Val :=
  let (m', e') := evenExp m e
  let r := isqrt (2 ^ 400 / m')
  .fin false r (-200 - e' / 2) (r * r * m' != 2 ^ 400)

/-- 2^v (R54). -/
def exp2Val (neg : Bool) (m : Nat) (e : Int) : Val :=
  if 10 ≤ floorLog m e then (if neg then tiny false else .fin false 1 2000 false)
  else
    let x := fixedOf m e
    let k := x / 2 ^ fracBits
    let f := x % 2 ^ fracBits
    let n : Int := if neg then (if f = 0 then -(k : Int) else -(k : Int) - 1) else k
    let f' := if neg ∧ f ≠ 0 then 2 ^ fracBits - f else f
    if f' = 0 then .fin false 1 n false
    else
      let (a, b) := expRange (f' * ln2Fixed / 2 ^ fracBits) (f' * (ln2Fixed + 1) / 2 ^ fracBits + 1)
      (enclosed false a b).scaleBy n

/-- Terms z^(2k+1) / (2k+1) of artanh z from an odd index on, rounded down; `t` is z^i and `z2` is z². -/
def atanhBelow (z2 : Nat) : Nat → Nat → Nat → Nat
  | 0, _, _ => 0
  | n + 1, i, t => t / i + atanhBelow z2 n (i + 2) (t * z2 / 2 ^ fracBits)

/-- The same, rounded up. -/
def atanhAbove (z2 : Nat) : Nat → Nat → Nat → Nat
  | 0, _, t => 2 * t + 2
  | n + 1, i, t => t / i + 1 + atanhAbove z2 n (i + 2) (t * z2 / 2 ^ fracBits + 1)

/-- log2 v for v > 0 that is no power of two (R54): v = 2^n × y with y from 3/4 to 3/2, and log2 y = ± 2 artanh |z| / ln 2
for z = (y − 1) / (y + 1). -/
def log2Val (m : Nat) (e : Int) : Val :=
  let b := m.log2
  let up := decide (3 * 2 ^ b ≤ 2 * m)
  let n : Int := floorLog m e + (if up then 1 else 0)
  let d := if up then 2 ^ (b + 1) else 2 ^ b
  let below := decide (m < d)
  let num := if below then d - m else m - d
  let zlo := num * 2 ^ fracBits / (m + d)
  let zhi := zlo + 1
  let slo := atanhBelow (zlo * zlo / 2 ^ fracBits) 160 1 zlo
  let shi := atanhAbove (zhi * zhi / 2 ^ fracBits + 1) 160 1 zhi
  let flo := 2 * slo * 2 ^ fracBits / (ln2Fixed + 1)
  let fhi := 2 * shi * 2 ^ fracBits / ln2Fixed + 1
  let base : Int := n * (2 ^ fracBits : Nat)
  let tlo : Int := if below then base - fhi else base + flo
  let thi : Int := if below then base - flo else base + fhi
  if 0 ≤ tlo then enclosed false tlo.toNat thi.toNat else enclosed true (-thi).toNat (-tlo).toNat

/-- tanh v for v ≠ 0 (R54): (1 − E) / (1 + E) with E = e^(−2|v|). -/
def tanhVal (neg : Bool) (m : Nat) (e : Int) : Val :=
  if 7 ≤ floorLog m e then .fin neg (2 ^ 80 - 1) (-80) true
  else
    let (a, b) := expNeg (2 * fixedOf m e)
    let one := 2 ^ fracBits
    enclosed neg ((one - b) * one / (one + b)) ((one - a) * one / (one + a) + 1)

/-- logistic v for v ≠ 0 (R54): 1 / (1 + E) above zero, E / (1 + E) below, with E = e^(−|v|). -/
def logisticVal (neg : Bool) (m : Nat) (e : Int) : Val :=
  if 7 ≤ floorLog m e then (if neg then tiny false else .fin false (2 ^ 80 - 1) (-80) true)
  else
    let (a, b) := expNeg (fixedOf m e)
    let one := 2 ^ fracBits
    if neg then enclosed false (a * one / (one + a)) (b * one / (one + b) + 1)
    else enclosed false (one * one / (one + b)) (one * one / (one + a) + 1)

/-- The special functions, in opcode order (R73). -/
inductive Special where
  | exp2 | log2 | rcp | rsqrt | sqrt | tanh | logistic
  deriving DecidableEq, Repr

/-- An infinity that R55 gives "as for rcp": the overflow event with it. -/
def asForRcp (t : Nat) (sat neg : Bool) (l : W32) : LaneOut := { infConvert t sat neg l with ev := Ev.ovf }

/-- A value that R55 gives as it stands. -/
def givenLane (t : Nat) (l : W32) (v : Val) : LaneOut := exactLane t false false l v

/-- One lane of a special function (R54, R55, R252). -/
def specialLane (fn : Special) (t rm : Nat) (sat fzo : Bool) (l : W32) (v : Val) : LaneOut :=
  let give (w : Val) : LaneOut := givenLane t l w
  let invalid : LaneOut := { bits := (fmtOf t).nanPattern, ev := Ev.inv, lfsr := l }
  let rounded (w : Val) : LaneOut := numericLane t rm sat fzo false l w
  match v with
  | .nan => { bits := (fmtOf t).nanPattern, ev := Ev.none, lfsr := l }
  | .inf n =>
    match fn with
    | .rcp => give (.zero n)
    | .rsqrt => if n then invalid else give (.zero false)
    | .sqrt => if n then invalid else give (.inf false)
    | .exp2 => give (if n then .zero false else .inf false)
    | .log2 => if n then invalid else give (.inf false)
    | .tanh => give (.fin n 1 0 false)
    | .logistic => give (if n then .zero false else .fin false 1 0 false)
  | .fin n 0 _ _ =>
    match fn with
    | .rcp => asForRcp t sat n l
    | .rsqrt => asForRcp t sat n l
    | .sqrt => give (.zero n)
    | .exp2 => give (.fin false 1 0 false)
    | .log2 => asForRcp t sat true l
    | .tanh => give (.zero n)
    | .logistic => give (.fin false 1 (-1) false)
  | .fin n m e _ =>
    match fn with
    | .rcp => rounded (rcpVal n m e)
    | .rsqrt => if n then invalid else rounded (rsqrtVal m e)
    | .sqrt => if n then invalid else rounded (sqrtVal m e)
    | .exp2 => rounded (exp2Val n m e)
    | .log2 =>
      if n then invalid
      else if m = 2 ^ m.log2 then
        (if floorLog m e = 0 then give (.zero false) else rounded (Val.ofInt (floorLog m e)))
      else rounded (log2Val m e)
    | .tanh => rounded (tanhVal n m e)
    | .logistic => rounded (logisticVal n m e)

end Sys2Proof.Machine
end

