-- ==== Sys2Proof/Machine/Ve.lean ====
section
/-! DEFINITION. The vector element's lane-wise operations (R243 to R246, R249 to R255, R259, R237). -/

namespace Sys2Proof.Machine

/-! ## Lanes -/

/-- A lane-wise result of the output's type: `g` makes a lane of the operands' patterns, in ascending order (R49). -/
def laneOp (g : Ctx → Nat → List Nat → W32 → LaneOut) (c : Ctx) (ts : List Token) (l : W32) : Beat × Ev × W32 :=
  let ty := c.outTy 0
  let w := laneWidth ty
  let (r, ev, l') := eachLane l (fun l i => g c ty (ts.map (fun t => laneAt t.payload w i)) l) (List.range (laneCount ty))
  (packLanes w r, ev, l')

/-- The operands' values under FZI (R243). -/
def laneVals (c : Ctx) (ty : Nat) (ps : List Nat) : List Val := ps.map (laneValue ty c.fzi)

/-- An operand. -/
def valAt (xs : List Val) (n : Nat) : Val := xs.getD n .nan

/-- An arithmetic operation (R243, R244): `v` gives the exact value under the rounding in force. -/
def arith (v : Nat → List Val → Val) : Ctx → List Token → W32 → Beat × Ev × W32 :=
  laneOp (fun c ty ps l =>
    let xs := laneVals c ty ps
    numericLane ty c.rm c.recd.sat c.fzo (xs.any Val.isNan) l (v c.rm xs))

/-- An operation that is written without a rounding (R243, R245). -/
def exactOp (v : List Val → Val) : Ctx → List Token → W32 → Beat × Ev × W32 :=
  laneOp (fun c ty ps l => exactLane ty c.recd.sat c.fzo l (v (laneVals c ty ps)))

/-- A value left as NaN when an operand is NaN. -/
def unlessNan (xs : List Val) (v : Val) : Val := if xs.any Val.isNan then .nan else v

/-! ## Arithmetic (R244) -/

/-- VE_ADD (R244): Adds lanes of two beats with one rounding. -/
def execVeAdd (region site : Nat) (s : State) : Out :=
  fireOp s region site .ve 0x01 (laneFire (arith (fun rm xs => (valAt xs 0).add rm (valAt xs 1))))

/-- VE_SUB (R244): Subtracts lanes of two beats with one rounding. -/
def execVeSub (region site : Nat) (s : State) : Out :=
  fireOp s region site .ve 0x02 (laneFire (arith (fun rm xs => (valAt xs 0).add rm (valAt xs 1).negate)))

/-- VE_MUL (R244): Multiplies lanes of two beats with one rounding. -/
def execVeMul (region site : Nat) (s : State) : Out :=
  fireOp s region site .ve 0x03 (laneFire (arith (fun _ xs => (valAt xs 0).mul (valAt xs 1))))

/-- VE_FMA (R244): Computes a × b + c lane by lane with one rounding. -/
def execVeFma (region site : Nat) (s : State) : Out :=
  fireOp s region site .ve 0x04 (laneFire (arith (fun rm xs => ((valAt xs 0).mul (valAt xs 1)).add rm (valAt xs 2))))

/-- VE_FMS (R244): Computes a × b − c lane by lane with one rounding. -/
def execVeFms (region site : Nat) (s : State) : Out :=
  fireOp s region site .ve 0x05 (laneFire (arith (fun rm xs =>
    ((valAt xs 0).mul (valAt xs 1)).add rm (valAt xs 2).negate)))

/-! ## Sign and order (R245) -/

/-- VE_NEG (R245): Negates each lane exactly. -/
def execVeNeg (region site : Nat) (s : State) : Out :=
  fireOp s region site .ve 0x06 (laneFire (exactOp (fun xs => (valAt xs 0).negate)))

/-- VE_ABS (R245): Takes the magnitude of each lane exactly. -/
def execVeAbs (region site : Nat) (s : State) : Out :=
  fireOp s region site .ve 0x07 (laneFire (exactOp (fun xs => (valAt xs 0).abs)))

/-- VE_MIN (R245): Takes the lane-wise minimum. -/
def execVeMin (region site : Nat) (s : State) : Out :=
  fireOp s region site .ve 0x08 (laneFire (exactOp (fun xs => (valAt xs 0).min2 (valAt xs 1))))

/-- VE_MAX (R245): Takes the lane-wise maximum. -/
def execVeMax (region site : Nat) (s : State) : Out :=
  fireOp s region site .ve 0x09 (laneFire (exactOp (fun xs => (valAt xs 0).max2 (valAt xs 1))))

/-- VE_CLAMP (R245): Clamps each lane between lo and hi. -/
def execVeClamp (region site : Nat) (s : State) : Out :=
  fireOp s region site .ve 0x0A (laneFire (exactOp (fun xs =>
    unlessNan xs (((valAt xs 0).max2 (valAt xs 1)).min2 (valAt xs 2)))))

/-! ## Comparison (R246) -/

/-- The truth of a lane comparison: conditions EQ, NE, LT, LE, GT, GE, UNORD, ORD (R73, R246). -/
def laneCompare (cond : Nat) (a b : Val) : Bool :=
  let un := a.isNan || b.isNan
  match cond with
  | 0 => !un && !a.lt b && !b.lt a
  | 1 => un || a.lt b || b.lt a
  | 2 => a.lt b
  | 3 => !un && !b.lt a
  | 4 => b.lt a
  | 5 => !un && !a.lt b
  | 6 => un
  | _ => !un

/-- The BITS beat of a comparison: bit i is the truth of lane i. -/
def compareBeat (c : Ctx) (ts : List Token) : Beat :=
  let ty := c.inTy 0
  let v (n i : Nat) : Val := laneValue ty c.fzi (laneAt ((ts.map Token.payload).getD n 0) (laneWidth ty) i)
  packLanes 1 ((List.range (laneCount ty)).map (fun i => (laneCompare (c.recd.e 0 % 16) (v 0 i) (v 1 i)).toNat))

/-- VE_CMP (R246): Compares lanes and emits a bit per lane. -/
def execVeCmp (region site : Nat) (s : State) : Out :=
  fireOp s region site .ve 0x0B (laneFire (fun c ts l => (compareBeat c ts, Ev.none, l)))

/-! ## Selection (R237) -/

/-- A lane-by-lane choice between arms by control bits (R237): the token emitted. -/
def selectTok (ty : Nat) (ctl a b : Token) : Token :=
  let w := laneWidth ty
  let n := laneCount ty
  let bit (i : Nat) : Bool := ctl.payload.getLsbD i
  let lane (i : Nat) : Nat := canonLane ty (laneAt (if bit i then a else b).payload w i)
  let usedA := (List.range n).any bit
  let usedB := (List.range n).any (fun i => !bit i)
  let used := [ctl] ++ (if usedA then [a] else []) ++ (if usedB then [b] else [])
  resultTok used false (packLanes w ((List.range n).map lane))

/-- VE_SELECT (R237): Chooses lanes from A or B by control bits. -/
def execVeSelect (region site : Nat) (s : State) : Out :=
  fireOp s region site .ve 0x0C (tokenFire (fun c ts l =>
    match ts with
    | [ctl, a, b] => (selectTok (c.outTy 0) ctl a b, l)
    | _ => (dataTok 0, l)))

/-! ## Rounding and scaling (R249, R250) -/

/-- One lane of RINT (R249): a rounding in every lane, NaN and infinite lanes too (R49). -/
def rintLane (c : Ctx) (ty : Nat) (ps : List Nat) (l : W32) : LaneOut :=
  match valAt (laneVals c ty ps) 0 with
  | .fin n m e s =>
    let (k, l') := roundInteger c.rm l n m e s
    exactLane ty false c.fzo l' (.fin n k.natAbs 0 false)
  | v => exactLane ty false c.fzo (lfsrAfter c.rm l) v

/-- VE_RINT (R249): Rounds each lane to an integral value. -/
def execVeRint (region site : Nat) (s : State) : Out := fireOp s region site .ve 0x11 (laneFire (laneOp rintLane))

/-- The exponent of SCALE, held within ±1100: beyond that every result overflows, or lies far below every spacing, as at the
end of the range. -/
def scaleBound (n : Int) : Int := max (-1100) (min 1100 n)

/-- One lane of SCALE (R250). -/
def scaleLane (c : Ctx) (ty : Nat) (ps : List Nat) (l : W32) : LaneOut :=
  let v := laneValue ty c.fzi (ps.getD 0 0)
  numericLane ty c.rm c.recd.sat c.fzo v.isNan l (v.scaleBy (scaleBound (signed (ps.getD 1 0) (laneWidth ty))))

/-- VE_SCALE (R250): Multiplies each lane by a power of two. -/
def execVeScale (region site : Nat) (s : State) : Out := fireOp s region site .ve 0x12 (laneFire (laneOp scaleLane))

/-! ## Shifts and logic (R251) -/

/-- A shift: `f` takes the width, the lane and the amount. -/
def shiftOp (f : Nat → Nat → Nat → Nat) : Ctx → List Token → W32 → Beat × Ev × W32 :=
  laneOp (fun c ty ps l =>
    let n := if c.recd.md % 2 = 1 then c.recd.e 0 % 64 else ps.getD 1 0
    { bits := f (laneWidth ty) (ps.getD 0 0) n, ev := Ev.none, lfsr := l })

/-- VE_SHL (R251): Shifts each lane left. -/
def execVeShl (region site : Nat) (s : State) : Out :=
  fireOp s region site .ve 0x18 (laneFire (shiftOp (fun w a n => if w ≤ n then 0 else a * 2 ^ n % 2 ^ w)))

/-- VE_SHR (R251): Shifts each lane logically right. -/
def execVeShr (region site : Nat) (s : State) : Out :=
  fireOp s region site .ve 0x19 (laneFire (shiftOp (fun w a n => if w ≤ n then 0 else a / 2 ^ n)))

/-- VE_SAR (R251): Shifts each lane arithmetically right. -/
def execVeSar (region site : Nat) (s : State) : Out :=
  fireOp s region site .ve 0x1A (laneFire (shiftOp (fun w a n => wrapTo (signed a w / ((2 ^ min n w : Nat) : Int)) w)))

/-- A logic operation on the used bits of the beats. -/
def logicOp (f : Beat → Beat → Beat) (c : Ctx) (ts : List Token) (l : W32) : Beat × Ev × W32 :=
  let ty := c.outTy 0
  let p (n : Nat) : Beat := (ts.map Token.payload).getD n 0
  (packLanes (laneWidth ty) (lanesOf ty (f (p 0) (p 1))), Ev.none, l)

/-- VE_AND (R251): Ands two beats bit by bit. -/
def execVeAnd (region site : Nat) (s : State) : Out :=
  fireOp s region site .ve 0x1B (laneFire (logicOp (fun a b => a &&& b)))

/-- VE_OR (R251): Ors two beats bit by bit. -/
def execVeOr (region site : Nat) (s : State) : Out :=
  fireOp s region site .ve 0x1C (laneFire (logicOp (fun a b => a ||| b)))

/-- VE_XOR (R251): Xors two beats bit by bit. -/
def execVeXor (region site : Nat) (s : State) : Out :=
  fireOp s region site .ve 0x1D (laneFire (logicOp (fun a b => a ^^^ b)))

/-- VE_NOT (R251): Inverts a beat bit by bit. -/
def execVeNot (region site : Nat) (s : State) : Out :=
  fireOp s region site .ve 0x1E (laneFire (logicOp (fun a _ => ~~~a)))

/-- VE_ANDN (R251): Computes a and not b bit by bit. -/
def execVeAndn (region site : Nat) (s : State) : Out :=
  fireOp s region site .ve 0x1F (laneFire (logicOp (fun a b => a &&& ~~~b)))

/-! ## Special functions (R252) -/

/-- A special function, lane by lane (R54, R55, R252). -/
def specialOp (fn : Special) : Ctx → List Token → W32 → Beat × Ev × W32 :=
  laneOp (fun c ty ps l => specialLane fn ty c.rm c.recd.sat c.fzo l (laneValue ty c.fzi (ps.getD 0 0)))

/-- VE_EXP2 (R252): Computes exp2 of each lane, correctly rounded. -/
def execVeExp2 (region site : Nat) (s : State) : Out := fireOp s region site .ve 0x20 (laneFire (specialOp .exp2))

/-- VE_LOG2 (R252): Computes log2 of each lane, correctly rounded. -/
def execVeLog2 (region site : Nat) (s : State) : Out := fireOp s region site .ve 0x21 (laneFire (specialOp .log2))

/-- VE_RCP (R252): Computes the reciprocal of each lane, correctly rounded. -/
def execVeRcp (region site : Nat) (s : State) : Out := fireOp s region site .ve 0x22 (laneFire (specialOp .rcp))

/-- VE_RSQRT (R252): Computes the reciprocal square root of each lane. -/
def execVeRsqrt (region site : Nat) (s : State) : Out := fireOp s region site .ve 0x23 (laneFire (specialOp .rsqrt))

/-- VE_SQRT (R252): Computes the square root of each lane. -/
def execVeSqrt (region site : Nat) (s : State) : Out := fireOp s region site .ve 0x24 (laneFire (specialOp .sqrt))

/-- VE_TANH (R252): Computes tanh of each lane. -/
def execVeTanh (region site : Nat) (s : State) : Out := fireOp s region site .ve 0x25 (laneFire (specialOp .tanh))

/-- VE_LOGISTIC (R252): Computes the logistic function of each lane. -/
def execVeLogistic (region site : Nat) (s : State) : Out := fireOp s region site .ve 0x26 (laneFire (specialOp .logistic))

/-! ## Moving lanes (R253) -/

/-- The lanes of port 0 rearranged: output lane i takes lane `f i` (R253). -/
def moveOp (f : Ctx → List Token → Nat → Nat) (c : Ctx) (ts : List Token) (l : W32) : Beat × Ev × W32 :=
  let ty := c.outTy 0
  let w := laneWidth ty
  let n := laneCount ty
  let a : Beat := (ts.map Token.payload).getD 0 0
  (packLanes w ((List.range n).map (fun i => canonLane ty (laneAt a w (f c ts i % n)))), Ev.none, l)

/-- VE_BCAST (R253): Copies one lane to every lane. -/
def execVeBcast (region site : Nat) (s : State) : Out :=
  fireOp s region site .ve 0x28 (laneFire (moveOp (fun c _ _ => c.recd.e 0 % 128)))

/-- The index of an output lane of PERM: a byte of the pool entry, or of port 1 (R241, R253). -/
def permIndex (c : Ctx) (ts : List Token) (i : Nat) : Nat :=
  if c.recd.md % 2 = 1 then laneAt ((ts.map Token.payload).getD 1 0) 8 i
  else ((poolBytes (c.cfg.pool.getD (c.recd.e 0 % 65536) [])).getD i 0#8).toNat

/-- VE_PERM (R253): Permutes lanes by an index table or index beat. -/
def execVePerm (region site : Nat) (s : State) : Out := fireOp s region site .ve 0x29 (laneFire (moveOp permIndex))

/-- VE_ROT (R253): Rotates lanes by a constant. -/
def execVeRot (region site : Nat) (s : State) : Out :=
  fireOp s region site .ve 0x2A (laneFire (moveOp (fun c _ i => i + c.recd.e 0 % 128)))

/-! ## Reductions and prefix sums (R254, R255) -/

/-- One level of the pairwise tree. -/
def pairSums : List Val → List Val × Ev
  | a :: b :: rest =>
    let (v, e) := add32 a b
    let (r, e') := pairSums rest
    (v :: r, e.or e')
  | l => (l, Ev.none)

/-- The pairwise tree over `2^n` values. -/
def sumTree : Nat → List Val → List Val × Ev
  | 0, l => (l, Ev.none)
  | n + 1, l =>
    let (r, e) := pairSums l
    let (r', e') := sumTree n r
    (r', e.or e')

/-- One level of the prefix sums at a distance: the first `d` stay, each later one is added to the one `d` before it. -/
def distSums (l : List Val) (d : Nat) : List Val × Ev :=
  let sums := (l.zip (l.drop d)).map (fun p => add32 p.1 p.2)
  (l.take d ++ sums.map Prod.fst, sums.foldl (fun e p => e.or p.2) Ev.none)

/-- The prefix sums by doubling distances. -/
def prefixTree : List Nat → List Val → List Val × Ev
  | [], l => (l, Ev.none)
  | d :: ds, l =>
    let (r, e) := distSums l d
    let (r', e') := prefixTree ds r
    (r', e.or e')

/-- A result node written to T (R254): NaN canonical, an infinity as it stands, or under R52 for FP8E4; a finite node rounded
once. -/
def nodeLane (ty rm : Nat) (sat fzo : Bool) (l : W32) (v : Val) : LaneOut :=
  match v with
  | .nan => { bits := (fmtOf ty).nanPattern, ev := Ev.none, lfsr := l }
  | .inf n => if ty = tyFp8e4 then infConvert ty sat n l else infLane ty n l
  | .fin n m e s => roundLane ty rm sat fzo l n m e s

/-- The values of the lanes of port 0 under FZI. -/
def portVals (c : Ctx) (ts : List Token) : List Val :=
  (lanesOf (c.outTy 0) ((ts.map Token.payload).getD 0 0)).map (laneValue (c.outTy 0) c.fzi)

/-- The exact inclusive prefix sums of integers. -/
def exactPrefix : Int → List Int → List Int
  | _, [] => []
  | s, x :: xs => (s + x) :: exactPrefix (s + x) xs

/-- Sums written to the first lanes of T, the others all zero: FP nodes of a tree, or exact integers (R254). -/
def sumOp (tree : List Val → List Val × Ev) (exact : List Int → List Int) (c : Ctx) (ts : List Token) (l : W32) :
    Beat × Ev × W32 :=
  let ty := c.outTy 0
  let xs := portVals c ts
  if inI ty then
    let r := exact (xs.map Val.toInt)
    let (o, e, l') := eachLane l (fun l i => intLane ty c.recd.sat (r.getD i 0) l) (List.range r.length)
    (packLanes (laneWidth ty) o, e, l')
  else
    let (r, e0) := tree xs
    let (o, e, l') := eachLane l (fun l i => nodeLane ty c.rm c.recd.sat c.fzo l (r.getD i .nan)) (List.range r.length)
    (packLanes (laneWidth ty) o, e0.or e, l')

/-- VE_RSUM (R254): Sums the lanes of a beat through the fixed pairwise tree. -/
def execVeRsum (region site : Nat) (s : State) : Out :=
  fireOp s region site .ve 0x2B (laneFire (sumOp (sumTree 7) (fun l => [l.foldl (fun s x => s + x) 0])))

/-- VE_PSUM (R254): Forms inclusive prefix sums of the lanes by doubling distances. -/
def execVePsum (region site : Nat) (s : State) : Out :=
  fireOp s region site .ve 0x2E (laneFire (fun c => sumOp
    (prefixTree ([1, 2, 4, 8, 16, 32, 64].filter (fun d => decide (d < laneCount (c.outTy 0))))) (exactPrefix 0) c))

/-- The largest or smallest lane in lane 0 (R255). -/
def extremeOp (f : Val → Val → Val) (c : Ctx) (ts : List Token) (l : W32) : Beat × Ev × W32 :=
  let ty := c.outTy 0
  match portVals c ts with
  | [] => (0, Ev.none, l)
  | x :: xs => (packLanes (laneWidth ty) [(exactLane ty false c.fzo l (xs.foldl f x)).bits], Ev.none, l)

/-- VE_RMAX (R255): Writes the largest lane into lane 0. -/
def execVeRmax (region site : Nat) (s : State) : Out := fireOp s region site .ve 0x2C (laneFire (extremeOp Val.max2))

/-- VE_RMIN (R255): Writes the smallest lane into lane 0. -/
def execVeRmin (region site : Nat) (s : State) : Out := fireOp s region site .ve 0x2D (laneFire (extremeOp Val.min2))

/-! ## Masks (R259) -/

/-- AMASK (R259): masked lanes become −∞; poison and record follow SELECT's rule with d the only arm. -/
def amaskTok (ty : Nat) (d m : Token) : Token :=
  let w := laneWidth ty
  let n := laneCount ty
  let bit (i : Nat) : Bool := m.payload.getLsbD i
  let lane (i : Nat) : Nat := if bit i then canonLane ty (laneAt d.payload w i) else (fmtOf ty).infPattern true
  resultTok ([m] ++ (if (List.range n).any bit then [d] else [])) false (packLanes w ((List.range n).map lane))

/-- VE_AMASK (R259): Replaces masked-out lanes by minus infinity. -/
def execVeAmask (region site : Nat) (s : State) : Out :=
  fireOp s region site .ve 0x33 (tokenFire (fun c ts l =>
    match ts with
    | [d, m] => (amaskTok (c.outTy 0) d m, l)
    | _ => (dataTok 0, l)))

end Sys2Proof.Machine
end

