-- ==== Sys2Proof/Machine/Ow.lean ====
section
/-! DEFINITION. The owner element (R392 to R400): updates and reads of owned lines, each one atomic event, bins, MX blocks,
and the completions of segments. -/

namespace Sys2Proof.Machine

/-- The state of an owner. -/
def Ctx.ow (c : Ctx) : OwState :=
  match c.st.op with
  | .ow o => o
  | _ => OwState.init

/-- That state written. -/
def Ctx.setOw (c : Ctx) (o : OwState) : Ctx := c.setOp (.ow o)

/-! ## Owned lines (R394, R395) -/

/-- The owner range descriptor of a record. -/
def Ctx.range (c : Ctx) : List W32 := c.pool (c.recd.e 0 % 65536)

/-- The record whose copies own the lines a record names: an OREAD reads those of the updating record of its instance that
names the same descriptor (R395). -/
def Ctx.ownerRec (c : Ctx) : Rec :=
  if c.recd.opc ≠ 0xB then c.recd
  else
    (c.cfg.recs.find? (fun q => q.updates && q.e 0 % 65536 == c.recd.e 0 % 65536)).getD c.recd

/-- The sites of the owners of lines, by copy. -/
def Ctx.ownerSites (c : Ctx) : List Nat := c.ownerRec.sites

/-- The site of the owner of line `u`, with its number (R395). -/
def Ctx.ownerOfLine (c : Ctx) (u : Nat) : Nat × Nat :=
  let n := c.ownerRec.copies
  (u % n, if u % n = 0 then c.ownerRec.site else c.ownerSites.getD (u % n) c.ownerRec.site)

/-- The space and address of byte `off` of an owned range (R395). -/
def Ctx.ownedAt (c : Ctx) (off : Nat) : Space × Nat :=
  let l := c.range
  let n := c.ownerRec.copies
  let u := off / 64
  match poolWord l 0 % 4 with
  | 0 => (.tile (siteTile (c.ownerOfLine u).2), rangeBase l + 64 * (u / n) + off % 64)
  | 1 => (.island, rangeBase l + off)
  | _ => (.virt, rangeBase l + off)

/-- The copy of this element that works on line `u`: an OREAD has one copy. -/
def Ctx.workCopy (c : Ctx) (u : Nat) : Nat := u % c.recd.copies

/-! ## Parking (R400, R407) -/

/-- The element that runs at a site has an update at hand, or parks with one at that site. -/
def Region.updating (x : Region) (n : Nat) : Bool :=
  let t := x.site n
  let m := ((t.active.bind (fun l => l.recd)).map Rec.site).getD n
  t.agent.park != .running || t.agent.heldTok.isSome || (match (x.site m).op with
    | .ow o => o.applying
    | _ => false)

/-- An owner whose lines an OREAD reads has an update at hand, or parks with one, of whichever instance: the request, which
reached it later, waits (R377, R395, R399). -/
def Ctx.ownerBusy (c : Ctx) : Bool :=
  c.ownerRec.site != c.site && (c.ownerRec.site :: c.ownerSites).any c.x.updating

/-- The operator goes on: no copy is parked. -/
def Ctx.owReady (c : Ctx) : Bool :=
  c.copies.all (fun k => c.hasCopy k && ((c.agent k).runs || (c.agent k).park == .replaying) && (c.agent k).heldTok.isNone)

/-- Copies that replay run again, and drop the accesses that described their held updates. -/
def Ctx.owWake (c : Ctx) : Ctx :=
  c.copies.foldl (fun c k =>
    let g := c.agent k
    if g.park = .replaying then c.setAgent k { g with park := .running, replay := [] } else c) c

/-- What an owner does with a line that it may touch. -/
abbrev LineGo := State → Place → Option State

/-- Reaches byte `off` of the range for an update (R400): a fault parks the owning copy with the update, as does a
single-assignment granule; an uncorrectable error or a save store is fatal. -/
def reachLine (s : State) (c : Ctx) (off : Nat) (acc : AccKind) (go : LineGo) : Option State :=
  match c.cluster s with
  | none => none
  | some p =>
    let u := off / 64
    let k := c.workCopy u
    let (sp, a) := c.ownedAt off
    let x := c.access p k acc sp (a - a % 64) 0#512 [u, 0, 0, 0, 0]
    let ready := match sp with
      | .tile t => c.x.tileReady t c.cseq
      | _ => true
    if !ready then none
    else
      match s.resolveIn p.2 c.r sp a acc.acc with
      | (s1, .fault cls) => some (c.parkAccess s1 k x cls 0)
      | (s1, .protect) => some ((c.back s1).fatalFault p.1 0x11 c.r (c.copySite k))
      | (s1, .ok pl sa) =>
        if s1.eccAt pl then some ((c.back s1).fatalFault p.1 0x10 c.r (c.copySite k))
        else if sa then some (c.parkAccess s1 k x clsPresence (s1.mem.gst pl).code)
        else go (s1.charge (some p.1) pl) pl

/-- An update is applied by the copy that owns its line, or is not (R392); a read is no update. -/
def Ctx.counted (c : Ctx) (u : Nat) (applied : Bool) : Ctx :=
  let k := c.workCopy u
  let g := c.agent k
  if applied then
    ((c.setAgent k { g with written := g.written + 1#32 }).countAccess k)
  else c.setAgent k { g with notWritten := g.notWritten + 1#32 }

/-- The copy to which an offset steers an update, whether or not it can be used (R395). -/
def Ctx.steered (c : Ctx) (off : Int) : Nat := (off / 64 % (c.recd.copies : Int)).toNat

/-- The error record of an offset that no update can use, formed by the copy it is steered to (R304, R395, R400). -/
def Ctx.badOff (c : Ctx) (off : Int) : Option W32 :=
  let site := c.copySite (c.steered off)
  if off % 64 ≠ 0 then some (errRecord 6 site)
  else if off < 0 ∨ (rangeExtent c.range : Int) - 64 < off then some (errRecord 5 site)
  else none

/-- A copy's update is over. -/
def Ctx.owDone (c : Ctx) (k : Nat) : Ctx :=
  (c.setOw { c.ow with toks := [], blk := 0, applying := false, skip := false }).firedAt k

/-- The first poisoned token of an update parks its owner (R400). -/
def parkPoisoned (s : State) (c : Ctx) (port : Nat) (t : Token) (off : Option Int) : State :=
  let good := match off with
    | some o => if (c.badOff o).isNone then some o.toNat else none
    | none => none
  let u := (good.getD 0) / 64
  let (sp, a) := c.ownedAt (good.getD 0)
  c.parkToken s (c.workCopy u) port t (accField .write sp 0) (if good.isSome then a else 0)
    [BitVec.ofNat 32 u, 0#32, 0#32, 0#32, 0#32]

/-! ## Line updates (R396, R399) -/

/-- The lane results of an update (R396): `x` the operand, `m` the comparand. -/
def ownerLane (c : Ctx) (ty : Nat) (l : W32) (old x m : Nat) : LaneOut :=
  let raw (b : Nat) : LaneOut := { bits := b, ev := Ev.none, lfsr := l }
  let vo := laneValue ty c.fzi old
  let vx := laneValue ty c.fzi x
  match c.recd.opc with
  | 1 => numericLane ty c.rm c.recd.sat c.fzo (vo.isNan || vx.isNan) l (vo.add c.rm vx)
  | 2 => exactLane ty c.recd.sat c.fzo l (vo.min2 vx)
  | 3 => exactLane ty c.recd.sat c.fzo l (vo.max2 vx)
  | 4 => raw (old &&& x)
  | 5 => raw (old ||| x)
  | 6 => raw (old ^^^ x)
  | 7 => raw (canonLane ty x)
  | 8 => raw (canonLane ty (if old = m then x else old))
  | _ => raw old

/-- A line after an update: every lane in ascending order; BITS is taken bit by bit. -/
def updatedLine (c : Ctx) (old x m : Beat) (l : W32) : Beat × Ev × W32 :=
  let ty := c.inTy 1
  if ty = tyBits then
    (match c.recd.opc with
      | 4 => old &&& x
      | 5 => old ||| x
      | 6 => old ^^^ x
      | 8 => if old = m then x else old
      | _ => x, Ev.none, l)
  else
    let w := laneWidth ty
    let (bs, ev, l') := eachLane l (fun l i => ownerLane c ty l (laneAt old w i) (laneAt x w i) (laneAt m w i))
      (List.range (laneCount ty))
    (packLanes w bs, ev, l')

/-- Applies an update whose tokens are at hand, as one event (R396, R399, R400). -/
def lineUpdate (s : State) (c : Ctx) : Option State :=
  let ts := c.ow.toks
  let a := ts.getD 0 (dataTok 0)
  let off := signed (laneAt a.payload 64 0) 64
  let read := c.recd.opc == 0xB
  let w := c.steered off
  if c.ow.skip then some (((c.counted w false).owDone w).back s)
  else
    match ts.zipIdx.find? (fun q => q.1.poison) with
    | some q => some (parkPoisoned s c (c.ports.getD q.2 0) q.1 (if q.2 = 0 then none else some off))
    | none =>
      match c.badOff off with
      | some r => some (((((if read then c else c.counted w false).emit 0 (errTok r))).owDone w).back s)
      | none =>
        let u := off.toNat / 64
        let k := c.workCopy u
        reachLine s c off.toNat (if read then .load else .store) (fun s1 p =>
          let asid := ((c.cluster s).map (fun q => q.2.asid)).getD 0
          let old := beatOf (s1.loadBytes asid p 64)
          if read then some (((c.emit 0 (dataTok old)).owDone k).back s1)
          else
            let (new, ev, l) := updatedLine c old (ts.getD 1 a).payload (ts.getD 2 a).payload (c.copyState k).lfsr
            let s2 := s1.storeBytes asid p (beatBytes new)
            let c1 := (c.setCopy k { c.copyState k with lfsr := l }).counted u true
            some (((c1.emit 0 { dataTok old with poison := pvSelects c.recd.pv ev }).owDone k).back s2))

/-- The element's request is served by the owner of its lines, at the site of that owner's copy 0 (R395). -/
def Ctx.serve (c : Ctx) : Ctx :=
  let w := c.ownerRec.site
  if w = c.site then { c with st := { c.st with served := c.site } }
  else { c with x := c.x.setSite w { c.x.site w with served := c.site } }

/-- OADD to OCAS and OREAD (R396, R399): an update is consumed and applied, or a held one applied again. -/
def lineFire (s : State) (c : Ctx) : Option State :=
  if !c.owReady || !c.room 0 || (c.recd.opc == 0xB && c.ownerBusy) then none
  else if c.ow.applying then lineUpdate s c.owWake
  else
    let ts := c.ports.filterMap c.dataAt
    if ts.length ≠ c.ports.length then none
    else lineUpdate s (((c.takeAll c.ports).setOw { c.ow with toks := ts, applying := true }).serve)

/-- The element has a request that its owner could serve now: the tokens of an update or of a read stand at its ports. -/
def owRequests (s : State) (c : Ctx) : Bool :=
  c.recd.kind == .ow && !c.ow.applying &&
  match c.recd.opc with
  | 9 => c.owReady && (c.dataAt 0).isSome
  | 0xA => c.owReady && c.ow.toks.isEmpty && (c.dataAt 0).isSome && (c.dataAt 1).isSome
  | _ => (lineFire s c).isSome

/-- The other elements of the region whose requests the same owner could serve now (R395). -/
def owRivals (s : State) (c : Ctx) : List Nat :=
  (c.x.sites.filter (fun e => e.1 != c.site && (match ctxOf s c.r e.1 with
    | some d => d.recd.kind == .ow && d.ownerRec.site == c.ownerRec.site && owRequests s d
    | none => false))).map Prod.fst

/-- The element's turn at its owner (R30, R395): those with a request are served in the order of their sites, from the one behind
that served last, wrapping. -/
def owTurn (s : State) (c : Ctx) : Bool :=
  let last := (if c.ownerRec.site = c.site then c.st else c.x.site c.ownerRec.site).served
  let place (n : Nat) : Nat := (n + 511 - last) % 512
  (owRivals s c).all (fun n => decide (place c.site ≤ place n))

/-- An event of OADD to OCAS or OREAD: a new request in its turn, or the update at hand. -/
def lineEvent (s : State) (c : Ctx) : Option State := if c.ow.applying || owTurn s c then lineFire s c else none

/-- An owner's event. -/
def owOp (s : State) (r site opc : Nat) (f : State → Ctx → Option State) : Out :=
  orStay s ((ctxOf s r site).bind (fun c => if c.recd.isOp .ow opc then f s c else none))

/-- OW_OADD (R396). -/
def execOwOadd (region site : Nat) (s : State) : Out := owOp s region site 1 lineEvent
/-- OW_OMIN (R396). -/
def execOwOmin (region site : Nat) (s : State) : Out := owOp s region site 2 lineEvent
/-- OW_OMAX (R396). -/
def execOwOmax (region site : Nat) (s : State) : Out := owOp s region site 3 lineEvent
/-- OW_OAND (R396). -/
def execOwOand (region site : Nat) (s : State) : Out := owOp s region site 4 lineEvent
/-- OW_OOR (R396). -/
def execOwOor (region site : Nat) (s : State) : Out := owOp s region site 5 lineEvent
/-- OW_OXOR (R396). -/
def execOwOxor (region site : Nat) (s : State) : Out := owOp s region site 6 lineEvent
/-- OW_OSWP (R396). -/
def execOwOswp (region site : Nat) (s : State) : Out := owOp s region site 7 lineEvent
/-- OW_OCAS (R396). -/
def execOwOcas (region site : Nat) (s : State) : Out := owOp s region site 8 lineEvent
/-- OW_OREAD (R399). -/
def execOwOread (region site : Nat) (s : State) : Out := owOp s region site 0xB lineEvent

/-! ## Bins (R397) -/

/-- The next lane of a bin token; behind lane 15 the token is done. -/
def Ctx.nextLane (c : Ctx) : Ctx :=
  let o := c.ow
  if 15 ≤ o.blk then c.owDone 0 else c.setOw { o with blk := o.blk + 1 }

/-- One lane of a bin token, as one event (R397). -/
def binLane (s : State) (c : Ctx) : Option State :=
  let o := c.ow
  let t := o.toks.getD 0 (dataTok 0)
  let x := laneAt t.payload 32 o.blk
  let v : Int := if c.inTy 0 = tyI32 then signed x 32 else (x : Int)
  if o.skip ∨ v < 0 ∨ (rangeExtent c.range / 4 : Nat) ≤ v then some (((c.counted 0 false).nextLane).back s)
  else
    let off := 4 * v.toNat
    reachLine s c off .store (fun s1 p =>
      let asid := ((c.cluster s).map (fun q => q.2.asid)).getD 0
      let n := leNat (s1.loadBytes asid p 4)
      some (((c.counted (off / 64) true).nextLane).back (s1.storeBytes asid p (leBytes 4 (n + 1)))))

/-- OINC (R397). -/
def binEvent (s : State) (c : Ctx) : Option State :=
  if !c.owReady then none
  else if c.ow.applying then binLane s c.owWake
  else
    match c.dataAt 0 with
    | none => none
    | some t =>
      let c1 := ((c.take 0).setOw { c.ow with toks := [t], blk := 0, applying := true }).serve
      if !owTurn s c then none else some (if t.poison then parkPoisoned s c1 0 t none else c1.back s)

/-- OW_OINC (R397). -/
def execOwOinc (region site : Nat) (s : State) : Out := owOp s region site 9 binEvent

/-! ## MX blocks (R398) -/

/-- Elements and scale of a stored block. -/
def storedBlock (elem : Nat) (l : List Byte) : List Nat × Byte :=
  if elem = tyFp4 then
    ((List.range 32).map (fun i => (l.getD (i / 2) 0#8).toNat / 16 ^ (i % 2) % 16), l.getD 16 0#8)
  else ((List.range 32).map (fun i => (l.getD i 0#8).toNat), l.getD 32 0#8)

/-- A stored block's line: elements and scale, every other byte zero. -/
def blockLine (elem : Nat) (xs : List Nat) (scale : Byte) : List Byte :=
  let body : List Byte :=
    if elem = tyFp4 then (List.range 16).map (fun i => BitVec.ofNat 8 (xs.getD (2 * i) 0 + 16 * xs.getD (2 * i + 1) 0))
    else xs.map (BitVec.ofNat 8)
  padTo (body ++ [scale]) 64

/-- The incoming value of element `i` of block `b` of a group (R40, R41). -/
def incoming (ty : Nat) (scale : Beat) (beats : Array Beat) (b i : Nat) : Val :=
  let per := laneCount ty / 32
  let step := b / 32 * 32 + i
  let x := laneAt (beats.getD (step / per) 0#512) (laneWidth ty) (step % per * 32 + b % 32)
  mxValue (elementType ty) (BitVec.ofNat 8 (laneAt scale 8 b)) x

/-- One block of a group, as one event (R398): its line, whether a NaN arose, and the LFSR. -/
def accBlock (c : Ctx) (old : List Byte) (scale : Beat) (beats : Array Beat) (b : Nat) (l : W32) : List Byte × Bool × W32 :=
  let ty := c.inTy 1
  let elem := elementType ty
  let (xs, sc) := storedBlock elem old
  let a := xs.map (mxValue elem sc)
  let y := (List.range 32).map (incoming ty scale beats b)
  let vs := List.zipWith (fun p q => p.add c.rm q) a y
  let bad := blockBad vs
  let (es, _, l') := eachLane l (fun l i => mxElement elem c.rm bad (mxExponent elem vs) l (vs.getD i (Val.zero false)))
    (List.range 32)
  (blockLine elem es (mxScale elem vs), bad && !(a.any Val.isNan || y.any Val.isNan), l')

/-- The next block of a group; behind block 63 the group is done. -/
def Ctx.nextBlock (c : Ctx) : Ctx :=
  let o := c.ow
  if 63 ≤ o.blk then c.owDone 0 else c.setOw { o with blk := o.blk + 1 }

/-- The segment met an error, or an event that PV selects (R398, R400). -/
def Ctx.segBad (c : Ctx) (r : Option W32) : Ctx :=
  let g := c.agent 0
  c.setAgent 0 { g with segPoison := true, segErr := if g.segErr.isSome then g.segErr else r }

/-- One block of the group at hand is applied (R398, R400). -/
def blockApply (s : State) (c : Ctx) : Option State :=
  let o := c.ow
  let a := o.toks.getD 0 (dataTok 0)
  let off := signed (laneAt a.payload 64 0) 64 + 64 * o.blk
  if o.skip then some (((c.counted (c.steered off) false).nextBlock).back s)
  else
    match c.badOff off with
    | some r => some ((((c.segBad (some r)).counted (c.steered off) false).nextBlock).back s)
    | none =>
      let u := off.toNat / 64
      let k := c.workCopy u
      reachLine s c off.toNat .store (fun s1 p =>
        let asid := ((c.cluster s).map (fun q => q.2.asid)).getD 0
        let beats := ((o.toks.drop 2).map Token.payload).toArray
        let (new, inv, l) := accBlock c (s1.loadBytes asid p 64) (o.toks.getD 1 a).payload beats o.blk (c.copyState k).lfsr
        let c1 := (c.setCopy k { c.copyState k with lfsr := l }).counted u true
        let c2 := if pvSelects c.recd.pv { invalid := inv, overflow := false } then c1.segBad none else c1
        some ((c2.nextBlock).back (s1.storeBytes asid p new)))

/-- A token joins the group (R40); a poisoned one parks the owner (R400). -/
def joinGroup (s : State) (c : Ctx) (port : Nat) (t : Token) : State :=
  let o := c.ow
  let toks := o.toks ++ [t]
  let c1 := c.setOw { o with toks := toks, applying := decide (toks.length = 2 + groupBeats (c.inTy 1)) }
  let off := if port = 0 then none else some (signed (laneAt (toks.getD 0 t).payload 64 0) 64)
  if t.poison then parkPoisoned s c1 port t off else c1.back s

/-- OMXACC (R398): the address with the group's scale beat, then its element beats; a STOP closes it early (R41); then its
blocks, one by one. DESIGN CHOICE, log entry 53: a group that a STOP closes directly behind its scale beat applies all 64
blocks, with zero elements. -/
def omxaccEvent (s : State) (c0 : Ctx) : Option State :=
  if !c0.owReady then none
  else
    let c := c0.owWake
    let o := c.ow
    if o.applying then blockApply s c
    else if o.toks.isEmpty then
      match c.dataAt 0, c.dataAt 1 with
      | some t, some _ => if owTurn s c then some (joinGroup s (c.take 0).serve 0 t) else none
      | _, _ => none
    else
      match c.head 1 with
      | none => none
      | some t =>
        if t.kind = .data then some (joinGroup s (c.take 1) 1 t)
        else if t.kind = .stop ∧ 2 ≤ o.toks.length then some ((c.setOw { o with applying := true }).back s)
        else none

/-- OW_OMXACC (R398). -/
def execOwOmxacc (region site : Nat) (s : State) : Out := owOp s region site 0xA omxaccEvent

/-! ## Segments (R400) -/

/-- The completion of a segment and its STOP. -/
def owComplete (c : Ctx) : Option Ctx :=
  match c.ow.closing with
  | none => none
  | some d => if c.canComplete then some ((c.complete c.copies d).setOw { c.ow with closing := none }) else none

/-- OW_COMPLETION (R400). -/
def execOwCompletion (region site : Nat) (s : State) : Out :=
  orStay s ((ctxOf s region site).bind (fun c =>
    if c.recd.kind = .ow then (owComplete c).map (fun c' => c'.back s) else none))

/-- An owner has an update at hand, or a completion due. -/
def owOwes (c : Ctx) : Bool :=
  c.ow.applying || c.ow.closing.isSome || !c.copies.all (fun k => (c.agent k).runs && (c.agent k).heldTok.isNone)

/-- STOP at an owner (R400). -/
def owStop (c : Ctx) : Option Ctx :=
  if owOwes c || !c.ow.toks.isEmpty then none
  else if c.recd.opc = 9 ∨ c.recd.opc = 0xA then stopOver c c.ports (fun c m => c.setOw { c.ow with closing := some m })
  else stopOver c c.ports passStop

/-- MODE at an owner (R400): within a group, at the port its next beat comes from. -/
def owMode (c : Ctx) : Option Ctx := if owOwes c then none else modeOver c (if c.ow.toks.isEmpty then c.ports else [1])

/-- The firings an owner may have enabled, as states they lead to. -/
def owMoves (s : State) (c : Ctx) : List (Option State) :=
  [(owComplete c).map (fun c => c.back s),
   match c.recd.opc with
    | 9 => binEvent s c
    | 0xA => omxaccEvent s c
    | _ => lineEvent s c]

end Sys2Proof.Machine
end

