-- ==== Sys2Proof/Machine/Br.lean ====
section
/-! DEFINITION. The bridge element (R353 to R356): engine requests and their responses, remote loads and stores, and
atomics. -/

namespace Sys2Proof.Machine

/-! ## EREQ (R354) -/

/-- The engine that a request record names. -/
def Ctx.engine (c : Ctx) : Nat := c.recd.e 0 % 32

/-- The site of the ERESP paired with a request, once it runs the same instance. -/
def Ctx.partner (c : Ctx) : Option Nat :=
  (c.cfg.recs.find? (fun q => q.isOp .br 2 && q.e 0 == c.recd.e 0)).bind (fun q =>
    match (c.x.site q.site).active with
    | some l => if l.cseq = c.cseq ∧ l.recd.isSome then some q.site else none
    | none => none)

/-- The items an ERESP holds. -/
def Site.items (t : Site) : List BrItem :=
  match t.op with
  | .br l => l
  | _ => []

/-- Commands an ERESP still awaits. -/
def awaited (l : List BrItem) : Nat :=
  (l.filter (fun i => match i with
    | .cmd _ _ _ => true
    | _ => false)).length

/-- An item joins the list of the ERESP at a site. -/
def Ctx.pushItem (c : Ctx) (site : Nat) (i : BrItem) : Ctx :=
  let t := c.x.site site
  { c with x := c.x.setSite site { t with op := .br (t.items ++ [i]) } }

/-- A request passes on as a token (R354). -/
def passOn (s : State) (c : Ctx) (q : Nat) (t : Token) : State := ((c.take 0).pushItem q (.tok t)).fired.back s

/-- A checked block is issued as ENGCMD issues it (R342, R354); it waits while the engine or the outstanding list is full. -/
def ereqIssue (s : State) (c : Ctx) (q : Nat) (b : Block) (group : List Nat) : Option State :=
  match c.cluster s with
  | none => none
  | some p =>
    if s.engineFull c.engine || decide (16 ≤ awaited (c.x.site q).items) then none
    else
      let g := c.agent 0
      let n : W32 := BitVec.ofNat 32 (g.nextId + 1)
      let c1 := c.setAgent 0 { g with nextId := g.nextId + 1 }
      let s1 := (((c1.take 0).pushItem q (.cmd c.site n b.scope)).fired.back s)
      some (s1.enqueueCmd c.engine (newCmd (.ereq c.r c.site) n b group p.2.asid (some p.1)))

/-- The read of a group table by an EREQ (R342, R354): a parking class parks it with its request still at its port. -/
def ereqTable (s : State) (c : Ctx) (q : Nat) (b : Block) : Option State :=
  match c.cluster s with
  | none => none
  | some p =>
    let rd : Reader := .elem c.r c.site (c.agent 0).nextId
    let refuse (s : State) : Option State := some (passOn s c q (errTok (errRecord 0xA c.site)))
    let stop (s1 : State) (r : ReadRes) : Option State :=
      let c1 := c.refresh s1
      match r with
      | .ok _ => none
      | .wait => if s1.ports.reads.length = s.ports.reads.length then none else some (s1.uncharged s)
      | .fault cls a =>
        if cls = clsPresence then some (passOn (s1.dropReads (fun x => x == rd)) c1 q (errTok (errRecord 8 c.site)))
        else some (c1.parkAccess s1 0 (c1.access p 0 .load .virt a 0#512 [0, 0, 0, 0, 0]) cls 0)
      | .fatal cls => some (s1.fatalFault p.1 cls c.r c.site)
    if b.aux % 64 ≠ 0 then refuse s
    else
      match s.readRange rd p.1 p.2 c.r .virt b.aux 64 with
      | (s1, .ok head) =>
        if groupSizeBad (fieldLe head 0 2) then refuse (s1.dropReads (fun x => x == rd))
        else
          match s1.readRange rd p.1 p.2 c.r .virt b.aux (2 + 2 * fieldLe head 0 2) with
          | (s2, .ok raw) =>
            let s3 := s2.dropReads (fun x => x == rd)
            if groupFails s.member b (groupMembers raw) then refuse s3 else ereqIssue s3 (c.refresh s3) q b (groupMembers raw)
          | (s2, r) => stop s2 r
      | (s1, r) => stop s1 r

/-- EREQ (R354): a request is consumed and issued, refused, or passed on poisoned. -/
def ereqEvent (s : State) (c0 : Ctx) : Option State :=
  let c := c0.owWake
  match c.partner, c.dataAt 0 with
  | some q, some t =>
    if !(c.agent 0).runs then none
    else if t.poison then
      some (passOn s c q (if t.err then t else { t with payload := freePayload 2 t.payload [] }))
    else
      let raw := beatBytes t.payload
      let b := cmdBlock raw
      let k := engineClass c.engine
      if blockFails k false raw then some (passOn s c q (errTok (errRecord 0xA c.site)))
      else if k = .cl then ereqTable s c q b
      else ereqIssue s c q b []
  | _, _ => none

/-- BR_EREQ (R354). -/
def execBrEreq (region site : Nat) (s : State) : Out :=
  orStay s ((ctxOf s region site).bind (fun c => if c.recd.isOp .br 1 then ereqEvent s c else none))

/-- STOP at EREQ passes to its ERESP in request order (R354). -/
def ereqStop (c : Ctx) : Option Ctx :=
  match c.partner, c.head 0 with
  | some q, some t => if t.kind = .stop ∧ (c.agent 0).runs then some ((c.take 0).pushItem q (.tok t)) else none
  | _, _ => none

/-- MODE at EREQ is taken and passes to its ERESP (R227, R354). -/
def ereqMode (c : Ctx) : Option Ctx :=
  match c.partner, c.head 0 with
  | some q, some t =>
    if t.kind = .mode ∧ (c.agent 0).runs then
      some (((c.take 0).takeMode (t.payload.setWidth 8)).pushItem q (.tok t))
    else none
  | _, _ => none

/-! ## ERESP (R354) -/

/-- The next request in order is answered: a command once it has ended, a token in its place. -/
def erespFire (c : Ctx) : Option Ctx :=
  match c.st.items with
  | .answer p :: rest => if c.room 0 then some ((c.emit 0 (dataTok p)).setOp (.br rest)).fired else none
  | .tok t :: rest =>
    if t.kind = .data then (if c.room 0 then some ((c.emit 0 t).setOp (.br rest)).fired else none)
    else if c.roomCtl 0 then
      let c1 := if t.kind = .mode then c.takeMode (t.payload.setWidth 8) else c
      some ((c1.emit 0 t).setOp (.br rest))
    else none
  | _ => none

/-- BR_ERESP (R354). -/
def execBrEresp (region site : Nat) (s : State) : Out := fireOp s region site .br 2 erespFire

/-- An ERESP has emitted its last response: its EREQ has gone on and no item is left (R198). -/
def erespEnded (c : Ctx) : Bool :=
  c.st.items.isEmpty &&
  (match c.cfg.recs.find? (fun q => q.isOp .br 1 && q.e 0 == c.recd.e 0) with
    | some q => decide (c.cseq < c.x.adopted q.site)
    | none => true)

/-! ## RLOAD and RSTORE (R355) -/

/-- The pool entry of a remote load or store: ORD, BASE and EXTENT. -/
def Ctx.remote (c : Ctx) : List W32 := c.pool (c.recd.e 0 % 65536)
def Ctx.ordered (c : Ctx) : Bool := poolWord c.remote 0 / 16 % 2 == 1

/-- The offset an address token names. -/
def addressOf (t : Token) : Int := signed (laneAt t.payload 64 0) 64

/-- The error record of an offset that is misaligned or out of range (R355). -/
def Ctx.remoteBad (c : Ctx) (off : Int) : Option W32 :=
  if off % 64 ≠ 0 then some (errRecord 6 c.site)
  else if off < 0 ∨ (rangeExtent c.remote : Int) - 64 < off then some (errRecord 5 c.site)
  else none

/-- Accesses of the bridge element that stand at a port. -/
def Ctx.inFlight (c : Ctx) (s : State) : Nat := (s.pendingOf c.r c.site).length

/-- No access has been issued too many: one at a time when accesses are ordered (R306, R355). -/
def Ctx.mayIssue (c : Ctx) (s : State) : Bool := if c.ordered then c.inFlight s == 0 else decide (c.inFlight s < 16)

/-- An access of a bridge element is issued, with its response, poisoned or not, when it has one. -/
def Ctx.issueRemote (c : Ctx) (s : State) (kind : AccKind) (addr : Nat) (data : Beat) (poison : Bool) : Option State :=
  match c.cluster s with
  | none => none
  | some p =>
    let g := c.agent 0
    let a := c.access p 0 kind .virt addr data [0, 0, 0, 0, 0]
    let c1 := c.setAgent 0 { g with
      nextId := g.nextId + 1
      outst := if kind = .store then g.outst ++ [g.nextId] else g.outst
      resp := if kind = .store then g.resp else g.resp ++ [.load g.nextId poison none] }
    some (c1.issue s 0 a (c.inFlight s))

/-- The next response of a bridge element is emitted (R306). -/
def remoteEmit (c : Ctx) : Option Ctx := (c.emitResp 0).map (fun c1 => c1.count 0)

/-- RLOAD consumes an address (R355). -/
def rloadTake (s : State) (c : Ctx) : Option State :=
  let g := c.agent 0
  match c.dataAt 0 with
  | none => none
  | some t =>
    if !g.runs || decide (16 ≤ g.beats) then none
    else if t.poison then
      let u : Token := if t.err then t else { t with payload := freePayload 1 t.payload [] }
      some (((c.take 0).respond 0 [.tok u]).fired.back s)
    else
      match c.remoteBad (addressOf t) with
      | some r => some (((c.take 0).respond 0 [.tok (errTok r)]).fired.back s)
      | none =>
        if c.mayIssue s then
          (c.take 0).fired.issueRemote s .load (rangeBase c.remote + (addressOf t).toNat) 0#512 false
        else none

/-- RLOAD (R355): it reissues what it holds, else emits a response that is ready, else consumes an address. -/
def rloadEvent (s : State) (c : Ctx) : Option State :=
  match c.reissue s 0 with
  | some s1 => some s1
  | none =>
    match remoteEmit c with
    | some c1 => some (c1.back s)
    | none => rloadTake s c

/-- BR_RLOAD (R355). -/
def execBrRload (region site : Nat) (s : State) : Out :=
  orStay s ((ctxOf s region site).bind (fun c => if c.recd.isOp .br 3 then rloadEvent s c else none))

/-- A remote store's tokens are done. -/
def Ctx.rstoreDone (c : Ctx) : Ctx := c.setOw { c.ow with toks := [], applying := false, skip := false }

/-- A poisoned token of a remote store parks the element (R355). -/
def parkRemote (s : State) (c : Ctx) (port : Nat) (t : Token) (off : Option Int) : State :=
  let addr := match off with
    | some o => if (c.remoteBad o).isNone then rangeBase c.remote + o.toNat else 0
    | none => 0
  c.parkToken s 0 port t (accField .write .virt 0) addr [0#32, 0#32, 0#32, 0#32, 0#32]

/-- The store of an address and a beat at hand (R355): a bad offset leaves it unwritten and poisons the completion. -/
def rstoreApply (s : State) (c : Ctx) : Option State :=
  let a := c.ow.toks.getD 0 (dataTok 0)
  let b := c.ow.toks.getD 1 (dataTok 0)
  let off := addressOf a
  if a.poison then some (parkRemote s c 0 a none)
  else if b.poison then some (parkRemote s c 1 b (some off))
  else
    match c.remoteBad off with
    | some r => some (((c.segBad (some r)).notWritten 0).rstoreDone.back s)
    | none =>
      if 16 ≤ (c.agent 0).outst.length || !c.mayIssue s then none
      else c.rstoreDone.issueRemote s .store (rangeBase c.remote + off.toNat) (memBeat (c.inTy 1) (c.placeIn 1 == 1) b.payload) false

/-- The completion of a segment of remote stores, once every store has been performed (R307, R310, R355). -/
def rstoreComplete (c : Ctx) : Option Ctx :=
  match c.ow.closing with
  | none => none
  | some d =>
    if c.stored ∧ c.canComplete then some ((c.complete [0] d).setOw { c.ow with closing := none }) else none

/-- RSTORE (R355): it reissues, applies the tokens at hand, completes a segment, or consumes an address and a beat. -/
def rstoreEvent (s : State) (c : Ctx) : Option State :=
  match c.reissue s 0 with
  | some s1 => some s1
  | none =>
    let g := c.agent 0
    if !g.runs || g.heldTok.isSome then none
    else if c.ow.applying then rstoreApply s c
    else
      match rstoreComplete c with
      | some c1 => some (c1.back s)
      | none =>
        if c.ow.closing.isSome then none
        else
          match c.dataAt 0, c.dataAt 1 with
          | some a, some b =>
            let c1 := ((c.takeAll [0, 1]).setOw { c.ow with toks := [a, b], applying := true }).fired
            some ((rstoreApply s c1).getD (c1.back s))
          | _, _ => none

/-- BR_RSTORE (R355). -/
def execBrRstore (region site : Nat) (s : State) : Out :=
  orStay s ((ctxOf s region site).bind (fun c => if c.recd.isOp .br 4 then rstoreEvent s c else none))

/-! ## RATOM (R356) -/

/-- Bytes of an atomic of a record. -/
def Ctx.atomBytes (c : Ctx) : Nat := if c.recd.e 0 / 256 % 2 = 1 then 8 else 4

/-- RATOM consumes an address, an operand and, for ACAS, a comparand (R356). A token with an error record has no address or
operand, and its record is the result; other poison leaves the atomic as it is and poisons the old value (R22; log entry
12). -/
def ratomTake (s : State) (c : Ctx) : Option State :=
  let ts := c.ports.filterMap c.dataAt
  let g := c.agent 0
  if ts.length ≠ c.ports.length || !g.runs || decide (16 ≤ g.beats) then none
  else
    let c1 := (c.takeAll c.ports).fired
    let t := ts.getD 0 (dataTok 0)
    let addr := laneAt t.payload 64 0
    if ts.any (fun x => x.err) then some ((c1.respond 0 [.tok (resultTok ts false 0#512)]).back s)
    else if addr % c.atomBytes ≠ 0 then some ((c1.respond 0 [.tok (errTok (errRecord 6 c.site))]).back s)
    else if c.inFlight s = 0 then
      let x := laneAt (ts.getD 1 t).payload 64 0
      let y := laneAt (ts.getD 2 (dataTok 0)).payload 64 0
      c1.issueRemote s .atom addr (BitVec.ofNat 512 (x + 2 ^ 64 * y)) (ts.any (fun x => x.poison))
    else none

/-- RATOM (R356). -/
def ratomEvent (s : State) (c : Ctx) : Option State :=
  match c.reissue s 0 with
  | some s1 => some s1
  | none =>
    match remoteEmit c with
    | some c1 => some (c1.back s)
    | none => ratomTake s c

/-- BR_RATOM (R356). -/
def execBrRatom (region site : Nat) (s : State) : Out :=
  orStay s ((ctxOf s region site).bind (fun c => if c.recd.isOp .br 5 then ratomEvent s c else none))

/-! ## STOP, MODE and what a bridge element owes -/

/-- STOP at a bridge element (R226, R307, R354, R355). -/
def brStop (c : Ctx) : Option Ctx :=
  match c.recd.opc with
  | 1 => ereqStop c
  | 4 =>
    if c.ow.applying || c.ow.closing.isSome || !c.stored then none
    else stopOver c [0, 1] (fun c m => c.setOw { c.ow with closing := some m })
  | 2 => none
  | _ => if c.atRest then stopOver c c.ports passStop else none

/-- MODE at a bridge element (R227, R354, R355); a parked one consumes no token (R407). -/
def brMode (c : Ctx) : Option Ctx :=
  if !c.unparked then none else
  match c.recd.opc with
  | 1 => ereqMode c
  | 2 => sourceMode { c with st := { c.st with srcEnd := erespEnded c } }
  | 4 => if c.ow.applying || c.ow.closing.isSome then none else modeOver c [0, 1]
  | _ => if c.atRest then modeOver c c.ports else none

/-- A bridge element has something to do before it adopts. -/
def brOwes (c : Ctx) : Bool :=
  match c.recd.opc with
  | 2 => !erespEnded c
  | 4 => !c.atRest || c.ow.applying || c.ow.closing.isSome
  | _ => !c.atRest

/-- The firings a bridge element may have enabled, as states they lead to. -/
def brMoves (s : State) (c : Ctx) : List (Option State) :=
  [match c.recd.opc with
    | 1 => ereqEvent s c
    | 2 => (erespFire c).map (fun c => c.back s)
    | 3 => rloadEvent s c
    | 4 => rstoreEvent s c
    | _ => ratomEvent s c]

end Sys2Proof.Machine
end

