-- ==== Sys2Proof/Machine/Dload.lean ====
section
/-! DEFINITION. The decomposing load (R331 to R337): a tile is read, split into structured terms and a residual list, and
emitted as blocks of A and index beats with residual beats behind them. -/

namespace Sys2Proof.Machine

/-- A nonzero value of a tile: row, K index, pattern, and magnitude in units of 2^−200, an infinity above every finite
value and a NaN above every other (R332). -/
structure SparseVal where
  i : Nat
  k : Nat
  bits : Nat
  mag : Nat
  deriving DecidableEq, Repr

/-- The magnitude of an infinity and of a NaN. -/
def magInf : Nat := 2 ^ 690
def magNan : Nat := 2 ^ 700

/-- Magnitude of a value (R332). -/
def magOf (v : Val) : Nat :=
  match v with
  | .nan => magNan
  | .inf _ => magInf
  | .fin _ m e _ => m * 2 ^ (e + 200).toNat

/-- K indices per A beat (R275, R331). -/
def dlKb (c : Ctx) : Nat := laneCount (c.outTy 0) / 32

/-- N and M of the record's shape (R276, R331). -/
def dlShape (c : Ctx) : Nat × Nat := termShape c

/-- T, the number of terms (R331). -/
def dlTerms (c : Ctx) : Nat := c.recd.e 0 / 65536 % 4 + 1

/-- The pattern of row `i` at K index `k` of a tile (R332). -/
def tileLane (ty kb : Nat) (beats : Array Beat) (i k : Nat) : Nat :=
  laneAt (beats.getD (k / kb) 0#512) (laneWidth ty) (32 * (k % kb) + i)

/-- The nonzero values of a tile, in ascending (row, K index). -/
def tileValues (ty kb : Nat) (beats : Array Beat) : List SparseVal :=
  (List.range 32).flatMap (fun i => (List.range 64).filterMap (fun k =>
    let x := tileLane ty kb beats i k
    let v := laneValue ty false x
    if v.isZero then none else some { i := i, k := k, bits := x, mag := magOf v }))

/-- The members of a group by larger magnitude, then lower K index (R333). -/
def groupOrder (l : List SparseVal) : List SparseVal := sortBy (fun v => magNan - v.mag) l

/-- The members of a row and group. -/
def groupOf (m : Nat) (l : List SparseVal) (i g : Nat) : List SparseVal :=
  groupOrder (l.filter (fun v => v.i == i && v.k / m == g))

/-- term[r][i][g] (R333): the values a term takes of a group, in ascending K index. -/
def termOf (n m : Nat) (l : List SparseVal) (r i g : Nat) : List SparseVal :=
  sortBy SparseVal.k (((groupOf m l i g).drop (r * n)).take n)

/-- The values that no term takes, in ascending (row, K index). -/
def residue (n m t : Nat) (l : List SparseVal) : List SparseVal :=
  (List.range 32).flatMap (fun i => sortBy SparseVal.k ((List.range (64 / m)).flatMap (fun g =>
    (groupOf m l i g).drop (t * n))))

/-- Values are dropped while the residual list is too long (R333): smallest first, each where its row's bound allows. -/
def dropValues (bound : Val) : List SparseVal → List SparseVal → List SparseVal → List SparseVal × List SparseVal
  | [], res, gone => (res, gone)
  | e :: elig, res, gone =>
    if res.length ≤ 64 then (res, gone)
    else
      let used := (gone.filter (fun v => v.i == e.i)).foldl (fun s v => s + v.mag) 0
      let fits := e.mag != magNan && (bound == .inf false || decide (used + e.mag ≤ magOf bound))
      if fits then dropValues bound elig (res.filter (fun v => v != e)) (gone ++ [e])
      else dropValues bound elig res gone

/-- A tile decomposed (R333): its values, the residual list, the dropped values, and whether it is dense. -/
structure Decomposed where
  vals : List SparseVal
  res : List SparseVal
  gone : List SparseVal
  dense : Bool

/-- decompose (R333). -/
def decompose (n m t : Nat) (bound : Val) (vals : List SparseVal) : Decomposed :=
  let res := residue n m t vals
  let (kept, gone) := if res.length ≤ 64 then (res, []) else dropValues bound (sortBy SparseVal.mag res) res []
  { vals := vals, res := kept, gone := gone, dense := decide (64 < kept.length) }

/-- Slot j of group g of row i in block r: the pattern and the index entry (R334). -/
def slotOf (n m t : Nat) (d : Decomposed) (cell : Nat → Nat → Nat) (r i g j : Nat) : Nat × Nat :=
  if d.dense then
    if r < m / n then (cell i (g * m + r * n + j), 8 + (r * n + j)) else (0, 0)
  else if r < t then
    match (termOf n m d.vals r i g)[j]? with
    | some v => (v.bits, 8 + v.k % m)
    | none => (0, 0)
  else (0, 0)

/-- The A beat and the index beat of step s of block r (R334). -/
def stepBeats (ty kb n m t : Nat) (d : Decomposed) (cell : Nat → Nat → Nat) (r s : Nat) : Beat × Beat :=
  let l := (List.range (32 * kb)).map (fun e =>
    let u := s * kb + e / 32
    slotOf n m t d cell r (e % 32) (u / n) (u % n))
  (packLanes (laneWidth ty) (l.map Prod.fst), packLanes 4 (l.map Prod.snd))

/-- A residual entry (R283, R334): the exact value as FP32, or as i32 for an integer type. -/
def residualWord (ty : Nat) (v : SparseVal) : Nat :=
  let x := laneValue ty false v.bits
  2 ^ 63 + v.i * 2 ^ 38 + v.k * 2 ^ 32 + (exactLane (if inI ty then tyI32 else tyFp32) false false 0#32 x).bits

/-- Everything a tile emits, in order (R334). -/
def tileBeats (ty kb n m t : Nat) (d : Decomposed) (cell : Nat → Nat → Nat) : List (Option Beat × Beat) :=
  let kt := 64 * n / (m * kb)
  let blocks := (List.range 4).flatMap (fun r => (List.range kt).map (fun s =>
    let (a, x) := stepBeats ty kb n m t d cell r s
    (some a, x)))
  let words := if d.dense then [] else d.res.map (residualWord ty)
  blocks ++ (List.range 8).map (fun b => (none, packLanes 64 ((words.drop (8 * b)).take 8)))

/-- The counters of a tile (R337). -/
def Kept.tile (x : Kept) (n m t : Nat) (d : Decomposed) : Kept :=
  let w (v : Nat) : W64 := BitVec.ofNat 64 v
  if d.dense then
    { x with dlTiles := x.dlTiles + 1#64, dlDense := x.dlDense + 1#64, dlTerms := x.dlTerms + w (m / n) }
  else
    let held := ((List.range t).filter (fun r =>
      (List.range 32).any (fun i => (List.range (64 / m)).any (fun g => !(termOf n m d.vals r i g).isEmpty)))).length
    let sum : Val := if d.gone.any (fun v => v.mag == magInf) then .inf false
      else .fin false (d.gone.foldl (fun s v => s + v.mag) 0) (-200) false
    let mag := numericLane tyFp32 0 false false true 0#32 ((laneValue tyFp32 false x.dlDropmag.toNat).add 0 sum)
    { x with dlTiles := x.dlTiles + 1#64, dlTerms := x.dlTerms + w held, dlResid := x.dlResid + w d.res.length,
             dlDrop := x.dlDrop + w d.gone.length,
             dlDropmag := if d.gone.isEmpty then x.dlDropmag else BitVec.ofNat 32 mag.bits }

/-- DLOAD begins a tile (R336): once as a source, or on a trigger. -/
def dloadStart (c : Ctx) : Option Ctx :=
  let a := c.ag 0
  if !c.canBegin || a.dl.isSome then none
  else if c.recd.inMask = 0 then (if a.runs = 0 then some (c.beginRun c.desc.start false none none) else none)
  else (c.dataAt 0).map (fun t => ((c.take 0).beginRun c.desc.start t.poison t.errRec none).fired)

/-- The next beat of the tile is loaded (R306, R332), without the poison of the trigger, which the run keeps; the run's marks
are not emitted. -/
def dloadPoint (s : State) (c : Ctx) : Option State :=
  let a := c.ag 0
  let g := c.agent 0
  if !a.isOpen || a.past || !g.runs || 16 ≤ (s.pendingOf c.r c.site).length then none
  else
    match c.cluster s with
    | none => none
    | some p =>
      let (sp, addr) := c.reach p.2 (c.desc.point a.off a.j).toNat
      let n := (s.pendingOf c.r c.site).length
      if c.tileWaits sp addr false (!a.touched) n then none
      else
        let acc := c.access p 0 .load sp addr 0#512 a.j
        let (j, _, done) := c.desc.turn a.j
        let c1 := (c.respond 0 [.load g.nextId false none]).setAg 0 { a with j := j, past := done, touched := true }
        some ((c1.setAgent 0 { c1.agent 0 with nextId := g.nextId + 1 }).issue s 0 acc n)

/-- Every beat of the tile has arrived: it is decomposed (R333). A VOID beat, which comes as an error token, reads as zeros
and poisons the tile; the earliest error record is the trigger's, or that of the first such beat (R336). -/
def dloadSplit (c : Ctx) : Option Ctx :=
  let a := c.ag 0
  let g := c.agent 0
  let toks := g.resp.filterMap (fun i => match i with
    | .tok t => some t
    | _ => none)
  if !a.past || !a.isOpen || a.dl.isSome || toks.length ≠ g.resp.length || !g.runs then none
  else
    let ty := c.outTy 0
    let kb := dlKb c
    let (n, m) := dlShape c
    let t := dlTerms c
    let beats := (toks.map (fun t => if t.err then 0#512 else t.payload)).toArray
    let d := decompose n m t (laneValue tyFp32 false (c.recd.e 1)) (tileValues ty kb beats)
    let out : DloadOut := {
      beats := tileBeats ty kb n m t d (tileLane ty kb beats)
      poison := a.poison || toks.any Token.poison
      recd := if a.recd.isSome then a.recd else firstErr toks }
    let c1 := (c.setAgent 0 { g with resp := [] }).setAg 0 { a with dl := some out }
    some { c1 with st := { c1.st with kept := c1.st.kept.tile n m t d } }

/-- DLOAD (R332, R333, R336). -/
def dloadEvent (s : State) (c : Ctx) (k : Nat) : Option State :=
  match c.reissue s k with
  | some s1 => some s1
  | none =>
    match dloadStart c with
    | some c1 => some (c1.back s)
    | none =>
      match dloadSplit c with
      | some c1 => some (c1.back s)
      | none => dloadPoint s c

/-- AG_DLOAD (R333). -/
def execAgDload (region site : Nat) (s : State) : Out := agentOp s region site .ag 5 dloadEvent

/-- The tile of the open run is emitted. -/
def Ctx.tileDone (c : Ctx) : Ctx := (c.setAg 0 { c.ag 0 with dl := none, isOpen := false, past := false }).endEmit

/-- The next emission of a decomposed tile (R334, R336): an A beat with its index beat, or a residual beat; a source ends
with STOP(0) on both ports. -/
def dloadEmit (c : Ctx) : Option Ctx :=
  let a := c.ag 0
  match a.dl with
  | none => none
  | some o =>
    match o.beats with
    | [] =>
      if c.roomAll then
        let c1 := c.tileDone.emitAll (stopTok 0)
        some { c1 with st := { c1.st with srcEnd := true } }
      else none
    | (x, y) :: rest =>
      if !c.room 1 || (x.isSome && !c.room 0) then none
      else
        let tok (b : Beat) : Token := poisonTok o.poison o.recd b
        let c1 := (match x with
          | some b => c.emit 0 (tok b)
          | none => c).emit 1 (tok y)
        some ((if rest.isEmpty ∧ c.recd.inMask ≠ 0 then c1.tileDone
          else c1.setAg 0 { a with dl := some { o with beats := rest } }).count 0)

/-- AG_DLOAD_EMIT (R334). -/
def execAgDloadEmit (region site : Nat) (s : State) : Out := fireOp s region site .ag 5 dloadEmit

/-- The firings an address generator may have enabled, as states they lead to. -/
def agMoves (s : State) (c : Ctx) : List (Option State) :=
  let each (f : State → Ctx → Nat → Option State) : List (Option State) := c.copies.map (f s c)
  let back (o : Option Ctx) : Option State := o.map (fun c => c.back s)
  match c.recd.opc with
  | 1 => back (emitResponse c) :: each (loadEvent aloadStart)
  | 2 => back (agComplete c) :: each astoreEvent
  | 3 => back (emitResponse c) :: each (loadEvent gatherStart)
  | 4 => back (agComplete c) :: each scatterEvent
  | 5 => back (dloadEmit c) :: each dloadEvent
  | 6 => back (agComplete c) :: each (fillEvent .clear)
  | _ => back (agComplete c) :: each (fillEvent .store)

end Sys2Proof.Machine
end

