-- ==== Sys2Proof/Machine/Hd.lean ====
section
/-! DEFINITION. The header element (R314 to R330): scans of bit vectors and bit trees, and the classes and masks of position
pairs under a mask program and a document-run table. -/

namespace Sys2Proof.Machine

/-! ## Scans (R317 to R319) -/

/-- The scan state. -/
def Ctx.scan (c : Ctx) : ScanState :=
  match c.st.op with
  | .scan b => b
  | _ => ScanState.init

/-- A beat without its lowest set bit. -/
def dropLow (b : Beat) : Beat := b &&& (b - 1#512)

/-- The number of the lowest set bit. -/
def lowBit (b : Beat) : Nat := ((List.range 512).find? (fun i => b.getLsbD i)).getD 0

/-- A beat being scanned: none when it has neither a bit left nor a poisoned token due. -/
def scanning (b : Beat) (poison : Bool) (recd : Option W32) (base : Nat) : Option (Beat × Bool × Option W32 × Nat) :=
  if b = 0#512 ∧ poison = false then none else some (b, poison, recd, base)

/-- BVSCAN consumes one beat on every port and combines them. -/
def bvscanFire (c : Ctx) : Option Ctx :=
  let b := c.scan
  let ts := c.ports.filterMap c.dataAt
  if b.cur.isSome ∨ ts.length ≠ c.ports.length then none
  else
    let v := if c.recd.md % 2 = 0 then ts.foldl (fun v t => v &&& t.payload) (BitVec.allOnes 512)
      else ts.foldl (fun v t => v ||| t.payload) 0#512
    some ((c.takeAll c.ports).setOp (.scan { b with
      cur := scanning v (ts.any Token.poison) (firstErr ts) (512 * b.nb.toNat), nb := b.nb + 1#32 })).fired

/-- A summary whose leaves are all read is finished, but for the poisoned token due when it yielded no index. -/
def ScanState.settle (b : ScanState) : ScanState :=
  match b.cur, b.summary with
  | none, some (l, p, _, _) => if l = 0#512 ∧ (b.yielded ∨ p = false) then { b with summary := none } else b
  | _, _ => b

/-- BTSCAN consumes a summary, or the leaf that the next summary bit calls for. -/
def btscanFire (c : Ctx) : Option Ctx :=
  let b := c.scan
  if b.cur.isSome then none
  else
    match b.summary with
    | none =>
      (c.dataAt 0).map (fun t =>
        ((c.take 0).setOp (.scan { b with
          summary := scanning t.payload t.poison t.errRec (262144 * b.nb.toNat), yielded := false, nb := b.nb + 1#32 })).fired)
    | some (l, p, r, base) =>
      if l = 0#512 then none
      else
        (c.dataAt 1).map (fun t =>
          let cur := if t.payload = 0#512 then scanning 0#512 t.poison t.errRec (base + 512 * lowBit l)
            else some (t.payload, p || t.poison, if r.isSome then r else t.errRec, base + 512 * lowBit l)
          ((c.take 1).setOp (.scan ({ b with cur := cur, summary := some (dropLow l, p, r, base) }.settle))).fired)

/-- The token of a position (R317). -/
def positionTok (poison : Bool) (recd : Option W32) (pos : Nat) (ord : W32) : Token :=
  poisonTok poison recd (packLanes 32 [pos % 2 ^ 32, ord.toNat])

/-- The next position, or the poisoned token of a beat or summary that yields none (R319). -/
def scanEmit (c : Ctx) : Option Ctx :=
  let b := c.scan
  if c.room 0 = false then none
  else
    match b.cur, b.summary with
    | some (l, p, r, base), _ =>
      if l = 0#512 then
        some ((c.emit 0 (positionTok true r base b.ord)).setOp (.scan ({ b with cur := none }.settle))).fired
      else
        let b1 : ScanState := { b with
          cur := if dropLow l = 0#512 then none else some (dropLow l, p, r, base), ord := b.ord + 1#32, yielded := true }
        some ((c.emit 0 (positionTok p r (base + lowBit l) b.ord)).setOp (.scan b1.settle)).fired
    | none, some (l, _, r, base) =>
      if l = 0#512 then some ((c.emit 0 (positionTok true r base b.ord)).setOp (.scan { b with summary := none })).fired
      else none
    | none, none => none

/-- HD_BVSCAN (R317). -/
def execHdBvscan (region site : Nat) (s : State) : Out := fireOp s region site .hd 1 bvscanFire

/-- HD_BTSCAN (R318). -/
def execHdBtscan (region site : Nat) (s : State) : Out := fireOp s region site .hd 2 btscanFire

/-- HD_SCAN_EMIT (R317 to R319). -/
def execHdScanEmit (region site : Nat) (s : State) : Out :=
  orStay s ((ctxOf s region site).bind (fun c =>
    if c.recd.isOp .hd 1 || c.recd.isOp .hd 2 then (scanEmit c).map (fun c' => c'.back s) else none))

/-! ## Document-run tables (R320 to R323) -/

/-- What a header element's reading of its run table gives: the runs, a wait, a VOID granule, a fault, or a fatal class. -/
inductive TableRes where
  | runs (l : List RunEntry)
  | wait
  | void
  | fault (cls addr : Nat) (sp : Space)
  | fatal (cls : Nat)

/-- The record uses no run table (R316). -/
def Ctx.noTable (c : Ctx) : Bool := c.recd.e 1 / 65536 % 2 == 1

/-- The reading of the run table by a copy (R323). -/
def Ctx.readTable (c : Ctx) (s : State) (k : Nat) : State × TableRes :=
  if c.noTable then (s, .runs [])
  else
    match c.cluster s with
    | none => (s, .wait)
    | some p =>
      let d := descOf (c.pool (c.recd.e 1 % 65536))
      let sp := d.spaceUnder p.2.dx p.2.dy
      let ready := match sp with
        | .tile t => c.x.tileReady t c.cseq
        | _ => true
      if !ready then (s, .wait)
      else
        match s.readRange (.elem c.r (c.copySite k) 0) p.1 p.2 c.r sp ((d.base : Int) + d.start).toNat (64 * d.counts.getD 0 0) with
        | (s1, .ok bs) => (s1, .runs ((runEntries bs).filter RunEntry.v))
        | (s1, .wait) => (s1.uncharged s, .wait)
        | (s1, .fault cls a) => if cls = clsPresence then (s1, .void) else (s1, .fault cls a sp)
        | (s1, .fatal cls) => (s1, .fatal cls)

/-- d(x) (R322): the document of the last run that starts at or before a position. -/
def docAt (l : List RunEntry) (x : Nat) : Nat := (l.foldl (fun d e => if e.start ≤ x then e.doc else d) 0)

/-- The documents of the runs that cover a position of [lo, hi] (R322). -/
def docsOver (l : List RunEntry) (lo hi : Nat) : List Nat :=
  docAt l lo :: (l.filter (fun e => decide (lo < e.start) && decide (e.start ≤ hi))).map RunEntry.doc

/-- The smallest and the largest of a list that is not empty. -/
def leastN (l : List Nat) : Nat := l.foldl min (l.headD 0)
def greatestN (l : List Nat) : Nat := l.foldl max (l.headD 0)

/-! ## Classes (R324 to R326) -/

/-- The class of an atom, a clause or a program over a box. -/
inductive Truth where
  | yes | no | mixed
  deriving DecidableEq, Repr

/-- TRUE, FALSE, or neither. -/
def truthOf (t f : Bool) : Truth := if t then .yes else if f then .no else .mixed

/-- NEG (R325). -/
def Truth.negate : Truth → Truth
  | .yes => .no
  | .no => .yes
  | .mixed => .mixed

/-- a, b and c of a LIN atom (R83). -/
def linCoeffs (a : Atom) : Int × Int × Int := (signed (a.p / 65536) 8, signed (a.p / 256) 8, signed a.b.toNat 32)

/-- The class of an atom over a box, NEG apart (R325). -/
def atomClass (l : List RunEntry) (a : Atom) (q0 q1 k0 k1 : Nat) : Truth :=
  match a.aop with
  | 1 =>
    let (x, y, z) := linCoeffs a
    let lo := z + min (x * q0) (x * q1) + min (y * k0) (y * k1)
    let hi := z + max (x * q0) (x * q1) + max (y * k0) (y * k1)
    truthOf (decide (0 ≤ lo)) (decide (hi < 0))
  | 2 => truthOf (decide (a.p ≤ q0) && decide (q1 ≤ a.b.toNat)) (decide (q1 < a.p) || decide (a.b.toNat < q0))
  | 3 => truthOf (decide (a.p ≤ k0) && decide (k1 ≤ a.b.toNat)) (decide (k1 < a.p) || decide (a.b.toNat < k0))
  | 6 =>
    let b0 := k0 / 32
    let n := k1 / 32 - b0 + 1
    let r := b0 % a.p
    let t := a.b.toNat
    if a.p ≤ n ∨ a.p < r + n then truthOf (t == a.p) false
    else truthOf (decide (r + n ≤ t)) (decide (t ≤ r))
  | op =>
    let dq := docsOver l q0 q1
    let dk := docsOver l k0 k1
    if op = 4 then
      truthOf (leastN dq == greatestN dq && leastN dk == greatestN dk && leastN dq == leastN dk)
        (decide (greatestN dq < leastN dk) || decide (greatestN dk < leastN dq))
    else truthOf (decide (greatestN dk ≤ leastN dq)) (decide (greatestN dq < leastN dk))

/-- The class of a clause (R326). -/
def clauseClass (l : List Truth) : Truth := truthOf (l.all (fun t => t == .yes)) (l.contains .no)

/-- The class of a program (R326). -/
def programClass (l : List Truth) : Truth := truthOf (l.contains .yes) (l.all (fun t => t == .no))

/-- The class of a pair: 2 FULL, 1 PARTIAL, 0 EMPTY (R326). -/
def pairClass (runs : List RunEntry) (prog : List Atom) (q0 q1 k0 k1 : Nat) : Nat :=
  let cls (a : Atom) : Truth :=
    let t := atomClass runs a q0 q1 k0 k1
    if a.neg then t.negate else t
  match programClass ((clausesOf [] prog).map (fun c => clauseClass (c.map cls))) with
  | .yes => 2
  | .mixed => 1
  | .no => 0

/-- The condition of an atom at one pair of positions (R83). -/
def atomAt (runs : List RunEntry) (a : Atom) (q k : Nat) : Bool :=
  let t := match a.aop with
    | 1 =>
      let (x, y, z) := linCoeffs a
      decide (0 ≤ x * q + y * k + z)
    | 2 => decide (a.p ≤ q) && decide (q ≤ a.b.toNat)
    | 3 => decide (a.p ≤ k) && decide (k ≤ a.b.toNat)
    | 4 => docAt runs q == docAt runs k
    | 5 => decide (docAt runs k ≤ docAt runs q)
    | _ => decide (k / 32 % a.p < a.b.toNat)
  t != a.neg

/-- A pair of positions is allowed (R324). -/
def allowed (runs : List RunEntry) (prog : List Atom) (q k : Nat) : Bool :=
  (clausesOf [] prog).any (fun c => c.all (fun a => atomAt runs a q k))

/-! ## Pairs (R327, R328) -/

/-- q0, q1, k0 and k1 of a pair token. -/
def pairBox (t : Token) : List Int := [0, 1, 2, 3].map (fun i => signed (laneAt t.payload 32 i) 32)

/-- A pair is malformed (R327, R328). -/
def pairBad (mask : Bool) (t : Token) : Bool :=
  match pairBox t with
  | [q0, q1, k0, k1] =>
    decide (q1 < q0) || decide (k1 < k0) || (pairBox t).any (fun v => decide (v < 0 ∨ 2 ^ 24 ≤ v)) ||
      (mask && (decide (511 < k1 - k0) || decide (1023 < q1 - q0)))
  | _ => true

/-- Lane `i` of a well-formed pair. -/
def pairLane (t : Token) (i : Nat) : Nat := laneAt t.payload 32 i

/-- The mask program of a header element's record. -/
def Ctx.program (c : Ctx) : List Atom := c.cfg.masks.getD (c.recd.e 0 % 65536) []

/-- The class of a pair under the element's program. -/
def Ctx.classOf (c : Ctx) (runs : List RunEntry) (t : Token) : Nat :=
  pairClass runs c.program (pairLane t 0) (pairLane t 1) (pairLane t 2) (pairLane t 3)

/-- A pair for a copy: the one it holds while it replays, or the one at port 0. -/
def Ctx.pairFor (c : Ctx) (k : Nat) : Option Token :=
  let g := c.agent k
  if g.park = .replaying then g.heldTok.map HeldToken.token else if g.runs then c.dataAt 0 else none

/-- The pair is taken: the copy runs again. -/
def Ctx.takePair (c : Ctx) (k : Nat) : Ctx :=
  let g := c.agent k
  if g.park = .replaying then c.setAgent k { g with park := .running, heldTok := none } else c.take 0

/-- A copy parks at its run table with the pair it works on (R323, R410). -/
def Ctx.parkTable (c : Ctx) (s : State) (k : Nat) (t : Token) (cls addr : Nat) (sp : Space) : State :=
  let c1 := c.takePair k
  let c2 := c1.setAgent k { c1.agent k with park := .parking, heldTok := some { port := 0, token := t } }
  c2.raise (c2.back s) k cls (accField .read sp 0) (addr % 2 ^ 64)
    [BitVec.ofNat 32 (pairLane t 4), 0#32, 0#32, 0#32, 0#32] 0#32

/-- A copy's reads of its table are done with. -/
def Ctx.dropTable (c : Ctx) (s : State) (k : Nat) : State := s.dropReads (fun r => r == .elem c.r (c.copySite k) 0)

/-- Reads the run table for a pair and goes on with the runs, or with none at a VOID granule. -/
def withTable (s : State) (c : Ctx) (k : Nat) (t : Token) (go : State → Option (List RunEntry) → Option State) :
    Option State :=
  match c.readTable s k with
  | (s1, .runs l) => go (c.dropTable s1 k) (some l)
  | (s1, .void) => go (c.dropTable s1 k) none
  | (s1, .wait) => some s1
  | (s1, .fault cls a sp) => some (c.parkTable (c.dropTable s1 k) k t cls a sp)
  | (s1, .fatal cls) => (c.cluster s1).map (fun p => s1.fatalFault p.1 cls c.r (c.copySite k))

/-- The counters of a classified pair (R329). -/
def Kept.classified (x : Kept) (cls skipl : Nat) : Kept :=
  match cls with
  | 2 => { x with hdFull := x.hdFull + 1#64 }
  | 1 => { x with hdPartial := x.hdPartial + 1#64 }
  | _ => { x with hdEmpty := x.hdEmpty + 1#64, hdSkipb := x.hdSkipb + BitVec.ofNat 64 (64 * skipl) }

/-- The class token of a pair (R327). -/
def classTok (t : Token) (cls : Nat) : Token :=
  { kind := .data, poison := t.poison, err := false,
    payload := packLanes 32 [pairLane t 4, cls, pairLane t 0, pairLane t 1, pairLane t 2, pairLane t 3] }

/-- MCLASS emits one token: on port 0, and on port 1 when `both`. -/
def classEmit (s : State) (c : Ctx) (k : Nat) (t : Token) (both : Bool) (count : Option Nat) : Option State :=
  if !c.room 0 || (both && !c.room 1) then none
  else
    let c1 := c.takePair k
    let c2 := match count with
      | none => c1
      | some cls =>
        let u := c1.copyState k
        c1.setCopy k { u with kept := u.kept.classified cls (c1.recd.e 0 / 65536) }
    let c3 := c2.emit 0 t
    some ((if both then c3.emit 1 t else c3).fired.back s)

/-- MCLASS (R327). -/
def mclassFire (s : State) (c : Ctx) : Option State :=
  let k := c.copy
  let site := c.copySite k
  if !c.hasCopy k then none
  else
    match c.pairFor k with
    | none => none
    | some t =>
      if t.err then classEmit s c k t true none
      else if pairBad false t then classEmit s c k (errTok (errRecord 9 site)) true none
      else
        withTable s c k t (fun s1 o =>
          match o with
          | none => classEmit s1 c k (errTok (errRecord 8 site)) true none
          | some l =>
            let cls := c.classOf l t
            classEmit s1 c k (classTok t cls) (t.poison || cls != 0) (some cls))

/-- A header element's event that needs the state of the device. -/
def hdOp (s : State) (r site opc : Nat) (f : State → Ctx → Option State) : Out :=
  orStay s ((ctxOf s r site).bind (fun c => if c.recd.isOp .hd opc then f s c else none))

/-- HD_MCLASS (R327). -/
def execHdMclass (region site : Nat) (s : State) : Out := hdOp s region site 3 mclassFire

/-- The state of PMASK. -/
def Ctx.pmask (c : Ctx) : PmaskState :=
  match c.st.op with
  | .pmask p => p
  | _ => { pair := none, cls := none, row := 0 }

/-- PMASK consumes a pair (R328): one token for a pair that carries ERR or is malformed; else its rows begin, unless it is
EMPTY and not poisoned. -/
def pmaskFire (s : State) (c : Ctx) : Option State :=
  if c.pmask.pair.isSome then none
  else
    match c.pairFor 0 with
    | none => none
    | some t =>
      let one (x : Token) : Option State := if c.room 0 then some (((c.takePair 0).emit 0 x).fired.back s) else none
      let rows (s1 : State) (cls : Option Nat) : Option State :=
        some (((c.takePair 0).setOp (.pmask { pair := some t, cls := cls, row := 0 })).fired.back s1)
      if t.err then one t
      else if pairBad true t then one (errTok (errRecord 9 c.site))
      else
        withTable s c 0 t (fun s1 o =>
          match o with
          | none => rows s1 none
          | some l =>
            let cls := c.classOf l t
            if cls = 0 ∧ t.poison = false then some ((c.takePair 0).fired.back s1) else rows s1 (some cls))

/-- The mask of a row (R328). -/
def rowMask (runs : List RunEntry) (prog : List Atom) (q k0 k1 : Nat) : Beat :=
  BitVec.ofNat 512 ((List.range (k1 - k0 + 1)).foldl (fun m i => if allowed runs prog q (k0 + i) then m + 2 ^ i else m) 0)

/-- PMASK emits its next row (R328). -/
def pmaskRow (s : State) (c : Ctx) : Option State :=
  match c.pmask.pair with
  | none => none
  | some t =>
    let g := c.agent 0
    if c.room 0 = false ∨ !(g.runs || g.park == .replaying) then none
    else
      let q := pairLane t 0 + c.pmask.row
      let go (s1 : State) (x : Token) : Option State :=
        let p : PmaskState :=
          if pairLane t 1 ≤ q then { pair := none, cls := none, row := 0 } else { c.pmask with row := c.pmask.row + 1 }
        some ((((c.setAgent 0 { g with park := .running, heldTok := none }).emit 0 x).setOp (.pmask p)).fired.back s1)
      match c.readTable s 0 with
      | (s1, .runs l) =>
        go (c.dropTable s1 0)
          { dataTok (rowMask l c.program q (pairLane t 2) (pairLane t 3)) with poison := t.poison }
      | (s1, .void) => go (c.dropTable s1 0) (errTok (errRecord 8 c.site))
      | (s1, .wait) => some s1
      | (s1, .fault cls a sp) =>
        let c1 := c.setAgent 0 { g with park := .parking, heldTok := some { port := 0, token := t } }
        some (c1.raise (c1.back (c.dropTable s1 0)) 0 cls (accField .read sp 0) (a % 2 ^ 64)
          [BitVec.ofNat 32 (pairLane t 4), 0#32, 0#32, 0#32, 0#32] 0#32)
      | (s1, .fatal cls) => (c.cluster s1).map (fun p => s1.fatalFault p.1 cls c.r c.site)

/-- HD_PMASK (R328). -/
def execHdPmask (region site : Nat) (s : State) : Out := hdOp s region site 4 pmaskFire

/-- HD_PMASK_ROW (R328). -/
def execHdPmaskRow (region site : Nat) (s : State) : Out := hdOp s region site 4 pmaskRow

/-! ## STOP, MODE and SWITCHOVER (R317, R318, R327, R328, R330) -/

/-- What a header element has begun and not finished (R330). A summary whose next leaf will not come, with SWITCHOVER at the
leaves' port, is left as it stands. -/
def hdOwes (c : Ctx) : Bool :=
  !c.copies.all (fun k => (c.agent k).runs && (c.agent k).heldTok.isNone) ||
  (match c.st.op with
    | .scan b => b.cur.isSome || b.summary.any (fun x => x.1 == 0#512 || c.headKind 1 != some .switchover)
    | .pmask p => p.pair.isSome
    | _ => false)

/-- A STOP at BTSCAN's leaves while leaves are still due abandons the rest of the summary (R318). -/
def leafStop (c : Ctx) : Option Ctx :=
  let b := c.scan
  match b.cur, b.summary with
  | none, some (l, p, r, base) =>
    if l ≠ 0#512 ∧ c.headKind 1 = some .stop then
      some (((c.setOp (.scan ({ b with summary := some (0#512, p, r, base) }.settle))).discard 1))
    else none
  | _, _ => none

/-- The scan counters restart behind a STOP (R317). -/
def scanStopped (c : Ctx) (d : Nat) : Ctx := (passStop c d).setOp (.scan { c.scan with nb := 0#32, ord := 0#32 })

/-- STOP at a header element. -/
def hdStop (c : Ctx) : Option Ctx :=
  if c.recd.opc = 2 then
    match leafStop c with
    | some c1 => some c1
    | none => if hdOwes c ∨ c.headKind 0 ≠ some .stop then none else stopOver c [0, 1] scanStopped
  else if hdOwes c then none
  else if c.recd.opc = 1 then stopOver c c.ports scanStopped
  else stopOver c [0] passStop

/-- MODE at a header element. -/
def hdMode (c : Ctx) : Option Ctx :=
  match c.st.op with
  | .scan b => if b.cur.isSome then none else modeOver c c.needs.1
  | _ => if hdOwes c then none else modeOver c [0]

/-- The firings a header element may have enabled, as states they lead to. -/
def hdMoves (s : State) (c : Ctx) : List (Option State) :=
  match c.recd.opc with
  | 1 => [(bvscanFire c).map (fun c => c.back s), (scanEmit c).map (fun c => c.back s)]
  | 2 => [(btscanFire c).map (fun c => c.back s), (scanEmit c).map (fun c => c.back s)]
  | 3 => [mclassFire s c]
  | _ => [pmaskFire s c, pmaskRow s c]

end Sys2Proof.Machine
end

