-- ==== Sys2Proof/Machine/VeState.lean ====
section
/-! DEFINITION. The vector element's operations that keep state or choose among ports: CVT, TACC, MXPACK, MXUNPACK and CONST
(R247, R248, R256 to R258, R260), and the control operators (R232 to R236). -/

namespace Sys2Proof.Machine

/-- An error record kept: the earliest. -/
def keepRec (r : Option W32) (t : Token) : Option W32 := if r.isSome then r else if t.err then some t.record else none

/-- STOP or MODE heads a port. -/
def Ctx.headCtl (c : Ctx) (q : Nat) : Bool := c.headKind q == some .stop || c.headKind q == some .mode

/-! ## CVT (R247, R248) -/

/-- The lanes of a token converted in ascending order, each with its events, and the LFSR afterwards. -/
def convertAll (c : Ctx) (t : Token) : W32 → List Nat → List (W32 × Ev) × W32
  | l, [] => ([], l)
  | l, i :: is =>
    let src := c.inTy 0
    let o := convertLane src (c.outTy 0) c.rm c.recd.sat c.fzo l (laneValue src c.fzi (laneAt t.payload (laneWidth src) i))
    let (r, l') := convertAll c t o.lfsr is
    ((BitVec.ofNat 32 o.bits, o.ev) :: r, l')

/-- CVT between types of one lane count: one token in, one token out. -/
def cvtSame (c : Ctx) (ts : List Token) (l : W32) : Beat × Ev × W32 :=
  match ts with
  | [t] =>
    let (r, l') := convertAll c t l (List.range (laneCount (c.inTy 0)))
    (packLanes (laneWidth (c.outTy 0)) (r.map (fun x => x.1.toNat)), r.foldl (fun e x => e.or x.2) Ev.none, l')
  | _ => (0, Ev.none, l)

/-- The output beat of converted lanes: poisoned by its tokens or by a selected event of its lanes. -/
def cvtBeat (c : Ctx) (v : CvtState) (lanes : List (W32 × Ev)) : Token :=
  poisonTok (v.poison || pvSelects c.recd.pv (lanes.foldl (fun e x => e.or x.2) Ev.none)) v.recd
    (packLanes (laneWidth (c.outTy 0)) (lanes.map (fun x => x.1.toNat)))

/-- CVT's operation state without lanes. -/
def CvtState.init : CvtState := { lanes := [], poison := false, recd := none }

/-- CVT consumes a token (R247). -/
def cvtFire (c : Ctx) : Option Ctx :=
  match c.st.op, c.dataAt 0 with
  | .cvt v, some t =>
    let ls := laneCount (c.inTy 0)
    let ld := laneCount (c.outTy 0)
    if ls = ld then laneFire cvtSame c
    else
      let (r, l) := convertAll c t c.lfsr (List.range ls)
      let v1 : CvtState := { lanes := v.lanes ++ r, poison := v.poison || t.poison, recd := keepRec v.recd t }
      if ls < ld then
        if v1.lanes.length < ld then some (((c.setLfsr l).take 0).setOp (.cvt v1)).fired
        else if c.room 0 then some ((((c.setLfsr l).take 0).emit 0 (cvtBeat c v1 v1.lanes)).setOp (.cvt CvtState.init)).fired
        else none
      else if v.lanes.isEmpty && c.room 0 then
        some ((((c.setLfsr l).take 0).emit 0 (cvtBeat c v1 (r.take ld))).setOp (.cvt { v1 with lanes := r.drop ld })).fired
      else none
  | _, _ => none

/-- CVT emits held lanes, or a part-built beat once STOP or MODE heads port 0, in a firing that needs the output alone. -/
def cvtEmit (c : Ctx) : Option Ctx :=
  match c.st.op with
  | .cvt v =>
    let ls := laneCount (c.inTy 0)
    let ld := laneCount (c.outTy 0)
    if v.lanes.isEmpty || !c.room 0 then none
    else if ld < ls then
      let rest := v.lanes.drop ld
      let v' := if rest.isEmpty then CvtState.init else { v with lanes := rest }
      some ((c.emit 0 (cvtBeat c v (v.lanes.take ld))).setOp (.cvt v')).fired
    else if c.headCtl 0 then some ((c.emit 0 (cvtBeat c v v.lanes)).setOp (.cvt CvtState.init)).fired
    else none
  | _ => none

/-- VE_CVT (R247). -/
def execVeCvt (region site : Nat) (s : State) : Out := fireOp s region site .ve 0x10 cvtFire

/-- VE_CVT_EMIT (R247, R248). -/
def execVeCvtEmit (region site : Nat) (s : State) : Out := fireOp s region site .ve 0x10 cvtEmit

/-! ## TACC (R256) -/

/-- TACC after a reset. -/
def TaccState.init : TaccState := { acc := [], ev := Ev.none, poison := false, recd := none, closing := false }

/-- An FP32 pattern of a value that FP32 holds. -/
def fp32Bits (v : Val) : Nat := (exactLane tyFp32 false false 0#32 v).bits

/-- An accumulator lane; a lane not yet written holds zero. -/
def TaccState.lane (v : TaccState) (i : Nat) : W64 := v.acc.getD i 0#64

/-- A DATA token is added, lane by lane. -/
def taccAdd (c : Ctx) (v : TaccState) (t : Token) : TaccState :=
  let ty := c.inTy 0
  let add (i : Nat) : W64 × Ev :=
    let x := laneValue ty c.fzi (laneAt t.payload (laneWidth ty) i)
    if inI ty then (v.lane i + BitVec.ofInt 64 x.toInt, Ev.none)
    else
      let (y, e) := add32 (laneValue tyFp32 false (v.lane i).toNat) x
      (BitVec.ofNat 64 (fp32Bits y), e)
  let r := (List.range (laneCount ty)).map add
  { v with acc := r.map Prod.fst, ev := r.foldl (fun e x => e.or x.2) v.ev, poison := v.poison || t.poison,
           recd := keepRec v.recd t }

/-- The sum as it is emitted, and the LFSR afterwards. -/
def taccResult (c : Ctx) (v : TaccState) : Token × W32 :=
  let ty := c.outTy 0
  let out (l : W32) (i : Nat) : LaneOut :=
    if inI ty then intLane ty c.recd.sat (v.lane i).toInt l
    else nodeLane ty c.rm c.recd.sat c.fzo l (laneValue tyFp32 false (v.lane i).toNat)
  let (o, e, l) := eachLane c.lfsr out (List.range (laneCount ty))
  (poisonTok (v.poison || pvSelects c.recd.pv (v.ev.or e)) v.recd (packLanes (laneWidth ty) o), l)

/-- TACC consumes DATA. -/
def taccFire (c : Ctx) : Option Ctx :=
  match c.st.op, c.dataAt 0 with
  | .tacc v, some t => if v.closing then none else some ((c.take 0).setOp (.tacc (taccAdd c v t))).fired
  | _, _ => none

/-- TACC at a STOP: it emits the sum, then passes the STOP and resets. -/
def taccClose (c : Ctx) : Option Ctx :=
  match c.st.op, c.head 0 with
  | .tacc v, some t =>
    if t.kind ≠ .stop then none
    else if v.closing then
      if c.roomAll then some (((c.take 0).emitAll (stopTok t.depth)).setOp (.tacc TaccState.init)) else none
    else if c.room 0 then
      let (r, l) := taccResult c v
      some (((c.setLfsr l).emit 0 r).setOp (.tacc { v with closing := true })).fired
    else none
  | _, _ => none

/-- VE_TACC (R256). -/
def execVeTacc (region site : Nat) (s : State) : Out := fireOp s region site .ve 0x30 taccFire

/-- VE_TACC_CLOSE (R256). -/
def execVeTaccClose (region site : Nat) (s : State) : Out := fireOp s region site .ve 0x30 taccClose

/-! ## MXPACK (R257) -/

/-- MXPACK without values. -/
def MxpackState.init : MxpackState := { vals := [], poison := false, recd := none, emit := [], emitPoison := false }

/-- The values of a block: line `ln` of half `h` (R40). -/
def blockVals (vals : List Val) (h ln : Nat) : List Val :=
  (List.range 32).map (fun k => vals.getD ((32 * h + k) * 32 + ln) (.zero false))

/-- A block's scale exponent, whether it is NaN, and whether an infinity made it so (R42, R257). -/
def blockOf (elem : Nat) (vs : List Val) : Int × Bool × Ev :=
  (mxExponent elem vs, blockBad vs, if blockBad vs && !vs.any Val.isNan then Ev.inv else Ev.none)

/-- A list cut into pieces of a length. -/
def piecesOf {α : Type} (k : Nat) : Nat → List α → List (List α)
  | 0, _ => []
  | n + 1, l => l.take k :: piecesOf k n (l.drop k)

/-- The beats of a closed group, its scale beat first, with the events raised and the LFSR afterwards (R257). -/
def mxpackBeats (c : Ctx) (pats : List W32) : List Beat × Ev × W32 :=
  let ty := c.outTy 0
  let elem := elementType ty
  let vals := pats.map (fun x => laneValue tyFp32 false x.toNat)
  let blocks := [0, 1].flatMap (fun h => (List.range 32).map (fun ln => blockVals vals h ln))
  let info := blocks.map (blockOf elem)
  let n := 32 * laneCount ty / 32 * groupBeats ty
  let one (l : W32) (g : Nat) : LaneOut :=
    let (x, bad, _) := info.getD (g / 1024 * 32 + g % 32) (0, true, Ev.none)
    mxElement elem c.rm bad x l (vals.getD g (.zero false))
  let (es, _, l) := eachLane c.lfsr one (List.range n)
  let scale := packLanes 8 (blocks.map (fun vs => (mxScale elem vs).toNat))
  (scale :: (piecesOf (laneCount ty) (groupBeats ty) es).map (packLanes (laneWidth ty)),
    info.foldl (fun e x => e.or x.2.2) Ev.none, l)

/-- The group closes: its beats stand ready to be emitted. -/
def mxpackClose (c : Ctx) (v : MxpackState) : Ctx :=
  let (bs, ev, l) := mxpackBeats c v.vals
  (c.setLfsr l).setOp (.mxpack { v with vals := [], emit := bs, emitPoison := v.poison || pvSelects c.recd.pv ev })

/-- The FP32 patterns of a token's lanes, read under FZI. -/
def fp32Lanes (c : Ctx) (t : Token) : List W32 :=
  (lanesOf (c.inTy 0) t.payload).map (fun x => BitVec.ofNat 32 (fp32Bits (laneValue (c.inTy 0) c.fzi x)))

/-- MXPACK consumes a token into the staging buffer; the one that fills the group closes it. -/
def mxpackFire (c : Ctx) : Option Ctx :=
  match c.st.op, c.dataAt 0 with
  | .mxpack v, some t =>
    if !v.emit.isEmpty then none
    else
      let v1 : MxpackState := { v with vals := v.vals ++ fp32Lanes c t, poison := v.poison || t.poison, recd := keepRec v.recd t }
      let c1 := c.take 0
      some (if 2048 ≤ v1.vals.length then mxpackClose c1 v1 else c1.setOp (.mxpack v1)).fired
  | _, _ => none

/-- The next beat of a closed group is emitted. -/
def mxpackNext (c : Ctx) : Option Ctx :=
  match c.st.op with
  | .mxpack v =>
    match v.emit with
    | [] => none
    | b :: rest =>
      if c.room 0 then
        some ((c.emit 0 (poisonTok v.emitPoison v.recd b)).setOp
          (.mxpack (if rest.isEmpty then MxpackState.init else { v with emit := rest }))).fired
      else none
  | _ => none

/-- MXPACK emits a beat of a closed group; a STOP or MODE at port 0 closes a group that holds a value. -/
def mxpackEmit (c : Ctx) : Option Ctx :=
  match c.st.op with
  | .mxpack v => mxpackNext (if v.emit.isEmpty && !v.vals.isEmpty && c.headCtl 0 then mxpackClose c v else c)
  | _ => none

/-- VE_MXPACK (R257). -/
def execVeMxpack (region site : Nat) (s : State) : Out := fireOp s region site .ve 0x31 mxpackFire

/-- VE_MXPACK_EMIT (R257). -/
def execVeMxpackEmit (region site : Nat) (s : State) : Out := fireOp s region site .ve 0x31 mxpackEmit

/-! ## MXUNPACK (R258) -/

/-- MXUNPACK between groups. -/
def MxunpackState.init : MxunpackState := { scale := none, beats := 0, held := none, sent := 0 }

/-- Output beats of one element beat. -/
def unpackCount (c : Ctx) : Nat := laneCount (c.inTy 0) / laneCount (c.outTy 0)

/-- Output beat `k` of element beat `j`, and the LFSR afterwards (R39, R40, R258). -/
def unpackBeat (c : Ctx) (scale t : Token) (j k : Nat) : Token × W32 :=
  let src := c.inTy 0
  let dst := c.outTy 0
  let ld := laneCount dst
  let out (l : W32) (i : Nat) : LaneOut :=
    let lane := k * ld + i
    let step := j * (laneCount src / 32) + lane / 32
    let sc : Byte := BitVec.ofNat 8 (laneAt scale.payload 8 (step / 32 * 32 + lane % 32))
    convertLane (elementType src) dst c.rm false c.fzo l (mxValue (elementType src) sc (laneAt t.payload (laneWidth src) lane))
  let (o, _, l) := eachLane c.lfsr out (List.range ld)
  (resultTok [scale, t] false (packLanes (laneWidth dst) o), l)

/-- The output beat `v.sent` of the held element beat is emitted; the last beat of the last element beat ends the group. -/
def unpackNext (c : Ctx) (v : MxunpackState) (scale t : Token) : Option Ctx :=
  if c.room 0 then
    let (o, l) := unpackBeat c scale t (v.beats - 1) v.sent
    let v' :=
      if v.sent + 1 < unpackCount c then { v with held := some t, sent := v.sent + 1 }
      else if groupBeats (c.inTy 0) ≤ v.beats then MxunpackState.init
      else { v with held := none, sent := 0 }
    some (((c.setLfsr l).emit 0 o).setOp (.mxunpack v')).fired
  else none

/-- MXUNPACK consumes a scale beat, or an element beat with its first output beat. -/
def mxunpackFire (c : Ctx) : Option Ctx :=
  match c.st.op, c.dataAt 0 with
  | .mxunpack v, some t =>
    match v.held, v.scale with
    | some _, _ => none
    | none, none => some ((c.take 0).setOp (.mxunpack { MxunpackState.init with scale := some t })).fired
    | none, some sc => if c.room 0 then unpackNext (c.take 0) { v with beats := v.beats + 1, sent := 0 } sc t else none
  | _, _ => none

/-- MXUNPACK emits the next output beat of the held element beat, or, once STOP closes a group with element beats, of a
missing one, which counts as zeros (R41). -/
def mxunpackEmit (c : Ctx) : Option Ctx :=
  match c.st.op with
  | .mxunpack v =>
    match v.scale, v.held with
    | some sc, some t => unpackNext c v sc t
    | some sc, none =>
      if c.headKind 0 = some .stop ∧ 1 ≤ v.beats then
        unpackNext c { v with beats := v.beats + 1, sent := 0 } sc (dataTok 0)
      else none
    | none, _ => none
  | _ => none

/-- VE_MXUNPACK (R258). -/
def execVeMxunpack (region site : Nat) (s : State) : Out := fireOp s region site .ve 0x32 mxunpackFire

/-- VE_MXUNPACK_EMIT (R258). -/
def execVeMxunpackEmit (region site : Nat) (s : State) : Out := fireOp s region site .ve 0x32 mxunpackEmit

/-! ## CONST (R260) -/

/-- The fixed beat: a pool entry, or one pattern in every lane. -/
def constBeat (c : Ctx) : Beat :=
  let ty := c.outTy 0
  canonBeat ty (if c.recd.md % 2 = 1 then packLanes (laneWidth ty) (List.replicate (laneCount ty) (c.recd.e 0))
    else beatOf (poolBytes (c.cfg.pool.getD (c.recd.e 0 % 65536) [])))

/-- CONST: as a source it emits its beat and then STOP(0); with a trigger, its beat for each DATA token. -/
def constFire (c : Ctx) : Option Ctx :=
  if c.recd.inMask = 0 then
    match c.st.op with
    | .const 0 => if c.room 0 then some ((c.emit 0 (dataTok (constBeat c))).setOp (.const 1)).fired else none
    | .const 1 =>
      if c.roomAll then
        let c1 := (c.emitAll (stopTok 0)).setOp (.const 2)
        some { c1 with st := { c1.st with srcEnd := true } }.fired
      else none
    | _ => none
  else
    match c.dataAt 0 with
    | some _ => if c.room 0 then some ((c.take 0).emit 0 (dataTok (constBeat c))).fired else none
    | none => none

/-- VE_CONST (R260). -/
def execVeConst (region site : Nat) (s : State) : Out := fireOp s region site .ve 0x3E constFire

/-! ## Control operators -/

/-- A token made poison by another: with its error record when it carries one, else with the token's own payload. -/
def poisonedBy (c t : Token) : Token := if c.err then errTok c.record else { t with poison := true }

/-- STEER (R232). -/
def steerFire (c : Ctx) : Option Ctx :=
  match c.dataAt 0, c.dataAt 1 with
  | some d, some t =>
    let c1 := c.takeAll [0, 1]
    if t.poison then
      if c.room 0 && c.room 1 then some ((c1.emit 0 (poisonedBy t d)).emit 1 (poisonedBy t d)).fired else none
    else
      let p := if t.truth then 0 else 1
      if c.room p then some (c1.emit p d).fired else none
  | _, _ => none

/-- MERGE (R233). -/
def mergeFire (c : Ctx) : Option Ctx :=
  match c.dataAt 0 with
  | none => none
  | some t =>
    if c.room 0 = false then none
    else if t.poison then
      match c.dataAt 1, c.dataAt 2 with
      | some a, some b =>
        some ((c.takeAll [0, 1, 2]).emit 0 (resultTok [t, a, b] true (if t.truth then a else b).payload)).fired
      | _, _ => none
    else
      let q := if t.truth then 1 else 2
      (c.dataAt q).map (fun a => ((c.takeAll [0, q]).emit 0 a).fired)

/-- CARRY (R234). -/
def carryFire (c : Ctx) : Option Ctx :=
  match c.st.op with
  | .carry false =>
    match c.dataAt 0 with
    | some t => if c.room 0 then some (((c.take 0).emit 0 t).setOp (.carry true)).fired else none
    | none => none
  | .carry true =>
    match c.dataAt 2 with
    | none => none
    | some t =>
      if !t.poison && t.truth then
        match c.dataAt 1 with
        | some v => if c.room 0 then some ((c.takeAll [1, 2]).emit 0 v).fired else none
        | none => none
      else some ((c.take 2).setOp (.carry false)).fired
  | _ => none

/-- INV (R235). -/
def invFire (c : Ctx) : Option Ctx :=
  match c.st.op, c.dataAt 1 with
  | .inv held, some t =>
    let c1 := if held.isSome then c.take 1 else c.takeAll [0, 1]
    match (if held.isSome then held else c.dataAt 0) with
    | none => none
    | some v =>
      if t.poison then (if c.room 0 then some ((c1.emit 0 (poisonedBy t v)).setOp (.inv none)).fired else none)
      else if t.truth then (if c.room 0 then some ((c1.emit 0 v).setOp (.inv (some v))).fired else none)
      else some (c1.setOp (.inv none)).fired
  | _, _ => none

/-- FORK (R236). -/
def forkFire (c : Ctx) : Option Ctx :=
  match c.dataAt 0 with
  | some t => if c.room 0 && c.room 1 then some (((c.take 0).emit 0 t).emit 1 t).fired else none
  | none => none

/-- SINK (R236). -/
def sinkFire (c : Ctx) : Option Ctx := (c.dataAt 0).map (fun _ => (c.take 0).fired)

/-- VE_STEER (R232). -/
def execVeSteer (region site : Nat) (s : State) : Out := fireOp s region site .ve 0x38 steerFire

/-- VE_MERGE (R233). -/
def execVeMerge (region site : Nat) (s : State) : Out := fireOp s region site .ve 0x39 mergeFire

/-- VE_CARRY (R234). -/
def execVeCarry (region site : Nat) (s : State) : Out := fireOp s region site .ve 0x3A carryFire

/-- VE_INV (R235). -/
def execVeInv (region site : Nat) (s : State) : Out := fireOp s region site .ve 0x3B invFire

/-- VE_FORK (R236). -/
def execVeFork (region site : Nat) (s : State) : Out := fireOp s region site .ve 0x3C forkFire

/-- VE_SINK (R236). -/
def execVeSink (region site : Nat) (s : State) : Out := fireOp s region site .ve 0x3D sinkFire

/-! ## STOP, MODE and SWITCHOVER at these operations -/

/-- What a vector element still has to emit before it handles a control token at its heads (R248, R257, R258, R262). -/
def veOwes (c : Ctx) : Bool :=
  match c.st.op with
  | .cvt v => !v.lanes.isEmpty && (decide (laneCount (c.outTy 0) < laneCount (c.inTy 0)) || c.headCtl 0)
  | .tacc v => v.closing
  | .mxpack v => !v.emit.isEmpty || (!v.vals.isEmpty && c.headCtl 0)
  | .mxunpack v => v.held.isSome || (v.scale.isSome && decide (1 ≤ v.beats) && c.headKind 0 == some .stop)
  | .const k => c.recd.inMask == 0 && k != 2
  | _ => false

/-- CARRY in phase LOOP discards a STOP at L or C (R234). -/
def carryStop (c : Ctx) : Option Ctx :=
  match [1, 2].find? (fun q => c.headKind q == some .stop) with
  | some q => some (c.drop q)
  | none => none

/-- A STOP that heads one port is consumed and emitted. -/
def stopAt (c : Ctx) (q : Nat) : Option Ctx :=
  match c.head q with
  | some t => if t.kind = .stop ∧ c.roomAll ∧ c.whole then some ((c.take q).emitAll (stopTok t.depth)) else none
  | none => none

/-- STOP at a vector element (R226, R233 to R236, R248, R257, R258). -/
def veStop (c : Ctx) : Option Ctx :=
  if veOwes c then none
  else
    match c.st.op with
    | .tacc _ => none
    | .carry true => carryStop c
    | .carry false => stopAt c 0
    | .inv held => if held.isNone ∧ c.headKind 0 = some .stop then stopAt c 0 else stopAt c 1
    | .mxunpack _ => (stopAt c 0).map (fun c1 => c1.setOp (.mxunpack MxunpackState.init))
    | .const _ => if c.recd.inMask = 0 then none else stopAt c 0
    | _ =>
      if c.recd.opc = 0x39 ∧ c.headKind 0 ≠ some .stop ∧ (c.headKind 0 ≠ some .data) then none
      else stopOver c c.needs.1 passStop

/-- MODE at a vector element (R227, R234 to R236, R248, R256, R257). -/
def veMode (c : Ctx) : Option Ctx :=
  if veOwes c then none
  else
    match c.st.op with
    | .carry true =>
      match modeAt c 1 [0, 1] with
      | some c1 => some c1
      | none => modeAt c 2 [0, 1]
    | .carry false => modeAt c 0 [0, 1]
    | .mxunpack _ => modeAt c 0 [0, 1]
    | .const _ => if c.recd.inMask = 0 then sourceMode c else modeAt c 0 [0, 1]
    | _ => modeOver c c.needs.1

/-- The vector element discards its operation state before it adopts (R262): how many it counts. -/
def veDiscards (c : Ctx) : Nat :=
  match c.st.op with
  | .cvt v => if v.lanes.isEmpty then 0 else 1
  | .tacc v => if v.acc.isEmpty then 0 else 1
  | .mxpack v => if v.vals.isEmpty then 0 else 1
  | .mxunpack v => if v.scale.isSome then 1 else 0
  | _ => 0

/-- Every firing of a vector element's operation, as the events of its control tokens judge it (R211): something it can do
by itself. -/
def veCanFire (c : Ctx) : Bool :=
  let lane : Bool := (c.ports.filterMap c.dataAt).length == c.ports.length && c.room 0 && c.copyReady
  match c.recd.opc with
  | 0x10 => (cvtFire c).isSome || (cvtEmit c).isSome
  | 0x30 => (taccFire c).isSome || (taccClose c).isSome
  | 0x31 => (mxpackFire c).isSome || (mxpackEmit c).isSome
  | 0x32 => (mxunpackFire c).isSome || (mxunpackEmit c).isSome
  | 0x38 => (steerFire c).isSome
  | 0x39 => (mergeFire c).isSome
  | 0x3A => (carryFire c).isSome
  | 0x3B => (invFire c).isSome
  | 0x3C => (forkFire c).isSome
  | 0x3D => (sinkFire c).isSome
  | 0x3E => (constFire c).isSome
  | _ => lane

end Sys2Proof.Machine
end

