-- ==== Sys2Proof/Machine/Sq.lean ====
section
/-! DEFINITION. The stream sequencer element (R266 to R273). -/

namespace Sys2Proof.Machine

/-! ## Loop generators (R266, R267) -/

/-- The DATA token of an index: lane 0 the index, lane 1 its number; of a poisoned bound, lanes zero. -/
def LoopRun.token (q : LoopRun) (step : Int) : Token :=
  poisonTok q.poison (if q.err then some q.recd else none)
    (if q.single then 0 else packLanes 32 [wrapTo (q.index step) 32, q.j % 2 ^ 32])

/-- An emission of an open run: its next index, or its closing STOP(0). -/
def loopEmit (c : Ctx) (q : LoopRun) (step : Int) : Option Ctx :=
  if q.over step then
    if c.roomAll then
      let c1 := (c.emitAll (stopTok 0)).setOp (.loop none true)
      some { c1 with st := { c1.st with srcEnd := c.recd.inMask == 0 } }.fired
    else none
  else if c.room 0 then
    some ((c.emit 0 (q.token step)).setOp (.loop (some { q with j := q.j + 1 }) true)).fired
  else none

/-- A run that a token starts; a source's run carries none. -/
def runFrom (start stop : Int) (t : Option Token) (single : Bool) : LoopRun :=
  { start := start, stop := stop, j := 0, poison := t.any Token.poison, err := t.any Token.err,
    recd := (t.map Token.record).getD 0#32, single := single }

/-- LOOPA (R266): the next emission of the open run, or the start of one. -/
def loopaFire (c : Ctx) : Option Ctx :=
  let s32 (n : Nat) : Int := signed (c.recd.e n) 32
  match c.st.op with
  | .loop (some q) _ => loopEmit c q c.loopStep
  | .loop none started =>
    if c.recd.inMask = 0 then (if started then none else loopEmit c c.sourceRun c.loopStep)
    else (c.dataAt 0).map (fun t => ((c.take 0).setOp (.loop (some (runFrom (s32 0) (s32 1) (some t) false)) true)).fired)
  | _ => none

/-- LOOPT (R266, R267): start and end are lanes 0 and 1 of the bound token. -/
def looptFire (c : Ctx) : Option Ctx :=
  match c.st.op with
  | .loop (some q) _ => loopEmit c q c.loopStep
  | .loop none _ =>
    (c.dataAt 0).map (fun t =>
      let q := runFrom (signed (laneAt t.payload 32 0) 32) (signed (laneAt t.payload 32 1) 32) (some t) t.poison
      ((c.take 0).setOp (.loop (some q) true)).fired)
  | _ => none

/-- SQ_LOOPA (R266). -/
def execSqLoopa (region site : Nat) (s : State) : Out := fireOp s region site .sq 0x01 loopaFire

/-- SQ_LOOPT (R266). -/
def execSqLoopt (region site : Nat) (s : State) : Out := fireOp s region site .sq 0x02 looptFire

/-! ## Matrix commands (R268) -/

/-- A field of the template taken from a lane: its value, zero when out of range, and whether it was. -/
def commandLane (t : Token) (n limit : Nat) : Nat × Bool :=
  let v := signed (laneAt t.payload 32 n) 32
  if 0 ≤ v ∧ v ≤ limit then (v.toNat, false) else (0, true)

/-- The command token of a trigger. -/
def commandTok (c : Ctx) (t : Token) : Token :=
  let w := c.recd.e 0
  if c.inTy 0 = tyI32 then
    let (m, b0) := commandLane t 0 32
    let (n, b1) := commandLane t 1 32
    let (k, b2) := commandLane t 2 255
    resultTok [t] (b0 || b1 || b2) (BitVec.ofNat 512 (w % 8 + m * 2 ^ 3 + n * 2 ^ 9 + k * 2 ^ 15 + w / 2 ^ 23 * 2 ^ 23))
  else resultTok [t] false (BitVec.ofNat 512 w)

/-- MXCMD (R268). -/
def mxcmdFire (c : Ctx) : Option Ctx :=
  match c.dataAt 0 with
  | some t => if c.room 0 then some ((c.take 0).emit 0 (commandTok c t)).fired else none
  | none => none

/-- SQ_MXCMD (R268). -/
def execSqMxcmd (region site : Nat) (s : State) : Out := fireOp s region site .sq 0x03 mxcmdFire

/-! ## Controllers (R269) -/

/-- The first of a controller's five firings whose head condition holds (R269), once it has the outputs it needs. -/
def ctlFire (c : Ctx) : Option Ctx :=
  match c.st.op with
  | .ctl out drain =>
    let n := c.ctlFiring out drain
    let tok (q : Nat) : Token := (c.head q).getD (dataTok 0)
    if !c.ctlRoom drain n then none
    else
      match n with
      | 1 =>
        some (if out = 0#32 then c.drop 1 else ((c.take 1).emit 1 (tok 1)).setOp (.ctl (out - 1#32) drain)).fired
      | 2 => some (((c.take 0).emit 0 (tok 0)).setOp (.ctl (out + 1#32) drain)).fired
      | 3 => some (((c.take 0).emit 0 (tok 0)).setOp (.ctl out true)).fired
      | 4 =>
        some (if drain = false then c.drop 1
          else (((c.take 1).discard (if out = 0#32 then 0 else 1)).emit 1 (tok 1)).setOp (.ctl 0#32 false)).fired
      | 5 => (modeAt c 0 [0]).map Ctx.fired
      | _ => (modeAt c 1 [1]).map Ctx.fired
  | _ => none

/-- SQ_SEQ (R269). -/
def execSqSeq (region site : Nat) (s : State) : Out := fireOp s region site .sq 0x08 ctlFire

/-- SQ_PIPE (R269). -/
def execSqPipe (region site : Nat) (s : State) : Out := fireOp s region site .sq 0x09 ctlFire

/-- SQ_STREAM (R269). -/
def execSqStream (region site : Nat) (s : State) : Out := fireOp s region site .sq 0x0A ctlFire

/-! ## PERMIT, DONE, COUNT, EXIT (R270 to R273) -/

/-- PERMIT (R270): E0[7:0] permits, then STOP(0). -/
def permitFire (c : Ctx) : Option Ctx :=
  match c.st.op with
  | .permit k false =>
    if k < c.recd.e 0 % 256 then
      if c.room 0 then some ((c.emit 0 (dataTok (BitVec.ofNat 512 k))).setOp (.permit (k + 1) false)).fired else none
    else if c.roomAll then
      let c1 := (c.emitAll (stopTok 0)).setOp (.permit k true)
      some { c1 with st := { c1.st with srcEnd := true } }.fired
    else none
  | _ => none

/-- SQ_PERMIT (R270). -/
def execSqPermit (region site : Nat) (s : State) : Out := fireOp s region site .sq 0x10 permitFire

/-- DONE's tally at zero (R271). -/
def DoneState.init : DoneState := { collected := 0#32, count := 0#32, poison := false, recd := none }

/-- The done token of a tally. -/
def DoneState.token (v : DoneState) : Token :=
  poisonTok v.poison v.recd (BitVec.ofNat 512 (v.collected.toNat + 2 ^ 32 * v.count.toNat))

/-- DONE at STOP on every named port, their depths given (R271): depths all 0 count one collected run; otherwise the done
token of what is collected goes first, and then STOP(d − 1). -/
def doneStops (c : Ctx) (v : DoneState) : Option Ctx :=
  let (d, differ) := depths (c.ports.filterMap c.head)
  if d = 0 then
    if c.room 0 = false then none
    else
      let v1 := { v with collected := v.collected + 1#32 }
      let c1 := c.takeAll c.ports
      if v1.collected.toNat = c.recd.e 0 % 65536 then some ((c1.emit 0 v1.token).setOp (.done DoneState.init)).fired
      else some (c1.setOp (.done v1)).fired
  else if v.collected ≠ 0#32 then
    if c.room 0 then some ((c.emit 0 v.token).setOp (.done DoneState.init)).fired else none
  else if c.roomAll then
    some (((c.takeAll c.ports).discard (if differ then 1 else 0)).emitAll (stopTok (d - 1))).fired
  else none

/-- DONE (R271): a DATA token at any named port is consumed alone. -/
def doneFire (c : Ctx) : Option Ctx :=
  match c.st.op with
  | .done v =>
    match c.ports.findSome? (fun q => (c.dataAt q).map (fun t => (q, t))) with
    | some (q, t) =>
      some ((c.take q).setOp (.done { v with count := v.count + 1#32, poison := v.poison || t.poison,
                                              recd := keepRec v.recd t })).fired
    | none => if (c.headed c.ports .stop).length = c.ports.length then doneStops c v else none
  | _ => none

/-- SQ_DONE (R271). -/
def execSqDone (region site : Nat) (s : State) : Out := fireOp s region site .sq 0x11 doneFire

/-- COUNT (R272). -/
def countFire (c : Ctx) : Option Ctx :=
  match c.st.op, c.dataAt 0 with
  | .count n, some t =>
    let o := poisonTok t.poison (if t.err then some t.record else none) (n.setWidth 512)
    let wrap := decide (c.recd.e 0 ≠ 0 ∧ (n + 1#32).toNat = c.recd.e 0)
    if c.room 0 && (!wrap || c.room 1) then
      let c1 := (c.take 0).emit 0 o
      some (if wrap then (c1.emit 1 (poisonTok t.poison (if t.err then some t.record else none)
          (BitVec.ofNat 512 (c.recd.e 0)))).setOp (.count 0#32)
        else c1.setOp (.count (n + 1#32))).fired
    else none
  | _, _ => none

/-- SQ_COUNT (R272). -/
def execSqCount (region site : Nat) (s : State) : Out := fireOp s region site .sq 0x12 countFire

/-- The exit token (R203, R273). -/
def exitTok (c : Ctx) : Token := dataTok (BitVec.ofNat 512 (c.recd.e 0 % 8 + 65536 * c.cfgid))

/-- EXIT (R273): DATA is consumed; the first STOP makes it emit the exit token; afterwards both are discarded. -/
def exitFire (c : Ctx) : Option Ctx :=
  match c.st.op, c.headKind 0 with
  | .exit false, some .data => some (c.take 0).fired
  | .exit false, some .stop =>
    if c.room 0 then some (((c.take 0).emit 0 (exitTok c)).setOp (.exit true)).fired else none
  | .exit true, some .data => some (c.drop 0).fired
  | .exit true, some .stop => some (c.drop 0).fired
  | _, _ => none

/-- SQ_EXIT (R273). -/
def execSqExit (region site : Nat) (s : State) : Out := fireOp s region site .sq 0x13 exitFire

/-! ## STOP, MODE and firing as the control events see them -/

/-- STOP at a stream sequencer, where its firings do not handle it (R226, R267, R272). -/
def sqStop (c : Ctx) : Option Ctx :=
  match c.st.op with
  | .loop none _ =>
    match c.head 0 with
    | some t =>
      if t.kind = .stop ∧ c.roomAll then some ((c.take 0).emitAll (stopTok (min (t.depth + 1) 7))) else none
    | none => none
  | .count _ => (stopAt c 0).map (fun c1 => c1.setOp (.count 0#32))
  | .none => stopAt c 0
  | _ => none

/-- MODE at a stream sequencer (R210, R227, R267, R271 to R273); DONE goes on consuming DATA, whose firing needs no other
port. -/
def sqMode (c : Ctx) : Option Ctx :=
  if c.recd.inMask = 0 then sourceMode c
  else
    match c.st.op with
    | .loop none _ => modeAt c 0 [0, 1]
    | .done _ => if c.ports.any (fun q => (c.dataAt q).isSome) then none else modeOver c c.ports
    | .count _ => modeAt c 0 [0, 1]
    | .exit _ => modeAt c 0 []
    | .none => modeAt c 0 [0, 1]
    | _ => none

/-- A firing of a stream sequencer is possible. -/
def sqCanFire (c : Ctx) : Bool :=
  match c.recd.opc with
  | 0x01 => (loopaFire c).isSome
  | 0x02 => (looptFire c).isSome
  | 0x03 => (mxcmdFire c).isSome
  | 0x08 | 0x09 | 0x0A => (ctlFire c).isSome
  | 0x10 => (permitFire c).isSome
  | 0x11 => (doneFire c).isSome
  | 0x12 => (countFire c).isSome
  | 0x13 => (exitFire c).isSome
  | _ => false

end Sys2Proof.Machine
end

