-- ==== Sys2Proof/Machine/Mx.lean ====
section
/-! DEFINITION. The matrix element (R56, R57, R274 to R288). MX_EARLY stays as it is: a step is never finished early, which R59
allows. -/

namespace Sys2Proof.Machine

/-! ## Registers -/

/-- The kept registers of a matrix element's site. -/
def Ctx.regs (c : Ctx) : MxRegs := c.st.mx.getD MxRegs.init

/-- Those registers written. -/
def Ctx.setRegs (c : Ctx) (m : MxRegs) : Ctx := { c with st := { c.st with mx := some m } }

/-- The tile register with a number. -/
def MxRegs.tile (m : MxRegs) (one : Bool) : Vector W32 1024 := if one then m.t1 else m.t0

/-- A tile register written. -/
def MxRegs.setTile (m : MxRegs) (one : Bool) (t : Vector W32 1024) : MxRegs :=
  if one then { m with t1 := t } else { m with t0 := t }

/-- A register's poison flag and record. -/
def MxRegs.flag (m : MxRegs) (one : Bool) : Bool × Option W32 := if one then (m.pz1, m.rec1) else (m.pz0, m.rec0)

/-- A register's poison flag and record written. -/
def MxRegs.setFlag (m : MxRegs) (one : Bool) (p : Bool) (r : Option W32) : MxRegs :=
  if one then { m with pz1 := p, rec1 := r } else { m with pz0 := p, rec0 := r }

/-- A register is zeroed and its flag and record cleared. -/
def MxRegs.clear (m : MxRegs) (one : Bool) : MxRegs :=
  (m.setTile one (Vector.replicate 1024 0#32)).setFlag one false none

/-- The active register is poisoned; its record stays, or becomes the one given (R278, R286). -/
def MxRegs.poison (m : MxRegs) (r : Option W32) : MxRegs :=
  let old := (m.flag m.act).2
  m.setFlag m.act true (if old.isSome then old else r)

/-- The active register takes the poison of a token. -/
def MxRegs.taint (m : MxRegs) (t : Token) : MxRegs := if t.poison then m.poison (if t.err then some t.record else none) else m

/-- The registers hold integers (R276). -/
def mxInteger (c : Ctx) : Bool := if c.recd.consumes 1 then inI (c.inTy 1) else inI (c.outTy 0)

/-! ## Commands (R276 to R279, R285) -/

/-- The commands a record admits (R276). -/
def admits (opc op : Nat) : Bool :=
  match opc with
  | 1 => [1, 4, 5, 7].contains op
  | 2 => decide (1 ≤ op ∧ op ≤ 7)
  | 3 => [3, 6, 4, 5, 7].contains op
  | 4 => [4, 7].contains op
  | 5 => [5, 4, 7].contains op
  | 6 => [6, 4, 5, 7].contains op
  | 7 => op == 7
  | _ => false

/-- A command the element runs (R277, R278). -/
def commandOk (c : Ctx) (t : Token) : Bool :=
  let w : W32 := t.payload.setWidth 32
  !t.err && decide (t.payload.toNat < 2 ^ 32) && mxWordOk w && admits c.recd.opc (mxFields w).op

/-- The command at port 0, when none is open and no boundary waits. -/
def commandAt (c : Ctx) : Option (MxState × Token) :=
  match c.st.op with
  | .mx m => if m.cmd.isSome || m.boundary.isSome then none else (c.dataAt 0).map (fun t => (m, t))
  | _ => none

/-- An open command, or none when it has nothing left to do. -/
def keepOpen (k : MxCmd) : Option MxCmd :=
  let f := mxFields k.word
  if f.op ≠ 5 ∧ f.op ≠ 6 ∧ k.stepsOver ∧ f.dr = false then none else some k

/-- A command is consumed (R278, R279, R285): what it does at once, and what stays open. -/
def openCommand (c : Ctx) (m : MxState) (t : Token) : Ctx :=
  let w : W32 := t.payload.setWidth 32
  let f := mxFields w
  let k : MxCmd := { word := w, steps := 0, bBeats := 0, drained := 0, loaded := 0, cut := false }
  let g := c.regs
  let c1 := c.take 0
  match f.op with
  | 4 => (c1.setRegs (({ g with act := !g.act }).taint t)).fired
  | 5 => ((c1.setRegs (g.taint t)).setOp (.mx { m with cmd := some k })).fired
  | 6 => ((c1.setRegs (g.taint t)).setOp (.mx { m with cmd := some k, ldPoison := false, ldRec := none })).fired
  | 7 => (c1.setRegs ((g.clear g.act).taint t)).fired
  | _ =>
    let g1 := (if f.acc then g else g.clear g.act).taint t
    let k1 := if f.m = 0 ∨ f.n = 0 then { k with cut := true, drained := drainBeats c } else k
    ((c1.setRegs g1).setOp (.mx { m with cmd := keepOpen k1 })).fired

/-- The command at port 0 is consumed when it is a well-formed one of an operation. -/
def commandFire (op : Nat) (c : Ctx) : Option Ctx :=
  (commandAt c).bind (fun x =>
    if commandOk c x.2 && (mxFields (x.2.payload.setWidth 32)).op == op then some (openCommand c x.1 x.2) else none)

/-- A token that carries an error record, or a malformed command, is consumed alone (R278). -/
def errorCommand (c : Ctx) : Option Ctx :=
  (commandAt c).bind (fun x =>
    if commandOk c x.2 then none
    else
      let c1 := c.take 0
      some (if x.2.err then c1.setRegs (c.regs.poison (some x.2.record)) else (c1.setRegs (c.regs.poison none)).discard 1).fired)

/-- An event of a matrix element. -/
def fireMx (s : State) (r site : Nat) (f : Ctx → Option Ctx) : Out :=
  orStay s ((ctxOf s r site).bind (fun c => if c.recd.kind = .mx then (f c).map (fun c' => c'.back s) else none))

/-- MX_MMA (R279). -/
def execMxMma (region site : Nat) (s : State) : Out := fireMx s region site (commandFire 1)

/-- MX_MMT (R282). -/
def execMxMmt (region site : Nat) (s : State) : Out := fireMx s region site (commandFire 2)

/-- MX_MRES (R283). -/
def execMxMres (region site : Nat) (s : State) : Out := fireMx s region site (commandFire 3)

/-- MX_TXCH (R285). -/
def execMxTxch (region site : Nat) (s : State) : Out := fireMx s region site (commandFire 4)

/-- MX_DRAIN (R284). -/
def execMxDrain (region site : Nat) (s : State) : Out := fireMx s region site (commandFire 5)

/-- MX_LDACC (R285). -/
def execMxLdacc (region site : Nat) (s : State) : Out := fireMx s region site (commandFire 6)

/-- MX_ZERO (R285). -/
def execMxZero (region site : Nat) (s : State) : Out := fireMx s region site (commandFire 7)

/-- MX_ERROR_COMMAND (R278). -/
def execMxErrorCommand (region site : Nat) (s : State) : Out := fireMx s region site errorCommand

/-! ## Sums (R56, R57) -/

/-- One step's update of an FP32 accumulator by exact products (R56). -/
def accFloat (acc : W32) (ps : List Val) : W32 :=
  let a := laneValue tyFp32 false acc.toNat
  let s := ps.foldl (Val.add 0) (.zero false)
  if a.isNan || s.isNan then 0x7FC00000#32
  else if s.isZero then acc
  else
    match a.add 0 s with
    | .nan => 0x7FC00000#32
    | .inf n => BitVec.ofNat 32 ((fmtOf tyFp32).infPattern n)
    | .fin n m e k => BitVec.ofNat 32 (roundLane tyFp32 0 false false 0#32 n m e k).bits

/-- One step's update of an accumulator: FP32 under R56, i32 modulo 2^32 under R57. -/
def accumulate (int : Bool) (acc : W32) (ps : List Val) : W32 :=
  if int then acc + BitVec.ofInt 32 (ps.foldl (fun s p => s + p.toInt) 0) else accFloat acc ps

/-- A tile register with the elements of the rows below `m` and columns below `n` replaced. -/
def mapTile (t : Vector W32 1024) (m n : Nat) (f : Nat → Nat → W32 → W32) : Vector W32 1024 :=
  Vector.ofFn (fun g : Fin 1024 =>
    let i := g.val / 32
    let j := g.val % 32
    if i < m ∧ j < n then f i j t[g] else t[g])

/-! ## Operand beats (R40, R41, R280, R281) -/

/-- The pattern of a lane and the scale beside it: of an MX arc, the one its framing gives it; of another, 1. -/
def operandLane (c : Ctx) (q : Nat) (fr : MxFrame) (t : Token) (lane : Nat) : BitVec 16 × Byte :=
  let pat := BitVec.ofNat 16 (laneAt t.payload (laneWidth (c.inTy q)) lane)
  match fr.scale with
  | none => (pat, 0x7F#8)
  | some b =>
    let step := fr.beats * mxKb c + lane / 32
    (pat, BitVec.ofNat 8 (laneAt b 8 (step / 32 * 32 + lane % 32)))

/-- The value of a pattern and scale under a type. -/
def operandVal (ty : Nat) (x : BitVec 16 × Byte) : Val := mxValue (elementType ty) x.2 x.1.toNat

/-- The framing after one more element beat. -/
def MxFrame.next (fr : MxFrame) (ty : Nat) : MxFrame :=
  if fr.scale.isNone then fr
  else if groupBeats ty ≤ fr.beats + 1 then { scale := none, beats := 0 } else { fr with beats := fr.beats + 1 }

/-- The beat an operand port gives: the DATA at its head, or the zeros that stand for the missing beats of an MX group that a
STOP closes; and whether the head is consumed. -/
def operandAt (c : Ctx) (q : Nat) (fr : MxFrame) : Option (Token × Bool) :=
  match c.dataAt q with
  | some t => some (t, true)
  | none =>
    if c.headKind q = some .stop ∧ fr.scale.isSome ∧ 1 ≤ fr.beats then some (dataTok 0, false) else none

/-- A B beat enters the window at its K indices modulo 64 (R281). -/
def MxRegs.writeWindow (m : MxRegs) (c : Ctx) (fr : MxFrame) (t : Token) (beat : Nat) : MxRegs :=
  let kb := mxKb c
  (List.range kb).foldl (fun m u =>
    let p := (beat * kb + u) % 64
    { (List.range 32).foldl (fun m j =>
        { m with window := m.window.setIfInBounds (32 * p + j) (operandLane c 2 fr t (32 * u + j)) }) m with
      wty := m.wty.setIfInBounds p (BitVec.ofNat 5 (c.inTy 2)) }) m

/-- The value at a window position. -/
def MxRegs.windowVal (m : MxRegs) (p j : Nat) : Val :=
  operandVal (m.wty.toArray.getD (p % 64) 0#5).toNat (m.window.toArray.getD (32 * (p % 64) + j) (0#16, 0x7F#8))

/-! ## Steps (R280, R282, R283) -/

/-- The products of processing element (i, j) in an MMA step. -/
def mmaTile (c : Ctx) (g : MxRegs) (f : MxFields) (fa : MxFrame) (a : Token) (s : Nat) : Vector W32 1024 :=
  let kb := mxKb c
  let ty := c.inTy 1
  let av : Array (List Val) := ((List.range f.m).map (fun i =>
    (List.range kb).map (fun t => operandVal ty (operandLane c 1 fa a (32 * t + i))))).toArray
  let bv : Array (List Val) := ((List.range f.n).map (fun j =>
    (List.range kb).map (fun t => g.windowVal (s * kb + t) j))).toArray
  mapTile (g.tile g.act) f.m f.n (fun i j acc =>
    accumulate (mxInteger c) acc (((av.getD i []).zip (bv.getD j [])).map (fun p => p.1.mul p.2)))

/-- The slots of a row in a step of a structured term: K index and value of each valid one, and whether one is malformed
(R282). -/
def rowSlots (c : Ctx) (a x : Token) (s i : Nat) : List (Nat × Val) × Bool :=
  let kb := mxKb c
  let (n, m) := termShape c
  let fr : MxFrame := { scale := none, beats := 0 }
  let slot (t : Nat) : Nat × Val × Nat := 
    let e := laneAt x.payload 4 (32 * t + i)
    ((s * kb + t) / n * m + e % 8, operandVal (c.inTy 1) (operandLane c 1 fr a (32 * t + i)), e)
  let l := (List.range kb).map slot
  ((l.filter (fun y => decide (8 ≤ y.2.2) && decide (y.2.2 % 8 < m))).map (fun y => (y.1, y.2.1)),
    l.any (fun y => decide (8 ≤ y.2.2) && decide (m ≤ y.2.2 % 8)))

/-- The tile register after a step of a structured term, and whether a slot of its rows was malformed. -/
def mmtTile (c : Ctx) (g : MxRegs) (f : MxFields) (a x : Token) (s : Nat) : Vector W32 1024 × Bool :=
  let rows : Array (List (Nat × Val) × Bool) := ((List.range f.m).map (rowSlots c a x s)).toArray
  (mapTile (g.tile g.act) f.m f.n (fun i j acc =>
      accumulate (mxInteger c) acc ((rows.getD i ([], false)).1.map (fun y => y.2.mul (g.windowVal y.1 j)))),
    rows.toList.any Prod.snd)

/-- One residual entry (R283): a step of one product for each element of its row. -/
def residualEntry (int : Bool) (g : MxRegs) (f : MxFields) (t : Vector W32 1024) (e : Nat) : Vector W32 1024 :=
  let row := bits e 42 38
  if bits e 63 63 = 0 ∨ f.m ≤ row ∨ bits e 62 43 ≠ 0 then t
  else
    let v := if int then Val.ofInt (signed e 32) else laneValue tyFp32 false (bits e 31 0)
    mapTile t f.m f.n (fun i j acc => if i = row then accumulate int acc [v.mul (g.windowVal (bits e 37 32) j)] else acc)

/-- The entries of a residual beat. -/
def residuals (x : Token) : List Nat := (List.range 8).map (fun e => laneAt x.payload 64 e)

/-- The command after something of it has been done. -/
def Ctx.progress (c : Ctx) (m : MxState) (k : MxCmd) : Ctx := c.setOp (.mx { m with cmd := keepOpen k })

/-- The steps end early (R287): a port the command needs is headed by STOP or SWITCHOVER. -/
def cutSteps (c : Ctx) (m : MxState) (k : MxCmd) : Ctx := ((c.discard 1).progress m { k with cut := true })

/-- A port is headed by STOP or SWITCHOVER. -/
def Ctx.ended (c : Ctx) (q : Nat) : Bool := c.headKind q == some .stop || c.headKind q == some .switchover

/-- A beat of a port is consumed, unless zeros stand for it. -/
def takeIf (c : Ctx) (q : Nat) (real : Bool) : Ctx := if real then c.take q else c

/-- An MMA step (R280, R281): a scale beat that is due, or one A beat and, with BK = 0, one B beat. -/
def mmaStep (c : Ctx) (m : MxState) (k : MxCmd) (f : MxFields) : Option Ctx :=
  let g := c.regs
  if scaleDue c 1 m.aFrame then
    (c.dataAt 1).map (fun t => (((c.take 1).setRegs (g.taint t)).setOp
      (.mx { m with aFrame := { scale := some t.payload, beats := 0 } })).fired)
  else if !f.bk && scaleDue c 2 m.bFrame then
    (c.dataAt 2).map (fun t => (((c.take 2).setRegs (g.taint t)).setOp
      (.mx { m with bFrame := { scale := some t.payload, beats := 0 } })).fired)
  else
    match operandAt c 1 m.aFrame with
    | none => none
    | some (a, ra) =>
      let k1 := { k with steps := k.steps + 1 }
      let m1 := { m with aFrame := m.aFrame.next (c.inTy 1) }
      if f.bk then
        let g1 := g.taint a
        let g2 := { g1.setTile g1.act (mmaTile c g1 f m.aFrame a k.steps) with steps := g1.steps + 1#64 }
        some (((takeIf c 1 ra).setRegs g2).progress m1 k1).fired
      else
        match operandAt c 2 m.bFrame with
        | none => none
        | some (b, rb) =>
          let g1 := ((g.taint a).taint b).writeWindow c m.bFrame b k.bBeats
          let g2 := { g1.setTile g1.act (mmaTile c g1 f m.aFrame a k.steps) with steps := g1.steps + 1#64 }
          some (((takeIf (takeIf c 1 ra) 2 rb).setRegs g2).progress { m1 with bFrame := m.bFrame.next (c.inTy 2) }
            { k1 with bBeats := k.bBeats + 1 }).fired

/-- An event of a structured term (R282): a B beat of its next step, once the A beat and the index beat of that step stand at their
ports, so that no beat of a step that never runs is taken (R287); or the step. -/
def mmtStep (c : Ctx) (m : MxState) (k : MxCmd) (f : MxFields) : Option Ctx :=
  let g := c.regs
  if !f.bk && decide (k.bBeats < termBeats c k.steps) then
    if (c.dataAt 1).isNone || (c.dataAt 3).isNone then none
    else if scaleDue c 2 m.bFrame then
      (c.dataAt 2).map (fun t => (((c.take 2).setRegs (g.taint t)).setOp
        (.mx { m with bFrame := { scale := some t.payload, beats := 0 } })).fired)
    else
      (operandAt c 2 m.bFrame).map (fun b =>
        (((takeIf c 2 b.2).setRegs ((g.taint b.1).writeWindow c m.bFrame b.1 k.bBeats)).progress
          { m with bFrame := m.bFrame.next (c.inTy 2) } { k with bBeats := k.bBeats + 1 }).fired)
  else
    match c.dataAt 1, c.dataAt 3 with
    | some a, some x =>
      let g1 := (g.taint a).taint x
      let (t, bad) := mmtTile c g1 f a x k.steps
      let g2 := { g1.setTile g1.act t with steps := g1.steps + 1#64 }
      some (((c.takeAll [1, 3]).setRegs (if bad then g2.poison none else g2)).progress m { k with steps := k.steps + 1 }).fired
    | _, _ => none

/-- A residual beat (R283). -/
def mresStep (c : Ctx) (m : MxState) (k : MxCmd) (f : MxFields) : Option Ctx :=
  (c.dataAt 3).map (fun x =>
    let g := c.regs.taint x
    let es := residuals x
    let t := es.foldl (residualEntry (mxInteger c) g f) (g.tile g.act)
    let g1 := { g.setTile g.act t with steps := g.steps + 1#64 }
    let g2 := if es.any (fun e => bits e 62 43 != 0) then g1.poison none else g1
    (((c.take 3).setRegs g2).progress m { k with steps := k.steps + 1 }).fired)

/-- The frame of an operand port, and whether zeros stand for its missing beats. -/
def zeroFill (c : Ctx) (m : MxState) (q : Nat) : Bool :=
  match q with
  | 1 => (operandAt c 1 m.aFrame).isSome
  | 2 => (operandAt c 2 m.bFrame).isSome
  | _ => false

/-- An event of the open command's steps (R279 to R283, R287). -/
def mxStep (c : Ctx) : Option Ctx :=
  match c.st.op with
  | .mx m =>
    match m.cmd with
    | none => none
    | some k =>
      let f := mxFields k.word
      if m.boundary.isSome || decide (f.op = 5 ∨ f.op = 6) || k.stepsOver then none
      else if (mxNeeds c m).1.any (fun q => c.ended q && !zeroFill c m q) then some (cutSteps c m k)
      else
        match f.op with
        | 1 => mmaStep c m k f
        | 2 => mmtStep c m k f
        | _ => mresStep c m k f
  | _ => none

/-- MX_STEP (R280). -/
def execMxStep (region site : Nat) (s : State) : Out := fireMx s region site mxStep

/-! ## LDACC and drains (R284, R285) -/

/-- LDACC ends: the loading register's flag and record become those of the earliest poisoned beat. -/
def endLoad (c : Ctx) (m : MxState) : Ctx :=
  let g := c.regs
  (c.setRegs (g.setFlag (!g.act) m.ldPoison m.ldRec)).setOp (.mx { m with cmd := none })

/-- A beat of LDACC (R285), or its early end (R287). -/
def ldaccBeat (c : Ctx) : Option Ctx :=
  match c.st.op with
  | .mx m =>
    match m.cmd with
    | none => none
    | some k =>
      if (mxFields k.word).op ≠ 6 then none
      else if c.ended 3 then some (endLoad (c.discard 1) m)
      else
        (c.dataAt 3).map (fun x =>
          let g := c.regs
          let t := (List.range 16).foldl (fun (t : Vector W32 1024) l =>
            t.setIfInBounds (16 * k.loaded + l) (BitVec.ofNat 32 (laneAt x.payload 32 l))) (g.tile (!g.act))
          let m1 := if x.poison && !m.ldPoison then
              { m with ldPoison := true, ldRec := if x.err then some x.record else none } else m
          let c1 := (c.take 3).setRegs (g.setTile (!g.act) t)
          (if 64 ≤ k.loaded + 1 then endLoad c1 m1
            else c1.setOp (.mx { m1 with cmd := some { k with loaded := k.loaded + 1 } })).fired)
  | _ => none

/-- MX_LDACC_BEAT (R285). -/
def execMxLdaccBeat (region site : Nat) (s : State) : Out := fireMx s region site ldaccBeat

/-- One drained value (R284): to its own type exact apart from FZO; to another under R51 to R53. Each is one rounding (R49), a
NaN, an infinity and an integer too (log entry 20). -/
def drainLane (c : Ctx) (f : MxFields) (l : W32) (x : W32) : LaneOut :=
  let dst := c.outTy 0
  let rm := rmOf c.st.mode (if f.ro = 0 then c.recd.ro else f.ro)
  let src := if mxInteger c then tyI32 else tyFp32
  let o := if dst = src then exactLane dst false c.fzo l (laneValue src false x.toNat)
    else convertLane src dst rm (f.sat || c.recd.sat) c.fzo l (laneValue src c.fzi x.toNat)
  { o with lfsr := lfsrAfter rm l }

/-- The drain beat `n` of the active register, and the LFSR afterwards. -/
def drainBeat (c : Ctx) (f : MxFields) (n : Nat) : Token × W32 :=
  let g := c.regs
  let w := laneCount (c.outTy 0)
  let t := (g.tile g.act).toArray
  let (o, ev, l) := eachLane c.lfsr (fun l i => drainLane c f l (t.getD (n * w + i) 0#32)) (List.range w)
  let (pz, r) := g.flag g.act
  (poisonTok (pz || pvSelects (f.pv ||| c.recd.pv) ev) r (packLanes (laneWidth (c.outTy 0)) o), l)

/-- A drain emits its next beat, and after the last one STOP(0) (R279, R284). -/
def drainFire (c : Ctx) : Option Ctx :=
  match c.st.op with
  | .mx m =>
    match m.cmd with
    | none => none
    | some k =>
      let f := mxFields k.word
      if f.op = 6 ∨ k.stepsOver = false then none
      else if k.drained < drainBeats c then
        if c.room 0 then
          let (t, l) := drainBeat c f k.drained
          some (((c.setLfsr l).emit 0 t).setOp (.mx { m with cmd := some { k with drained := k.drained + 1 } })).fired
        else none
      else if c.roomCtl 0 then some ((c.emit 0 (stopTok 0)).setOp (.mx { m with cmd := none })).fired
      else none
  | _ => none

/-- MX_DRAIN_BEAT (R284). -/
def execMxDrainBeat (region site : Nat) (s : State) : Out := fireMx s region site drainFire

/-! ## Boundaries (R287) -/

/-- A STOP at the commands (R287): it is consumed; DATA at the other ports is discarded and MODE consumed until STOP heads
them all; then those are consumed, a deeper STOP is emitted, and the operand framing starts afresh (R40). -/
def stopBoundary (c : Ctx) : Option Ctx :=
  match c.st.op with
  | .mx m =>
    let others := c.ports.filter (fun q => q != 0)
    match m.boundary with
    | none =>
      match c.head 0 with
      | some t =>
        if t.kind = .stop ∧ m.cmd.isNone then some ((c.take 0).setOp (.mx { m with boundary := some t.depth })) else none
      | none => none
    | some d =>
      if !(c.headed others .data).isEmpty then some ((c.headed others .data).foldl Ctx.drop c)
      else if !(c.headed others .mode).isEmpty then some (c.takeAll (c.headed others .mode))
      else if (c.headed others .stop).length = others.length ∧ c.roomCtl 0 then
        let fr : MxFrame := { scale := none, beats := 0 }
        some (((c.takeAll others).emit 0 (stopTok (min (d + 1) 7))).setOp
          (.mx { m with boundary := none, aFrame := fr, bFrame := fr }))
      else none
  | _ => none

/-- MX_STOP_BOUNDARY (R287). -/
def execMxStopBoundary (region site : Nat) (s : State) : Out := fireMx s region site stopBoundary

/-- MODE at a matrix element (R287): at port 0 between commands it is taken and emitted; at an operand port it is consumed
without effect. -/
def mxMode (c : Ctx) : Option Ctx :=
  match (c.ports.filter (fun q => q != 0)).find? (fun q => c.headKind q == some .mode) with
  | some q => some (c.take q)
  | none =>
    match c.st.op with
    | .mx m => if m.cmd.isNone ∧ m.boundary.isNone then modeAt c 0 [0] else none
    | _ => none

/-- An event of a matrix element is possible. -/
def mxCanFire (c : Ctx) : Bool :=
  (commandAt c).isSome || (mxStep c).isSome || (ldaccBeat c).isSome || (drainFire c).isSome || (stopBoundary c).isSome

end Sys2Proof.Machine
end

