-- ==== Sys2Proof/Machine/Control.lean ====
section
/-! DEFINITION. The control tokens at an element of any kind (R196 to R202, R226, R227, R262, R421 to R423): STOP and MODE,
discards before a SWITCHOVER, adoption, and freezing. -/

namespace Sys2Proof.Machine

/-! ## STOP and MODE -/

/-- STOP at an element (R226), as its kind handles it. -/
def elementStop (s : State) (c : Ctx) : Option Ctx :=
  match c.recd.kind with
  | .ve => veStop c
  | .sq => sqStop c
  | .mx => stopBoundary c
  | .ag => agStop s c
  | .hd => hdStop c
  | .ow => owStop c
  | .br => brStop c

/-- STOP_HANDLING (R226). -/
def execStopHandling (region site : Nat) (s : State) : Out :=
  orStay s ((ctxOf s region site).bind (fun c => (elementStop s c).map (fun c' => c'.back s)))

/-- MODE at an element (R227), as its kind handles it. -/
def elementMode (c : Ctx) : Option Ctx :=
  match c.recd.kind with
  | .ve => veMode c
  | .sq => sqMode c
  | .mx => mxMode c
  | .ag => agMode c
  | .hd => hdMode c
  | .ow => owMode c
  | .br => brMode c

/-- MODE_HANDLING (R227, R210). -/
def execModeHandling (region site : Nat) (s : State) : Out :=
  orStay s ((ctxOf s region site).bind (fun c => (elementMode c).map (fun c' => c'.back s)))

/-- An element can do something of its own (R211): a firing or an event of its operation, or STOP or MODE. -/
def elementMoves (s : State) (c : Ctx) : Bool :=
  let any (l : List (Option State)) : Bool := l.any (fun o => o.isSome)
  (elementStop s c).isSome || (elementMode c).isSome ||
  match c.recd.kind with
  | .ve => veCanFire c
  | .sq => sqCanFire c
  | .mx => mxCanFire c
  | .ag => any (agMoves s c)
  | .hd => any (hdMoves s c)
  | .ow => any (owMoves s c)
  | .br => any (brMoves s c)

/-! ## Discards before a SWITCHOVER (R201) -/

/-- A command of a matrix element is open: it ends by itself before a SWITCHOVER (R287). -/
def Ctx.commandOpen (c : Ctx) : Bool :=
  match c.st.op with
  | .mx m => m.cmd.isSome
  | _ => false

/-- A controller can consume the head of port 0 without port 1 (R269). -/
def Ctx.ctlTakesA (c : Ctx) (out : W32) (drain : Bool) : Bool :=
  match c.headKind 0 with
  | some .data => !drain && decide (out.toNat < c.permitDepth)
  | some .stop => !drain
  | some .mode => true
  | _ => false

/-- The ports the next firing cannot do without (R201): those of its need set; a controller that cannot take its port 0 by
itself needs both. -/
def Ctx.switchNeeds (c : Ctx) : List Nat :=
  match c.st.op with
  | .ctl out drain => if c.ctlTakesA out drain then [0] else [0, 1]
  | _ => c.needs.1

/-- The head of a port is discarded (R201): it is no SWITCHOVER, and the next firing needs a port that SWITCHOVER heads. At
port 1 of a controller nothing is: it consumes there by itself. -/
def switchoverDrop (c : Ctx) (port : Nat) : Option Ctx :=
  let alone := port == 1 && (match c.st.op with
    | .ctl _ _ => true
    | _ => false)
  let blocked := !alone && c.switchNeeds.any (fun q => q != port && c.headKind q == some .switchover)
  match c.head port with
  | some t => if blocked && t.kind != .switchover && !c.commandOpen then some (c.drop port) else none
  | none => none

/-- SWITCHOVER_DISCARD (R201). -/
def execSwitchoverDiscard (region site port : Nat) (s : State) : Out :=
  orStay s ((ctxOf s region site).bind (fun c => (switchoverDrop c port).map (fun c' => c'.back s)))

/-! ## Adoption (R196, R197, R200, R262) -/

/-- What an element has begun and must finish before it adopts. -/
def elementOwes (c : Ctx) : Bool :=
  match c.recd.kind with
  | .ve => veOwes c
  | .sq => match c.st.op with
    | .loop run _ => run.isSome
    | _ => false
  | .mx => c.commandOpen
  | .ag => agOwes c
  | .hd => hdOwes c
  | .ow => owOwes c
  | .br => brOwes c

/-- A site's next record is loaded and its instance is LIVE (R200). -/
def Region.canAdopt (x : Region) (t : Site) : Bool :=
  match t.next with
  | some n => (x.held n.cseq).any (fun e => e.state == .live)
  | none => false

/-- The site under its next record, with everything that adoption resets (R200, R215, R295). -/
def Site.adopt (t : Site) : Site :=
  match t.next with
  | none => t
  | some n =>
    let base : Site :=
      { t with
        active := some n, next := none, stalls := Vector.replicate 6 0#32, stalled := false
        agent := { Agent.init with nextId := t.agent.nextId }
        deliv := t.deliv.filter (fun d => decide (n.cseq ≤ d.1)), srcEnd := false, fired := 0, op := .none
        frame := Vector.replicate 2 0, frameIn := Vector.replicate 4 0 }
    match n.recd with
    | none => base
    | some q => { base with mode := q.mode0, lfsr := lfsrLoad q.seed n.copy, op := opInit q }

/-- The stall episode that a copy counts when it has just adopted and cannot fire (R215, R229). -/
def State.adoptCount (s : State) (r site : Nat) : State :=
  match copyCtx s r site with
  | none => s
  | some (c, k) => (c.count k).back s

/-- SWITCHOVER stands wherever the element must see it (R200): at every consumed port, or, at a source whose stream has
ended, among what the sequencer has delivered. -/
def switchoverSeen (c : Ctx) : Option Token :=
  if c.recd.inMask = 0 then
    let ended := if c.recd.isOp .br 2 then erespEnded c else c.st.srcEnd
    if ended then c.delivered.filter (fun t => t.kind == .switchover) else none
  else
    let hs := c.ports.filterMap c.head
    if hs.length = c.ports.length ∧ hs.all (fun t => t.kind == .switchover) then hs.head? else none

/-- An element that runs a record adopts (R200): it consumes SWITCHOVER and emits it, and its copies' sites go on with it. -/
def adoptRunning (s : State) (c : Ctx) : Option State :=
  match switchoverSeen c with
  | none => none
  | some t =>
    let sites := c.copies.map c.copySite
    if elementOwes c || !c.roomAll || !c.whole || !sites.all (fun n => c.x.canAdopt (if n = c.site then c.st else c.x.site n)) then none
    else
      let c1 := if c.recd.kind = .ve then c.discard (veDiscards c) else c
      let c2 := (c1.takeAll c1.ports).emitAll t
      let x := c2.x.setSite c2.site c2.st
      let x1 := sites.foldl (fun x n => x.setSite n (x.site n).adopt) x
      some (s.setRegion c.r x1)

/-- An instance that every element and port has left without an exit sends a swept exit, once no exit stands before it
(R203). -/
def Region.sweep (x : Region) : Region := if (x.portHead 15).isSome then x else x.exitArrive

/-- The sites of the element that runs at a site. -/
def Site.sites (t : Site) (site : Nat) : List Nat :=
  match t.active.bind (fun l => l.recd) with
  | none => [site]
  | some q => if q.copies = 1 then [site] else site :: q.sites.filter (fun n => n != site)

/-- A site adopts (R196, R197, R200). -/
def adoptSite (s : State) (r site : Nat) : Option State :=
  let x := s.region r
  let t := x.site site
  if !s.runs r || t.frozen then none
  else
    let moved :=
      if t.busy then (ctxOf s r site).bind (fun c => adoptRunning s c)
      else if x.canAdopt t then some (s.setRegion r (x.setSite site t.adopt))
      else none
    let l := if t.busy then t.sites site else [site]
    moved.map (fun s1 => l.foldl (fun s n => s.adoptCount r n) (s1.setRegion r (s1.region r).sweep))

/-- ELEMENT_ADOPT (R200). -/
def execElementAdopt (region site : Nat) (s : State) : Out := orStay s (adoptSite s region site)

/-! ## Freezing (R421 to R423) -/

/-- A COMMA stands at a site: on an arc that ends there, or delivered to it as a source (R421, R422). -/
def Region.commaAt (x : Region) (site : Nat) : Bool :=
  (x.site site).deliv.any (fun d => d.2.kind == .comma) ||
  x.committed.any (fun e => e.cfg.arcs.zipIdx.any (fun a => !a.1.cseq && a.1.csite == site && (x.arc e.cseq a.2).comma))

/-- A copy's read waits on an EMPTY granule. -/
def State.isDeferred (s : State) (a : Access) : Bool := s.ports.reads.any (fun r => r.reader == a.reader && r.answer.isNone)

/-- A read that a copy of an element posted. -/
def Reader.isOf (r site : Nat) : Reader → Bool
  | .elem r' site' _ => r' == r && site' == site
  | _ => false

/-- A frozen copy's deferred loads go back to its replay buffer, and its unanswered reads are withdrawn (R423). -/
def quiesceSite (s : State) (r site : Nat) : State :=
  let back := (s.pendingOf r site).filter s.isDeferred
  let p : Ports :=
    { s.ports with
      pend := s.ports.pend.filter (fun a => !back.contains a)
      reads := s.ports.reads.filter (fun x => x.answer.isSome || !x.reader.isOf r site) }
  let t := (s.region r).site site
  let g := { t.agent with replay := back.foldl (fun l a => holdAccess l { a with place := none }) t.agent.replay }
  { s with ports := p }.setRegion r ((s.region r).setSite site { t with agent := g })

/-- The elements whose record names a site freeze with their copies, and COMMA goes out (R422): a copy that has adopted ahead
of copy 0 freezes with what runs at copy 0's site. -/
def freezeElement (s : State) (r site : Nat) : Option State :=
  let x := s.region r
  let l := x.membersOf site
  if l.isEmpty || !x.commaAt site then none
  else some (l.foldl (fun s n => quiesceSite s r n) (s.setRegion r ((x.freeze l).commaFrom site)))

/-- ELEMENT_FREEZE (R422). -/
def execElementFreeze (region site : Nat) (s : State) : Out := orStay s (freezeElement s region site)

end Sys2Proof.Machine
end

