-- ==== Sys2Proof/Machine/Pacing.lean ====
section
/-! DEFINITION. Pacing groups (R401 to R403): the descriptors in the management core's SRAM, their phases, and the meter step
they request. -/

namespace Sys2Proof.Machine

/-- The phase heard from a member (R402). -/
def State.heardFrom (s : State) (i m : Nat) : Nat := (Table.get s.pow.heard (i * 1024 + m) 0#64).toNat

/-- MINPH formed afresh (R402). -/
def State.setMinph (s : State) (i : Nat) : State :=
  let others := (s.paceSet i).filter (fun m => m != s.member)
  s.setSram (paceAt i + 16) 8 ((others.map (s.heardFrom i)).foldl min (s.pacePhase i))

/-- PHASE of a descriptor changes, and every other member of its SET is sent it (R402). -/
def State.raisePhase (s : State) (i : Nat) : State :=
  let n := (s.pacePhase i + 1) % 2 ^ 64
  let s1 := (s.setSram (paceAt i + 8) 8 n).setMinph i
  s1.sendPhase i n

/-- A collective has ended at this member (R402). -/
def State.advancePhase (s : State) (asid : Nat) (group : List Nat) : State :=
  (s.paceLive.filter (fun i => s.paceAsid i == asid && s.paceSet i == sortBy id group)).foldl State.raisePhase s

/-- The step that pacing requests of a region's quadrants (R403). -/
def State.paceOf (s : State) (r : Nat) : Nat :=
  match (s.clusterOf r).bind s.cluster? with
  | none => 0
  | some k =>
    (s.paceLive.filter (fun i => s.paceAsid i == k.asid)).foldl (fun m i =>
      let step := s.sramNat (paceAt i + 1) 1
      let lead := s.sramNat (paceAt i + 2) 1
      let lag := s.pacePhase i - s.sramNat (paceAt i + 16) 8
      max m (if lag < lead then step else min 15 (step + 4 * (lag - lead + 1)))) 0

/-- PHASE_MESSAGE (R402): a member's phase is heard by the descriptor that governs its tag. -/
def execPhaseMessage (member gtag : Nat) (phase : W64) (s : State) : Out :=
  let s0 := s.stepIv member false
  .next (match s0.paceLive.find? (fun i => s0.paceTag i == gtag && (s0.paceSet i).contains member) with
    | none => s0
    | some i =>
      ({ s0 with pow := { s0.pow with heard := Table.put s0.pow.heard (i * 1024 + member) phase } }).setMinph i)

/-- PACING_DESCRIPTOR_VALID (R401): the firmware sets V on a descriptor that had it clear. -/
def execPacingDescriptorValid (idx : Nat) (s : State) : Out :=
  .next (if idx < 16 ∧ s.sramNat (paceAt idx) 1 % 2 = 0 then
    (s.setSram (paceAt idx) 1 (s.sramNat (paceAt idx) 1 + 1)).clearPhases idx
  else s)

end Sys2Proof.Machine
end

