-- ==== Sys2Proof/Machine/Engines.lean ====
section
/-! DEFINITION. What the engines do (R345, R347 to R352): each event of an engine is one access of one of its commands, a
granule read or a granule written, or its end. -/

namespace Sys2Proof.Machine

/-! ## One command -/

/-- A command of an engine written back. -/
def State.setCmd (s : State) (e : Nat) (c : Cmd) : State :=
  s.setQueue e ((s.queueOf e).map (fun x => if x.issuer = c.issuer ∧ x.n = c.n then c else x))

/-- A command removed. -/
def State.dropCmd (s : State) (e : Nat) (c : Cmd) : State :=
  (s.setQueue e ((s.queueOf e).filter (fun x => !(x.issuer == c.issuer && x.n == c.n)))).dropReads
    (fun r => r == .engine e c.issuer c.n)

/-- The management core issued the command (R405). -/
def issuerMc : Issuer → Bool
  | .core .mc => true
  | _ => false

/-- The region of a command's issuer. -/
def issuerRegion : Issuer → Nat
  | .core (.seq r) => r
  | .core .mc => 0
  | .ereq r _ => r

/-- The command can move: it is its issuer's first at the engine, has not ended and is not parked (R341, R352). -/
def canMove (q : List Cmd) (c : Cmd) : Bool :=
  c.ended.isNone && (c.park == .running || c.park == .replaying) &&
  ((q.find? (fun x => x.issuer == c.issuer)).map Cmd.n == some c.n)

/-- A command parks at an access (R352, R407); one of the management core ends ABORTED (R405). -/
def cmdPark (s : State) (e : Nat) (c : Cmd) (cls : Nat) (acc : Acc) (sp gst : Nat) (addr : Nat) : State :=
  if (issuerMc c.issuer) then s.setCmd e { c with ended := some 1 }
  else
    let space : Space := if sp = 1 then .island else .virt
    let cidx := ((c.cluster.bind s.cluster?).map (fun k : Cluster => k.indexOf (issuerRegion c.issuer))).getD 0
    (s.setCmd e { c with park := .parking }).queueFault c.asid
      { agent := .engine e c.issuer c.n, cluster := c.cluster.getD 0, cls := cls, who := e, cidx := cidx,
        acc := accField acc space gst, cfgid := 0, addr := addr,
        j := [c.n, BitVec.ofNat 32 c.phase, BitVec.ofNat 32 c.granules, 0#32, 0#32], errrec := 0#32 }

/-- A fatal fault met by a command's access (R404). -/
def cmdFatal (s : State) (e : Nat) (c : Cmd) (cls : Nat) : State :=
  match c.cluster with
  | none => s
  | some k => (s.setCmd e { c with park := .stopped }).fatalFault k cls (issuerRegion c.issuer) noSite

/-- The reads a command of an engine posts. -/
def Cmd.reader (c : Cmd) (e : Nat) : Reader := .engine e c.issuer c.n

/-- Where an access of a command goes (R341): its issuer's address space, or its cluster's partition. A read that stands
deferred keeps its place (R152). -/
def State.cmdResolve (s : State) (e : Nat) (c : Cmd) (sp a : Nat) (acc : Acc) : State × Resolve :=
  if sp = 1 then
    match c.cluster.bind s.cluster? with
    | some k => s.resolveIn k 0 .island a acc
    | none => (s, .fault clsBounds)
  else if acc = .read then s.translateRead (c.reader e) c.asid a acc
  else s.translate c.asid a acc

/-- A command reads a source granule (R351, R352): an EMPTY one defers the read, a VOID one ends the command with
VOID_READ. -/
def cmdRead (s : State) (e : Nat) (c : Cmd) (a : Nat) (go : List Byte → Cmd) : Option State :=
  let sp := c.blk.sspc
  let rd : Reader := c.reader e
  match s.cmdResolve e c sp a .read with
  | (s1, .fault cls) => some (cmdPark s1 e c cls .read sp 0 a)
  | (s1, .protect) => some (cmdFatal s1 e c 0x11)
  | (s1, .ok p sa) =>
    if s1.eccAt p && !(issuerMc c.issuer) then some (cmdFatal s1 e c 0x10)
    else
      match s1.loadAt rd c.asid p sa 64 (if sp = 1 then none else some a) with
      | (s2, .wait) => if s2.ports.reads.length = s.ports.reads.length then none else some s2
      | (s2, .void) => some (s2.setCmd e { c with ended := some 2 })
      | (s2, .ok bs) =>
        some (((s2.dropReads (fun r => r == rd)).charge c.cluster p).setCmd e { go bs with park := .running })

/-- A command writes a destination granule (R351, R352). -/
def cmdWrite (s : State) (e : Nat) (c : Cmd) (a : Nat) (bs : List Byte) (next : Cmd) : Option State :=
  let sp := c.blk.dspc
  match s.cmdResolve e c sp a .write with
  | (s1, .fault cls) => some (cmdPark s1 e c cls .write sp 0 a)
  | (s1, .protect) => some (cmdFatal s1 e c 0x11)
  | (s1, .ok p sa) =>
    if s1.eccAt p && !(issuerMc c.issuer) then some (cmdFatal s1 e c 0x10)
    else
      match s1.storeAt c.asid p sa (padTo bs 64) false with
      | .presence g => some (cmdPark s1 e c clsPresence .write sp g.code a)
      | .ok s2 =>
        some ((s2.charge c.cluster p).setCmd e { next with granules := c.granules + 1, park := .running })

/-- An address a stride away, modulo 2^64 (R347). -/
def rowAddr (base : Nat) (i : Nat) (stride : Int) (off : Nat) : Nat := wrapTo ((base : Int) + i * stride + off) 64

/-- The next granule of formed destination bytes is written. -/
def writeOut (s : State) (e : Nat) (c : Cmd) : Option State :=
  cmdWrite s e c c.outAddr (c.outBuf.take 64)
    { c with outBuf := c.outBuf.drop 64, outAddr := (c.outAddr + 64) % 2 ^ 64 }

/-- The next granule of the second array is written. -/
def writeIdx (s : State) (e : Nat) (c : Cmd) : Option State :=
  cmdWrite s e c c.idxAddr (c.idxBuf.take 64)
    { c with idxBuf := c.idxBuf.drop 64, idxAddr := (c.idxAddr + 64) % 2 ^ 64 }

/-- The next granule of the source row is read; `f` is what the whole row makes of the command. -/
def readRow (s : State) (e : Nat) (c : Cmd) (f : Cmd → Cmd) : Option State :=
  cmdRead s e c (rowAddr c.blk.src c.row c.blk.sstr c.buf.length) (fun bs =>
    let c1 := { c with buf := c.buf ++ bs }
    if c1.buf.length < c.blk.srcRow (engineClass e) then c1 else f c1)

/-- Rows that are left to be read. -/
def Cmd.hasRows (c : Cmd) : Bool := decide (c.row < c.blk.rows) && c.blk.rowlen != 0

/-- A command that moves row by row (R347, R348): the row at hand is written before the next is read. -/
def moveRows (f : Cmd → Cmd) (s : State) (e : Nat) (c : Cmd) : Option State :=
  if !c.outBuf.isEmpty then writeOut s e c
  else if c.hasRows then readRow s e c f
  else some (s.setCmd e { c with ended := some 0 })

/-- The first command of an engine of a kind that can make a move makes it. -/
def engineMove (s : State) (e : Nat) (kinds : List Nat) (f : State → Nat → Cmd → Option State) : Option State :=
  let q := s.queueOf e
  (q.filter (fun c => canMove q c && kinds.contains c.blk.kind)).findSome? (f s e)

/-- An engine's event. -/
def engineEvent (s : State) (e : Nat) (k : EClass) (kind : Nat) (f : State → Nat → Cmd → Option State) : Out :=
  .next (if e < 24 ∧ engineClass e = k then (engineMove s e [kind] f).getD s else s)

/-! ## Transfer and conversion (R347 to R349) -/

/-- A row of a COPY is at hand (R347). -/
def copyRow (c : Cmd) : Cmd :=
  { c with outBuf := c.buf, outAddr := rowAddr c.blk.dst c.row c.blk.dstride 0, buf := [], row := c.row + 1 }

/-- TE_COPY (R347). -/
def execTeCopy (e : Nat) (s : State) : Out := engineEvent s e .te 1 (moveRows copyRow)

/-- The elements of a type in bytes. -/
def elementsOf (t : Nat) (bs : List Byte) : List Nat :=
  (List.range (bs.length / typeBytes t)).map (fun i => fieldLe bs (i * typeBytes t) (typeBytes t))

/-- Elements as bytes. -/
def elementBytes (t : Nat) (xs : List Nat) : List Byte := xs.flatMap (fun x => leBytes (typeBytes t) x)

/-- One element converted under a block (R348). -/
def castElement (b : Block) (x : Nat) : LaneOut :=
  convertLane b.stype b.dtype (rmOf b.modeb 0) b.sat (fzoOf b.modeb) 0#32 (laneValue b.stype (fziOf b.modeb) x)

/-- Events counted in the status (R345, R348). -/
def Cmd.counted (c : Cmd) (l : List LaneOut) : Cmd :=
  { c with
    ovf := c.ovf + BitVec.ofNat 32 (l.filter (fun o => o.ev.overflow)).length
    inv := c.inv + BitVec.ofNat 32 (l.filter (fun o => o.ev.invalid)).length }

/-- A row of a CAST is at hand (R348). -/
def castRow (c : Cmd) : Cmd :=
  let l := (elementsOf c.blk.stype c.buf).map (castElement c.blk)
  { copyRow (c.counted l) with outBuf := elementBytes c.blk.dtype (l.map LaneOut.bits) }

/-- CV_CAST (R348). -/
def execCvCast (e : Nat) (s : State) : Out := engineEvent s e .cv 1 (moveRows castRow)

/-- An element is +0 or −0 (R349). -/
def elementZero (t x : Nat) : Bool := if inI t then x == 0 else x % 2 ^ (laneWidth t - 1) == 0

/-- A row of a CSR is at hand (R349): its nonzero elements are packed, none of the excess. -/
def csrRow (c : Cmd) : Cmd :=
  let nz := (elementsOf c.blk.stype c.buf).zipIdx.filter (fun x => !elementZero c.blk.stype x.1)
  let fit := nz.take (c.blk.dstr - c.count)
  let l := fit.map (fun x => castElement c.blk x.1)
  let n := c.count + nz.length
  { c.counted l with
    buf := [], row := c.row + 1, count := n, ptrs := c.ptrs ++ [n]
    outBuf := c.outBuf ++ elementBytes c.blk.dtype (l.map LaneOut.bits)
    idxBuf := c.idxBuf ++ fit.flatMap (fun x => leBytes 4 x.2) }

/-- A command that packs a matrix (R349): full granules of both arrays are written as they form; behind the last row the
padded ones; then the row pointers. -/
def packRows (s : State) (e : Nat) (c : Cmd) : Option State :=
  if c.phase = 2 then (if c.idxBuf.isEmpty then some (s.setCmd e { c with ended := some 0 }) else writeIdx s e c)
  else if 64 ≤ c.outBuf.length then writeOut s e c
  else if 64 ≤ c.idxBuf.length then writeIdx s e c
  else if c.hasRows && decide (c.count ≤ c.blk.dstr) then readRow s e c csrRow
  else if !c.outBuf.isEmpty then writeOut s e c
  else if !c.idxBuf.isEmpty then writeIdx s e c
  else if c.blk.dstr < c.count then some (s.setCmd e { c with ended := some 3 })
  else
    let ptrs := c.ptrs ++ List.replicate (c.blk.rows + 1 - c.ptrs.length) c.count
    writeIdx s e { c with phase := 2, idxBuf := ptrs.flatMap (leBytes 4), idxAddr := c.blk.aux2 }

/-- CV_CSR (R349). -/
def execCvCsr (e : Nat) (s : State) : Out := engineEvent s e .cv 2 packRows

/-! ## Collectives (R350) -/

/-- The reduction of one element over the ranks, rank 0's first (R350): a floating-point sum is formed in FP32 under RNE
and rounded once. -/
def reduceElement (b : Block) (xs : List Nat) : LaneOut :=
  let vs := xs.map (laneValue b.stype (fziOf b.modeb))
  match vs with
  | [] => { bits := 0, ev := Ev.none, lfsr := 0#32 }
  | v :: rest =>
    if b.red = 0 then
      if inI b.stype then
        intLane b.dtype false (rest.foldl (fun t x => t + x.toInt) v.toInt) 0#32
      else
        let (t, ev) := rest.foldl (fun p x => ((add32 p.1 x).1, p.2.or (add32 p.1 x).2)) (v, Ev.none)
        let o := numericLane b.dtype (rmOf b.modeb 0) false (fzoOf b.modeb) true 0#32 t
        { o with ev := o.ev.or ev }
    else
      exactLane b.dtype false (fzoOf b.modeb) 0#32
        (rest.foldl (fun t x => if b.red = 1 then t.max2 x else t.min2 x) v)

/-- Every element reduced over the ranks (R350). -/
def reduceAll (b : Block) (parts : List (List Byte)) : List LaneOut :=
  let xs := (parts.map (fun p => (elementsOf b.stype p).toArray))
  (List.range (b.rows * b.rowlen)).map (fun i => reduceElement b (xs.map (fun x => x.getD i 0)))

/-- The rank of this member in a command's group (R350). -/
def State.rankOf (s : State) (c : Cmd) : Nat := (indexOf? c.group s.member).getD 0

/-- What a collective leaves at this member, with the lanes it formed (R350); `parts` holds every member's source. -/
def collectResult (s : State) (c : Cmd) (parts : List (List Byte)) : List Byte × List LaneOut :=
  let b := c.blk
  match b.kind with
  | 1 =>
    let l := reduceAll b parts
    (elementBytes b.dtype (l.map LaneOut.bits), l)
  | 2 =>
    let n := b.rows / c.group.length * b.rowlen
    let l := ((reduceAll b parts).drop (s.rankOf c * n)).take n
    (elementBytes b.dtype (l.map LaneOut.bits), l)
  | 3 => (parts.flatten, [])
  | _ => (parts.getD b.aux2 [], [])

/-- This member brings its source to the collective: a broadcast has the root's alone (R350). -/
def State.brings (s : State) (c : Cmd) : Bool := c.blk.kind != 4 || s.rankOf c == c.blk.aux2

/-- The members' sources by rank, each its whole size, this member's own as it read it. -/
def State.partsOf (s : State) (c : Cmd) (others : List (List Byte)) : List (List Byte) :=
  let n := c.blk.rows * c.blk.srcRow .cl
  (List.range c.group.length).map (fun r => if r = s.rankOf c ∧ s.brings c then c.buf else slice (others.getD r []) 0 n)

/-- The granules that reach this member over Lotar links in a collective whose result here is `n` bytes: of each other member's
source, what the result is formed from (R350, R460; log entry 47). -/
def State.linkGranules (s : State) (c : Cmd) (n : Nat) : Nat :=
  let g := c.group.length
  match c.blk.kind with
  | 1 => (g - 1) * ((n + 63) / 64)
  | 2 => (g - 1) * ((n + 63) / 64)
  | 3 => (g - 1) * ((n / g + 63) / 64)
  | _ => if s.brings c then 0 else (n + 63) / 64

/-- A collective (R350): this member's source is read, the members' sources make the result, and it is written. A mismatch
and a member that ended early end it before the result is formed. The granules that crossed a link are charged (R460). -/
def collect (peers : PeerParts) (s : State) (e : Nat) (c : Cmd) : Option State :=
  if c.formed then
    if c.outBuf.isEmpty then some (s.setCmd e { c with ended := some 0 }) else writeOut s e c
  else
    match peers with
    | .mismatch => some (s.setCmd e { c with ended := some 4 })
    | .ended => some (s.setCmd e { c with ended := some 5 })
    | .parts others =>
      let row := c.blk.srcRow .cl
      if s.brings c && decide (c.buf.length < c.blk.rows * row) then
        cmdRead s e c (rowAddr c.blk.src (c.buf.length / row) c.blk.sstr (c.buf.length % row)) (fun bs =>
          { c with buf := c.buf ++ bs, row := (c.buf.length + 64) / row })
      else
        let (out, l) := collectResult s c (s.partsOf c others)
        some ((s.setCmd e { c.counted l with formed := true, outBuf := out, outAddr := c.blk.dst }).pay c.cluster
          (3 * s.linkGranules c out.length))

/-- CL_ALLREDUCE (R350). -/
def execClAllreduce (e : Nat) (peers : PeerParts) (s : State) : Out := engineEvent s e .cl 1 (collect peers)
/-- CL_REDSCAT (R350). -/
def execClRedscat (e : Nat) (peers : PeerParts) (s : State) : Out := engineEvent s e .cl 2 (collect peers)
/-- CL_ALLGATHER (R350). -/
def execClAllgather (e : Nat) (peers : PeerParts) (s : State) : Out := engineEvent s e .cl 3 (collect peers)
/-- CL_BCAST (R350). -/
def execClBcast (e : Nat) (peers : PeerParts) (s : State) : Out := engineEvent s e .cl 4 (collect peers)

/-! ## Endings (R345) -/

/-- The addresses of `n` granules from an address on. -/
def granulesFrom (a n : Nat) : List Nat := (List.range n).map (fun i => (a + 64 * i) % 2 ^ 64)

/-- Granules from `a` to the end of an array of `n` bytes that begins at `base`. -/
def restOf (base a n : Nat) : List Nat := granulesFrom a ((n + 63) / 64 - (a - base) / 64)

/-- The destination granules of a command that are not written (R345). The arrays of a CSR reach to its capacity while the
first phase lasts, and to what was packed afterwards. -/
def unwritten (e : Nat) (c : Cmd) : List Nat :=
  let k := engineClass e
  let b := c.blk
  if b.isCsr k then
    let cap := min b.dstr (b.rows * b.rowlen)
    if c.phase = 1 then
      restOf b.dst c.outAddr (cap * typeBytes b.dtype) ++ restOf b.aux c.idxAddr (cap * 4) ++ restOf b.aux2 b.aux2 (4 * (b.rows + 1))
    else restOf b.aux2 c.idxAddr (4 * (b.rows + 1))
  else
    let per := b.dstRow k / 64
    let total := b.dstRows k c.group.length * per
    (List.range (total - c.granules)).map (fun i =>
      let g := c.granules + i
      if k = .cl then (b.dst + 64 * g) % 2 ^ 64 else rowAddr b.dst (g / per) b.dstride (g % per * 64))

/-- Granules of single-assignment memory become VOID, whatever the page's W bit (R345, R352); the status cell is none of
them. -/
def voidUnwritten (s : State) (e : Nat) (c : Cmd) : List Nat → State
  | [] => s
  | a :: rest =>
    let s1 := if c.blk.status ≠ 0 ∧ c.blk.dspc = 2 ∧ a = c.blk.status then s
      else
        match s.cmdResolve e c c.blk.dspc a .presence with
        | (s1, .ok p true) => s1.voidGranule p
        | (s1, _) => s1
    voidUnwritten s1 e c rest

/-- The count of a status cell (R345): entries for CSR, bytes for TE, elements for CAST and collectives. -/
def Cmd.done (e : Nat) (c : Cmd) : Nat :=
  match engineClass e with
  | .te => 64 * c.granules
  | .cv => if c.blk.kind = 2 then min c.count c.blk.dstr else 64 * c.granules / typeBytes c.blk.dtype
  | .cl => 64 * c.granules / typeBytes c.blk.dtype

/-- Bytes 0 to 23 of the status cell (R345). -/
def statusBytes (e : Nat) (c : Cmd) (st : Nat) : List Byte :=
  leBytes 8 st ++ leBytes 8 (c.done e) ++ leBytes 4 c.ovf.toNat ++ leBytes 4 c.inv.toNat

/-- A command's answer takes its place at the ERESP (R354). -/
def State.answerEreq (s : State) (r site : Nat) (n : W32) (payload : Beat) : State :=
  let x := s.region r
  s.setRegion r { x with sites := x.sites.map (fun t => (t.1, match t.2.op with
    | .br l => { t.2 with op := .br (l.map (fun i => match i with
        | .cmd q m sc => if q = site ∧ m = n then .answer payload else .cmd q m sc
        | i => i)) }
    | _ => t.2)) }

/-- A command is over: it leaves its engine, its issuer hears of it (R345, R354), and a collective advances the phase of
its pacing group (R402). -/
def cmdGone (s : State) (e : Nat) (c : Cmd) (st : Nat) : State :=
  let s1 := s.dropCmd e c
  let s2 := match c.issuer with
    | .core q => s1.raiseEvent q 2
    | .ereq r site => s1.answerEreq r site c.n (beatOf (padTo (statusBytes e c st) 64))
  if engineClass e = .cl then s2.advancePhase c.asid c.group else s2

/-- A command that has ended voids what it did not write, writes its status cell and goes (R345); `park` is what becomes of
it when its status cell cannot be written, by the class and the granule's presence. -/
def cmdEndOr (s : State) (e : Nat) (c : Cmd) (st : Nat) (park : State → Nat → Nat → State) : State :=
  let s0 := if st = 0 then s else voidUnwritten s e c (unwritten e c)
  if c.blk.status = 0 then cmdGone s0 e c st
  else
    let a := c.blk.status
    match s0.translate c.asid a .write with
    | (s1, .fault cls) => park s1 cls 0
    | (s1, .protect) => cmdFatal s1 e c 0x11
    | (s1, .ok p sa) =>
      if s1.eccAt p && !(issuerMc c.issuer) then cmdFatal s1 e c 0x10
      else
        match s1.storeAt c.asid p sa (padTo (statusBytes e c st) 64) false with
        | .presence g => park s1 clsPresence g.code
        | .ok s2 => cmdGone (s2.charge c.cluster p) e c st

/-- A command that has ended goes (R345). A status cell that cannot be written parks it (R352); a command of the management
core then goes without. -/
def cmdEnd (s : State) (e : Nat) (c : Cmd) (st : Nat) : State :=
  cmdEndOr s e c st (fun s cls gst =>
    if issuerMc c.issuer then cmdGone s e c st else cmdPark s e c cls .write 2 gst c.blk.status)

/-- The first ended command of an engine that stands first of its issuer. -/
def State.endedCmd (s : State) (e : Nat) : Option (Cmd × Nat) :=
  let q := s.queueOf e
  q.findSome? (fun c =>
    match c.ended with
    | some st =>
      if (c.park == .running || c.park == .replaying) && (q.find? (fun x => x.issuer == c.issuer)).map Cmd.n == some c.n then
        some (c, st) else none
    | none => none)

/-- ENGINE_COMMAND_END (R345). -/
def execEngineCommandEnd (e : Nat) (s : State) : Out :=
  .next (match s.endedCmd e with
    | none => s
    | some (c, st) => cmdEnd s e c st)

/-- A command ends ABORTED at once: it writes its status cell, or goes without it where that cannot be written (R345,
R352). -/
def cmdAborted (s : State) (e : Nat) (c : Cmd) : State :=
  let c1 := { c with park := .running, ended := some 1 }
  cmdEndOr (s.setCmd e c1) e c1 1 (fun s _ _ => cmdGone s e c1 1)

/-- An ABORT ends a command ABORTED (R352): one parked at its status write ends at once. -/
def cmdAbort (s : State) (e : Nat) (c : Cmd) : State :=
  if c.ended.isSome then cmdAborted s e c else s.setCmd e { c with park := .running, ended := some 1 }

end Sys2Proof.Machine
end

