-- ==== Sys2Proof/Machine/Ports.lean ====
section
/-! DEFINITION. The commands of the control ports (R103 to R110, R138, R146, R147, R152): each event serves the command cell
that a port's chain waits on. -/

namespace Sys2Proof.Machine

/-! ## Command cells (R103, R106) -/

/-- A command cell as the chain has read it. -/
structure Command where
  opc : Nat
  sem : Nat
  next : W64
  reply : W64
  args : List Byte
  /-- Its opcode is known, its reserved bytes are zero and its addresses aligned. -/
  sound : Bool
  deriving DecidableEq, Repr

/-- A command cell from its 64 bytes. -/
def commandOf (b : List Byte) : Command :=
  let opc := fieldLe b 0 2
  { opc := opc, sem := fieldLe b 2 1, next := BitVec.ofNat 64 (fieldLe b 8 8), reply := BitVec.ofNat 64 (fieldLe b 16 8),
    args := slice b 24 40,
    sound := decide (1 ≤ opc ∧ opc ≤ 8) && fieldLe b 3 5 == 0 && fieldLe b 8 8 % 64 == 0 && fieldLe b 16 8 % 64 == 0 }

/-- The other port. -/
def otherPort : PortId → PortId
  | .a => .b
  | .b => .a

/-- The command at the head of a port's chain, once its cell is FULL and no acquire of the port waits. -/
def State.commandAt (s : State) (p : PortId) : Option Command :=
  match (s.port p).cmd, (s.port p).acq with
  | some a, none => (s.cellBytes (.command p) a.toNat 1).map commandOf
  | _, _ => none

/-- The command a port may have served now: the two chains are taken round-robin (R30). -/
def State.servableCommand (s : State) (p : PortId) : Option Command :=
  if s.disp.cmdTurn = p ∨ (s.commandAt (otherPort p)).isNone then s.commandAt p else none

/-- A port's command has been served, or waits: the other port's chain is next. -/
def State.passCommand (s : State) (p : PortId) : State := { s with disp := { s.disp with cmdTurn := otherPort p } }

/-- The status codes of R106. -/
def stOk : Nat := 0
def stNotHeld : Nat := 1
def stAlreadyHeld : Nat := 2
def stBadIndex : Nat := 3
def stBadField : Nat := 4
def stInUse : Nat := 5

/-- What a command does: it is answered with a status over a state, or waits. -/
inductive CmdRes where
  | answer (st : Nat) (s : State)
  | wait (s : State)

/-- The first failing status of a list of checks, in the order of R106. -/
def firstStatus : List (Bool × Nat) → Option Nat
  | [] => none
  | (b, st) :: t => if b then some st else firstStatus t

/-- A command's checks, then what it does (R106). -/
def checked (s : State) (checks : List (Bool × Nat)) (go : Unit → CmdRes) : CmdRes :=
  match firstStatus checks with
  | some st => .answer st s
  | none => go ()

/-- The command event of an opcode (R103), in the port's turn: it serves a cell of its opcode, and answers one that is no sound command with
BAD_FIELD; `f` makes the checks of the command and carries it out. -/
def onCommand (s : State) (p : PortId) (opc : Nat) (sub : Command → Bool) (f : Command → CmdRes) : Out :=
  match s.servableCommand p with
  | none => .next s
  | some c =>
    if !c.sound then .next (((s.reply c.reply stBadField).advanceCommand p c.next).passCommand p)
    else if c.opc = opc ∧ sub c then
      match f c with
      | .answer st s1 => .next (((s1.reply c.reply st).advanceCommand p c.next).passCommand p)
      | .wait s1 => .next (s1.passCommand p)
    else .next s

/-- The SEM field is out of its range (R103, R106). -/
def Command.badSem (c : Command) : Bool := decide (63 < c.sem)

/-- The operands from an offset on hold a nonzero byte that the command does not name (R104). -/
def Command.unnamed (c : Command) (off n : Nat) : Bool := fieldLe c.args off n != 0

/-- A port holds a semaphore. -/
def State.portHolds (s : State) (p : PortId) (n : Nat) : Bool := (s.sem n).heldBy (portHolder p)

/-- Every form of a command. -/
def anyForm (_ : Command) : Bool := true

/-! ## Semaphores (R108, R109) -/

/-- SEM_ACQ (R108): granted at once when free; else the reply waits for the grant. -/
def execSemAcq (port : PortId) (s : State) : Out :=
  onCommand s port 1 anyForm (fun c =>
    checked s [(c.unnamed 0 40, stBadField), (c.badSem, stBadIndex), (s.portHolds port c.sem, stAlreadyHeld)] (fun _ =>
      let x := s.sem c.sem
      if x.holder = 0x1FF then .answer stOk (s.setSem c.sem { x with holder := portHolder port })
      else
        .wait ((s.setSem c.sem { x with waiters := x.waiters ++ [portHolder port] }).setPort port
          { s.port port with acq := some { sem := c.sem, reply := c.reply, next := c.next } })))

/-- SEM_REL (R104, R108). -/
def execSemRel (port : PortId) (s : State) : Out :=
  onCommand s port 2 anyForm (fun c =>
    checked s [(c.unnamed 0 40, stBadField), (c.badSem, stBadIndex), (!s.portHolds port c.sem, stNotHeld)]
      (fun _ => .answer stOk (s.releaseSem c.sem (portHolder port))))

/-! ## Sessions and captures that end (R109, R134, R135) -/

/-- The captures of an ASID's items are discarded on every chain (R135). -/
def State.dropCaptures (s : State) (asid : Nat) : State :=
  let drop (c : Chain) : Chain := if (c.capture.bind Capture.asid) = some asid then { c with capture := none } else c
  { s with disp := { s.disp with chainA := drop s.disp.chainA, chainB := drop s.disp.chainB, chainMc := drop s.disp.chainMc } }

/-- The state with an address space written. -/
def State.setAspace (s : State) (asid : Nat) (a : Aspace) : State :=
  { s with disp := { s.disp with aspaces := Table.put s.disp.aspaces asid a } }

/-- An ASID's session ends, and the captures it allowed go with it (R134, R135). -/
def State.endSession (s : State) (asid : Nat) : State :=
  match s.aspace? asid with
  | none => s
  | some a => (s.setAspace asid { a with session := none }).dropCaptures asid

/-- PORT_RESET (R109, R134): every semaphore of the port is released, and its sessions end. -/
def execPortReset (port : PortId) (s : State) : Out :=
  onCommand s port 7 anyForm (fun c =>
    checked s [(c.unnamed 0 40, stBadField), (c.badSem, stBadIndex)] (fun _ =>
      let l := (s.disp.aspaces.filter (fun a => a.2.session == some port)).map Prod.fst
      .answer stOk (l.foldl State.endSession (s.releaseAll (portHolder port)))))

/-! ## Caravans (R110) -/

/-- A caravan's table entry. -/
def Caravan.init : Caravan :=
  { state := .unreg, asid := 0, pfloor := 0, head := 0#64, recd := none, seen := [], header := none, configs := [] }
def State.caravan (s : State) (c : Nat) : Caravan := Table.get s.disp.caravans c Caravan.init

/-- The state with a caravan's entry written; an unregistered one is not listed. -/
def State.setCaravan (s : State) (c : Nat) (x : Caravan) : State :=
  { s with disp := { s.disp with
    caravans := if x.state = .unreg then Table.del s.disp.caravans c else Table.put s.disp.caravans c x } }

/-- The granule an address names through an ASID, when its page is single-assignment: where the dispatcher posts its reads
(R110, R114). -/
def State.saPlace (s : State) (asid va : Nat) : State × Option Place :=
  match s.translate asid va .read with
  | (s1, .ok p true) => (s1, some p)
  | (s1, _) => (s1, none)

/-- The dispatcher's deferred reads on both granules of a launch cell (R110): none when the cell does not translate to a
single-assignment page. -/
def State.askHead (s : State) (car asid va : Nat) : State × Bool :=
  match s.saPlace asid va with
  | (s1, none) => (s1, false)
  | (s1, some p) =>
    match s1.saPlace asid (va + 64) with
    | (s2, none) => (s2, false)
    | (s2, some q) => ((s2.askCell (.carHead car) p asid).askCell (.carHead car) q asid, true)

/-- The dispatcher's reads for a caravan are withdrawn. -/
def State.dropCaravanReads (s : State) (car : Nat) : State :=
  s.dropReads (fun r => r == .carHead car || r == .dep car || r == .measure car)

/-- CAR_REG (R104, R106, R110). DESIGN CHOICE, log entry 53: of a table command's SEM field only the range is checked, and the
semaphore that must be held is the one of the command's row, whatever SEM names. -/
def execCarReg (port : PortId) (s : State) : Out :=
  onCommand s port 3 anyForm (fun c =>
    let car := fieldLe c.args 0 2
    let asid := fieldLe c.args 2 2
    let pf := fieldLe c.args 4 1
    let cell := fieldLe c.args 8 8
    let set := asid != 0 && (s.aspace? asid).isSome
    let (s1, ok) := if set then s.askHead car asid cell else (s, true)
    checked s
      [(c.unnamed 5 3 || c.unnamed 16 24 || decide (7 < pf) || cell % 128 != 0 || !ok, stBadField),
       (decide (191 < car) || !set || c.badSem, stBadIndex), (!s.portHolds port 1, stNotHeld),
       ((s.caravan car).state != .unreg, stInUse)]
      (fun _ => .answer stOk (s1.setCaravan car
        { Caravan.init with state := .waiting, asid := asid, pfloor := pf, head := BitVec.ofNat 64 cell })))

/-- CAR_UNREG (R104, R106, R110). DESIGN CHOICE, log entry 53: a caravan that is not registered is answered with OK. -/
def execCarUnreg (port : PortId) (s : State) : Out :=
  onCommand s port 4 anyForm (fun c =>
    let car := fieldLe c.args 0 2
    checked s
      [(c.unnamed 2 38, stBadField), (decide (191 < car) || c.badSem, stBadIndex), (!s.portHolds port 1, stNotHeld),
       ((s.caravan car).state == .ready || s.disp.saved.any (fun x => x.cluster.caravan == car), stInUse)]
      (fun _ => .answer stOk ((s.dropCaravanReads car).setCaravan car Caravan.init)))

/-- RES_SET (R104, R138); SEM as for CAR_REG (log entry 53). -/
def execResSet (port : PortId) (s : State) : Out :=
  onCommand s port 6 anyForm (fun c =>
    let r := fieldLe c.args 0 1
    let car := fieldLe c.args 2 2
    checked s
      [(c.unnamed 1 1 || c.unnamed 4 36, stBadField), (decide (127 < r) || (decide (191 < car) && car != 0xFFFF) || c.badSem, stBadIndex),
       (!s.portHolds port 2, stNotHeld)]
      (fun _ => .answer stOk { s with disp := { s.disp with
        reserved := if car = 0xFFFF then Table.del s.disp.reserved r else Table.put s.disp.reserved r car } }))

/-! ## Address spaces (R146, R147, R152) -/

/-- ACT of an AS_SET. -/
def Command.act (c : Command) : Nat := fieldLe c.args 2 1

/-- AS_SET names an act: a form of the command; a reserved act is answered with SET's event. -/
def Command.isAct (n : Nat) (c : Command) : Bool := c.act == n || (n == 0 && decide (2 < c.act))

/-- The checks of an AS_SET (R106, R146, R147); SEM as for CAR_REG (log entry 53). -/
def asChecks (s : State) (p : PortId) (c : Command) : List (Bool × Nat) :=
  let asid := fieldLe c.args 0 2
  let x := fieldLe c.args 8 8
  let y := fieldLe c.args 16 8
  let bad := match c.act with
    | 0 => x % 4096 != 0 || x / 2 ^ 47 != s.member || y % 64 != 0
    | 1 => false
    | 2 => x % 65536 != 0
    | _ => true
  [(c.unnamed 3 5 || c.unnamed 24 16 || decide (4095 < asid) || bad, stBadField), (asid == 0 || c.badSem, stBadIndex),
   (!s.portHolds p 0, stNotHeld)]

/-- An address space as SET creates it (R127, R147, R410). -/
def newAspace (root : Nat) (fq : Nat) (p : PortId) : Aspace :=
  { root := root, winPort := p, logh := 0#384, logn := 0#32, logged := [], kbind := 0#384, kx := 0#512, kp := 0#256,
    ks := 0#384, session := none, counter := none, rbctr := 0#64, fqseq := 0#64, fqNext := fq, fqStuck := false,
    waiting := [], cells := [] }

/-- The invalidation of a range (R152): cached translations go at once; it completes when no access translated there
stands at a port. -/
def invalidate (s : State) (x : InvalRange) (go : State → State) : CmdRes :=
  let s1 := s.discardCached x
  if s1.invalPending x then .wait s1 else .answer stOk (go s1)

/-- AS_SET_SET (R147): a new address space, or a new root and fault queue for one that is set, which is invalidated
whole. -/
def execAsSetSet (port : PortId) (s : State) : Out :=
  onCommand s port 5 (Command.isAct 0) (fun c =>
    checked s (asChecks s port c) (fun _ =>
      let asid := fieldLe c.args 0 2
      let root := fieldLe c.args 8 8
      let fq := fieldLe c.args 16 8
      match s.aspace? asid with
      | none => .answer stOk (s.setAspace asid (newAspace root fq port))
      | some a =>
        invalidate s (invalRange asid 0 0) (fun s1 =>
          (s1.dropReads (fun r => r == .fqLink asid)).setAspace asid
            { a with root := root, winPort := port, fqNext := fq, fqStuck := false })))

/-- A read of an address space's fault queue (R409, R412). -/
def Reader.ofQueue (asid : Nat) : Reader → Bool
  | .fqLink a => a == asid
  | .fqReply a => a == asid
  | .fqTaken a _ => a == asid
  | _ => false

/-- AS_SET_REMOVE (R128, R147). -/
def execAsSetRemove (port : PortId) (s : State) : Out :=
  onCommand s port 5 (Command.isAct 1) (fun c =>
    let asid := fieldLe c.args 0 2
    let used := s.disp.caravans.any (fun x => x.2.asid == asid) || s.disp.clusters.any (fun x => x.2.asid == asid) ||
      s.disp.saved.any (fun x => x.cluster.asid == asid)
    checked s (asChecks s port c ++ [(used, stInUse)]) (fun _ =>
      let s1 := (s.dropReads (Reader.ofQueue asid)).dropCaptures asid
      .answer stOk { s1 with disp := { s1.disp with aspaces := Table.del s1.disp.aspaces asid } }))

/-- AS_SET_INVAL (R152). -/
def execAsSetInval (port : PortId) (s : State) : Out :=
  onCommand s port 5 (Command.isAct 2) (fun c =>
    checked s (asChecks s port c) (fun _ =>
      invalidate s (invalRange (fieldLe c.args 0 2) (fieldLe c.args 8 8) (fieldLe c.args 16 8)) id))

/-! ## CELL_CLR (R105) -/

/-- A granule of address space 0 that CELL_CLR may name (R105, R122). -/
def clearable (va : Nat) : Bool :=
  decide (0x10000 ≤ va ∧ va < 0x1C000) || decide (0x100000 ≤ va ∧ va < 0x200000)

/-- A reader of a chain. -/
def Reader.isChain : Reader → Bool
  | .command _ => true
  | .security _ => true
  | .readback _ => true
  | _ => false

/-- A read of the dispatcher (R110, R113, R126, R409, R412, R414). -/
def Reader.isDispatcher : Reader → Bool
  | .carHead _ => true
  | .dep _ => true
  | .measure _ => true
  | .fqReply _ => true
  | .fqTaken _ _ => true
  | .fqLink _ => true
  | _ => false

/-- A granule holds a read of a chain that has not moved past it, the command being served among them, since its chain moves
on behind its reply (R103), or a deferred read of the dispatcher (R105). -/
def State.readHeld (s : State) (g : Place) : Bool :=
  s.ports.reads.any (fun r => r.place == g.granule &&
    (r.reader.isChain || (r.answer.isNone && r.reader.isDispatcher)))

/-- A granule returns to use: EMPTY, its bytes zero, its mark clear. -/
def State.clearCell (s : State) (va : Nat) : State :=
  match s.as0Place va with
  | some (p, _) => (s.storeBytes 0 p (List.replicate 64 0#8)).clearGranule p
  | none => s

/-- CELL_CLR (R105). -/
def execCellClr (port : PortId) (s : State) : Out :=
  onCommand s port 8 anyForm (fun c =>
    let va := fieldLe c.args 0 8
    let n := fieldLe c.args 8 2
    let l := (List.range n).map (fun i => va + 64 * i)
    let held := l.any (fun a => match s.as0Place a with
      | some (p, _) => s.readHeld p
      | none => false)
    checked s
      [(c.unnamed 10 30 || va % 64 != 0 || n == 0 || decide (1024 < n) || !l.all clearable, stBadField), (c.badSem, stBadIndex),
       (held, stInUse)]
      (fun _ => .answer stOk (l.foldl State.clearCell s)))

end Sys2Proof.Machine
end

