-- ==== Sys2Proof/Machine/Launch.lean ====
section
/-! DEFINITION. Launching (R110 to R114, R117, R118, R126): LAUNCH, the reading of a caravan's head record with its checks,
its dependences, the measurement of its image, and the record of a rejection. -/

namespace Sys2Proof.Machine

/-! ## Completion records (R464, R465) -/

/-- The counts of a record that holds none. -/
def Counts.zero : Counts :=
  { exitLast := 0#64, iters := 0#64, hd := List.replicate 4 0#64, dl := List.replicate 5 0#64, dropmag := 0#32 }

/-- A 64-bit word as bytes. -/
def wordBytes (x : W64) : List Byte := leBytes 8 x.toNat

/-- A completion record (R464). -/
def complBytes (status reason site region cidx asid : Nat) (c : Counts) (energy elapsed : Nat) : List Byte :=
  [BitVec.ofNat 8 status, BitVec.ofNat 8 reason] ++ leBytes 2 site ++ [BitVec.ofNat 8 region, BitVec.ofNat 8 cidx] ++
  leBytes 2 asid ++ wordBytes c.exitLast ++ wordBytes c.iters ++ (c.hd.take 4).flatMap wordBytes ++ leBytes 8 0 ++
  (c.dl.take 5).flatMap wordBytes ++ leBytes 4 c.dropmag.toNat ++ leBytes 4 0 ++ leBytes 8 energy ++ leBytes 8 elapsed

/-- A single-assignment store of the dispatcher through an ASID (R410, R465): whether it was written. -/
def State.saStore (s : State) (asid va : Nat) (bs : List Byte) : State × Bool :=
  match s.translate asid va .write with
  | (s1, .ok p true) =>
    match s1.storeAt asid p true bs false with
    | .ok s2 => (s2, true)
    | .presence _ => (s1, false)
  | (s1, _) => (s1, false)

/-- A completion record is written, granule 1 and then granule 0 (R465): whether it was. -/
def State.writeCompl (s : State) (asid : Nat) (compl : W64) (bs : List Byte) : State × Bool :=
  let a := compl.toNat
  if a % 128 ≠ 0 then (s, false)
  else
    match s.saStore asid (a + 64) (bs.drop 64) with
    | (s1, false) => (s1, false)
    | (s1, true) => s1.saStore asid a (bs.take 64)

/-! ## LAUNCH (R117, R118) -/

/-- A granule of the target cell (R117): it is translated as WRITE and as PRESENCE. -/
def State.launchCell (s : State) (va : Nat) : State × Resolve :=
  match s.translate (s.coreAsid s.cur) va .write with
  | (s1, .ok _ _) => s1.translate (s.coreAsid s.cur) va .presence
  | r => r

/-- LAUNCH (R117, R118). -/
def execLaunch (d a b : SReg) (s : State) : Out :=
  let i : Instr := .launch d a b
  let sa := s.me.reg a
  let sb := s.me.reg b
  let info (g : Nat) : W64 := tinfo 0 g 0 false true 6
  if !aligned sa 64 then trap s i causeMisaligned sa (tinfo 0 0 (s.spaceOf sa) false false 6)
  else if !aligned sb 128 then trap s i causeMisaligned sb (info 0)
  else
    match s.bulkLoad sa 2 [] with
    | (s1, .wait) => .next (s1.uncharged s)
    | (s1, .trap c addr g) => trap s1 i c (BitVec.ofNat 64 addr) (tinfo 0 g (s.spaceOf sa) false false 6)
    | (s1, .fatal c) => coreFatal s1 c
    | (s1, .ok bs) =>
      match s1.launchCell sb.toNat with
      | (s2, .fault c) => trap s2 i (c + 4) sb (info 0)
      | (s2, .protect) => coreFatal s2 0x11
      | (s2, .ok p _) =>
        match s2.launchCell (sb + 64#64).toNat with
        | (s3, .fault c) => trap s3 i (c + 4) (sb + 64#64) (info 0)
        | (s3, .protect) => coreFatal s3 0x11
        | (s3, .ok q _) =>
          if s3.coreEcc p || s3.coreEcc q then coreFatal s3 0x10
          else
            let asid := s.coreAsid s.cur
            match s3.mem.gst p, s3.mem.gst q with
            | .empty, .empty =>
              match s3.storeAt asid q true (bs.drop 64) false with
              | .presence g => trap s3 i causePresence (sb + 64#64) (info g.code)
              | .ok s4 =>
                match s4.storeAt asid p true (bs.take 64) true with
                | .presence g => trap s4 i causePresence sb (info g.code)
                | .ok s5 =>
                  let k := s.coreCluster s.cur
                  done ((s5.charge k p).charge k q) (fun c => c.setReg d (BitVec.ofNat 64 (fieldLe bs 8 8)))
            | .empty, g => trap s3 i causePresence (sb + 64#64) (info g.code)
            | g, _ => trap s3 i causePresence sb (info g.code)

/-! ## The record (R112, R113) -/

/-- A launch record from its 128 bytes (R112). -/
def recordOf (b : List Byte) : LaunchRec :=
  let w (o : Nat) : W64 := BitVec.ofNat 64 (fieldLe b o 8)
  { image := w 0, next := w 8, compl := w 16, asidField := BitVec.ofNat 16 (fieldLe b 24 2), prio := b.getD 26 0#8,
    shape := b.getD 27 0#8, csize := b.getD 28 0#8, rect := b.getD 29 0#8, part := BitVec.ofNat 16 (fieldLe b 30 2),
    ndep := b.getD 32 0#8, deps := [w 40, w 48, w 56, w 64], args := [w 72, w 80, w 88, w 96],
    clean := fieldLe b 33 7 == 0 && fieldLe b 104 24 == 0 }

/-- SHAPE, NOPRE and PREEMPT of a record (R112). -/
def LaunchRec.shapeCode (l : LaunchRec) : Nat := l.shape.toNat % 4
def LaunchRec.noPre (l : LaunchRec) : Bool := l.shape.getLsbD 2
def LaunchRec.preempts (l : LaunchRec) : Bool := l.shape.getLsbD 3

/-- Regions of the cluster, and width and height of a rectangle (R112). -/
def LaunchRec.size (l : LaunchRec) : Nat := l.csize.toNat % 128 + 1
def LaunchRec.width (l : LaunchRec) : Nat := l.rect.toNat % 8 + 1
def LaunchRec.height (l : LaunchRec) : Nat := l.rect.toNat / 8 % 4 + 1

/-- Dependence granules a record names (R112). -/
def LaunchRec.depList (l : LaunchRec) : List Nat := (l.deps.take l.ndep.toNat).map BitVec.toNat

/-- Check 0x01 (R112, R113). -/
def LaunchRec.malformed (l : LaunchRec) : Bool :=
  !l.clean || decide (4096 ≤ l.asidField.toNat) || decide (8 ≤ l.prio.toNat) || decide (16 ≤ l.shape.toNat) ||
  decide (128 ≤ l.csize.toNat) || decide (32 ≤ l.rect.toNat) || (l.shapeCode != 2 && l.rect != 0#8) ||
  l.part.toNat / 2048 % 16 != 0 || l.shapeCode == 3 || decide (4 < l.ndep.toNat) ||
  (l.deps.drop l.ndep.toNat).any (fun d => d != 0#64) || l.deps.any (fun d => d.toNat % 64 != 0) ||
  l.image.toNat % 64 != 0 || l.next.toNat % 128 != 0 || l.compl.toNat % 128 != 0

/-- Check 0x03 (R112, R113). -/
def LaunchRec.misshapen (l : LaunchRec) : Bool :=
  (l.shapeCode == 1 && decide (32 < l.size)) || (l.shapeCode == 2 && l.size != l.width * l.height)

/-- The first of the checks made on reading a record, in the order of R113. -/
def recordFault (c : Nat) (x : Caravan) (l : LaunchRec) (mark : Bool) : Option Nat :=
  if l.malformed then some 0x01
  else if l.asidField.toNat ≠ x.asid then some 0x02
  else if 128 ≤ c ∧ mark = false then some 0x08
  else if l.misshapen then some 0x03
  else if 1024 < l.banks then some 0x05
  else if l.prio.toNat < x.pfloor then some 0x06
  else none

/-! ## A caravan goes on (R110, R113) -/

/-- A caravan leaves its head (R110): it waits at NEXT, has ended at 0, or stalls with an alert. -/
def State.advanceCaravan (s : State) (c : Nat) (next : W64) : State :=
  let x := s.caravan c
  let s1 := s.dropCaravanReads c
  let base : Caravan := { x with recd := none, seen := [], header := none, configs := [] }
  let stall (s : State) : State := (s.setCaravan c { base with state := .stalled, head := next }).notify (.stalled c)
  if next = 0#64 then s1.setCaravan c { base with state := .ended, head := 0#64 }
  else if next.toNat % 128 ≠ 0 then stall s1
  else
    match s1.askHead c x.asid next.toNat with
    | (s2, true) => s2.setCaravan c { base with state := .waiting, head := next }
    | (s2, false) => stall s2

/-- A record is rejected (R113): its completion record, or an alert when it cannot be written; then the caravan advances. -/
def State.rejectLaunch (s : State) (c : Nat) (l : LaunchRec) (reason : Nat) : State :=
  let x := s.caravan c
  let (s1, ok) := s.writeCompl x.asid l.compl (complBytes 1 reason 0x1FF 0xFF 0 x.asid Counts.zero 0 0)
  (if ok then s1 else s1.notify (.recordUnwritable c)).advanceCaravan c l.next

/-- The places of a caravan's reads, in the order they were posted. -/
def State.readsOf (s : State) (r : Reader) : List Read := s.ports.reads.filter (fun x => x.reader == r)

/-- Reads on a record's dependence granules (R113, R114): none when a granule is VOID, unmapped or in an ordinary page. -/
def State.askDeps (s : State) (c asid : Nat) : List Nat → State × Bool
  | [] => (s, true)
  | a :: rest =>
    match s.saPlace asid a with
    | (s1, none) => (s1, false)
    | (s1, some p) => if s1.mem.gst p = .void then (s1, false) else State.askDeps (s1.askCell (.dep c) p asid) c asid rest

/-- LAUNCH_RECORD_READ (R111 to R113): both granules are FULL; the record and its mark are read and checked. -/
def execLaunchRecordRead (caravan : Nat) (s : State) : Out :=
  let x := s.caravan caravan
  match x.state, s.readsOf (.carHead caravan) with
  | .waiting, [r0, r1] =>
    if r0.answer.isSome ∧ r1.answer.isSome ∧ s.mem.gst r0.place = .full ∧ s.mem.gst r1.place = .full then
      let l := recordOf (s.loadBytes x.asid r0.place 64 ++ s.loadBytes x.asid r1.place 64)
      let s0 := s.dropCaravanReads caravan
      match recordFault caravan x l (s.mem.mark r0.place) with
      | some reason => .next (s0.rejectLaunch caravan l reason)
      | none =>
        match s0.askDeps caravan x.asid l.depList with
        | (s1, false) => .next (s1.rejectLaunch caravan l 0x04)
        | (s1, true) =>
          .next (s1.setCaravan caravan
            { x with recd := some l, state := if l.depList.isEmpty then .ready else .depwait, seen := [] })
    else .next s
  | _, _ => .next s

/-- DEPENDENCE_FILL (R113, R114): dependences that have filled are seen; one that became VOID rejects the record; with all
of them FULL it is ready. One seen FULL stays seen, though its granule is cleared and made VOID while the record waits for
another: the model's choice (log entry 43). -/
def execDependenceFill (caravan : Nat) (s : State) : Out :=
  let x := s.caravan caravan
  match x.state, x.recd with
  | .depwait, some l =>
    let rs := s.readsOf (.dep caravan)
    let isVoid (r : Read) : Bool := match r.answer with
      | some .voided => true
      | _ => false
    if rs.any isVoid then .next (s.rejectLaunch caravan l 0x04)
    else
      let seen := (rs.zipIdx.filter (fun r => r.1.answer.isSome)).map Prod.snd
      if seen.length = rs.length then
        .next ((s.dropCaravanReads caravan).setCaravan caravan { x with seen := seen, state := .ready })
      else .next (s.setCaravan caravan { x with seen := seen })
  | _, _ => .next s

/-! ## Measurement (R126) -/

/-- Reads whole granules through an ASID for the dispatcher, presence observed as LD observes it (R126, R180). -/
def State.asGranules (s : State) (rd : Reader) (asid : Nat) : Nat → Nat → List Byte → State × ReadRes
  | 0, _, acc => (s, .ok acc)
  | n + 1, a, acc =>
    match s.translateRead rd asid a .read with
    | (s1, .fault c) => (s1, .fault c a)
    | (s1, .protect) => (s1, .fatal 0x11)
    | (s1, .ok p sa) =>
      if s1.eccAt p then (s1, .fatal 0x10)
      else
        match s1.loadAt rd asid p sa 64 (some a) with
        | (s2, .wait) => (s2, .wait)
        | (s2, .void) => (s2, .fault clsPresence a)
        | (s2, .ok bs) => State.asGranules s2 rd asid n (a + 64) (acc ++ bs)

/-- An image header from its 128 bytes (R99). -/
def headerOf (b : List Byte) : Header :=
  { ncfg := fieldLe b 6 2, progOff := BitVec.ofNat 64 (fieldLe b 8 8), progLen := BitVec.ofNat 64 (fieldLe b 16 8),
    cdirOff := BitVec.ofNat 64 (fieldLe b 24 8), imageLen := BitVec.ofNat 64 (fieldLe b 32 8),
    digest := vec384 (slice b 48 48) }

/-- A header whose image cannot be read (R126). -/
def headerBad (b : List Byte) : Bool :=
  let h := headerOf b
  decide (h.imageLen.toNat < 128 ∨ 2 ^ 32 < h.imageLen.toNat) || fieldLe b 0 4 != 0x4C425247 || fieldLe b 4 2 != 1 ||
  h.progOff.toNat % 64 != 0 || h.cdirOff.toNat % 64 != 0 ||
  decide (h.imageLen.toNat < h.progOff.toNat + h.progLen.toNat) ||
  decide (h.imageLen.toNat < h.cdirOff.toNat + 64 * h.ncfg)

/-- The digest of an image, its DIGEST field taken as zero (R126). -/
def imageDigest (img : List Byte) : BitVec 384 :=
  vec384 (sha384 (img.take 48 ++ List.replicate 48 0#8 ++ img.drop 96))

/-- The directory entries of an image. -/
def entriesOf (img : List Byte) (h : Header) : List (List Byte) :=
  (List.range h.ncfg).map (fun i => slice img (h.cdirOff.toNat + 64 * i) 64)

/-- An offset of the directory breaks its alignment (R100, R126). -/
def directoryBad (img : List Byte) (h : Header) : Bool := (entriesOf img h).any (fun e => fieldLe e 8 8 % 64 != 0)

/-- Each configuration of an image, in directory order, with the SHA-384 of its words (R127). -/
def configDigests (img : List Byte) (h : Header) : List (Nat × BitVec 384) :=
  (entriesOf img h).map (fun e =>
    let body := img.drop (fieldLe e 8 8)
    (fieldLe e 0 2, vec384 (sha384 (body.take (4 * fieldLe body 28 4)))))

/-- IMAGE_MEASURE (R126): the image of a ready record is read and its digest checked; an EMPTY granule is waited on. -/
def execImageMeasure (caravan : Nat) (s : State) : Out :=
  let x := s.caravan caravan
  match x.state, x.recd, x.header with
  | .ready, some l, none =>
    let rd : Reader := .measure caravan
    let refuse (s : State) : Out := .next (s.rejectLaunch caravan l 0x07)
    match s.asGranules rd x.asid 2 l.image.toNat [] with
    | (s1, .wait) => .next s1
    | (s1, .ok b) =>
      let h := headerOf b
      if headerBad b then refuse s1
      else
        match s1.asGranules rd x.asid ((h.imageLen.toNat + 63) / 64) l.image.toNat [] with
        | (s2, .wait) => .next s2
        | (s2, .ok raw) =>
          let img := raw.take h.imageLen.toNat
          if directoryBad img h = false ∧ imageDigest img = h.digest then
            .next ((s2.dropCaravanReads caravan).setCaravan caravan
              { x with header := some h, configs := configDigests img h })
          else refuse s2
        | (s2, _) => refuse s2
    | (s1, _) => refuse s1
  | _, _, _ => .next s

end Sys2Proof.Machine
end

