-- ==== Sys2Proof/Machine/Retire.lean ====
section
/-! DEFINITION. How instances and clusters end (R211, R417 to R419, R463 to R466): retirement of an instance, the abort of a
cluster, its completion, and its teardown. -/

namespace Sys2Proof.Machine

/-! ## Instances (R211) -/

/-- The site runs an instance. -/
def Site.runs (t : Site) (c : Nat) : Bool := match t.active with
  | some l => l.cseq == c && l.recd.isSome
  | none => false

/-- The sites that run an instance. -/
def Region.sitesOf (x : Region) (c : Nat) : List Nat := (x.sites.filter (fun e => e.2.runs c)).map Prod.fst

/-- A site has no access that is not performed, and its copy is not parked. -/
def State.siteQuiet (s : State) (r site : Nat) : Bool :=
  ((s.region r).site site).agent.park == .running && (s.pendingOf r site).isEmpty &&
  !s.ports.reads.any (fun x => x.reader.isOf r site)

/-- An element can do something, or adopt. -/
def State.siteMoves (s : State) (r site : Nat) : Bool :=
  (match ctxOf s r site with
    | some c => elementMoves s c
    | none => false) || (adoptSite s r site).isSome

/-- The tiles whose store modes an instance gives or takes away (R293). -/
def Region.tilesUnder (x : Region) (e : Entry) : List Nat := x.tiles.map Prod.fst ++ e.cfg.stores.map (fun q => q.tile)

/-- Every tile has taken the store modes of an instance, or those of a newer one, so that the next words a tile takes are
compared with this instance's (R293). -/
def Region.tilesTaken (x : Region) (e : Entry) : Bool := (x.tilesUnder e).all (fun t => x.tileReady t e.cseq)

/-- A tile can still take the store modes of an instance (R293). -/
def State.tileMoves (s : State) (r : Nat) (e : Entry) : Bool :=
  ((s.region r).tilesUnder e).any (fun t => !(s.region r).tileReady t e.cseq && (storeChange s r t).isSome)

/-- The oldest instance of a region may retire (R211); its tiles have taken its store modes by then, where they can (R293). -/
def canRetire (s : State) (r : Nat) (e : Entry) : Bool :=
  let x := s.region r
  let l := x.sitesOf e.cseq
  let ended := x.core.run == .halted
  if e.state = .staged then ended
  else
    e.exitSt == .taken && !x.arcs.any (fun a => a.1 / 1024 == e.cseq && a.2.halted) && l.all (s.siteQuiet r) &&
    ((x.liveEntries.any (fun y => decide (e.cseq < y.cseq)) && x.leftBehind e && x.tilesTaken e) ||
      (ended && !l.any (s.siteMoves r) && !s.tileMoves r e))

/-- Tokens left in the arcs of an instance are discarded and counted, those at element ports under R201, which counts DATA,
STOP and MODE, and those at sequencer ports under R495. -/
def Region.discardArcs (x : Region) (e : Entry) : Region :=
  e.cfg.arcs.zipIdx.foldl (fun x a =>
    let q := x.arc e.cseq a.2
    let l := q.queue ++ q.ctl.toList
    let n := (l.filter (fun t => t.kind == .data || t.kind == .stop || t.kind == .mode)).length
    if a.1.cseq then l.length.rec x (fun _ y => y.seqDiscarded)
    else if n = 0 then x
    else (x.setSite a.1.csite ((x.site a.1.csite).discarded n)).setDisc) x

/-- An instance leaves the region. -/
def Region.retire (x : Region) (e : Entry) : Region :=
  let x1 := x.discardArcs e
  let gone (l : Option Loaded) : Bool := l.any (fun l => l.cseq == e.cseq)
  { x1 with
    cache := x1.cache.filter (fun y => y.cseq != e.cseq), arcs := x1.arcs.filter (fun a => a.1 / 1024 != e.cseq)
    sites := x1.sites.map (fun t =>
      (t.1, { t.2 with
        active := if gone t.2.active then none else t.2.active, next := if gone t.2.next then none else t.2.next })) }

/-- INSTANCE_RETIRE (R211): the oldest instance of a region that runs retires, outside a snapshot; none in a wedged region
(R185). -/
def execInstanceRetire (region : Nat) (s : State) : Out :=
  let x := s.region region
  match x.committed.head?, (s.clusterOf region).bind s.cluster? with
  | some e, some k =>
    if s.runs region && k.snap.isNone && canRetire s region e then .next (s.setRegion region (x.retire e)) else .next s
  | _, _ => .next s

/-! ## Counts and records (R464) -/

/-- The sites of a cluster, by CLUSTER_INDEX and then site. -/
def State.clusterSites (s : State) (k : Cluster) : List Site :=
  k.regions.flatMap (fun r => (s.region r).sites.map Prod.snd)

/-- A DL_DROPMAG added under RNE (R464). -/
def addMag (a b : W32) : W32 :=
  BitVec.ofNat 32 (numericLane tyFp32 0 false false true 0#32
    ((laneValue tyFp32 false a.toNat).add 0 (laneValue tyFp32 false b.toNat))).bits

/-- The element of a site is a DLOAD. -/
def Site.hasDload (t : Site) : Bool := t.kept.dlTiles != 0#64 || t.kept.dlDropmag != 0#32

/-- The counts of a cluster (R464). -/
def State.counts (s : State) (k : Cluster) : Counts :=
  let ts := s.clusterSites k
  let sum (f : Site → W64) : W64 := (ts.map f).foldl (fun a b => a + b) 0#64
  { exitLast := (s.core (.seq (k.regions.getD 0 0))).exitLast
    iters := (k.regions.map (fun r => (s.core (.seq r)).iter)).foldl (fun a b => a + b) 0#64
    hd := [sum (fun t => t.kept.hdFull), sum (fun t => t.kept.hdPartial), sum (fun t => t.kept.hdEmpty),
      sum (fun t => t.kept.hdSkipb)]
    dl := [sum (fun t => t.kept.dlTiles), sum (fun t => t.kept.dlDense), sum (fun t => t.kept.dlTerms),
      sum (fun t => t.kept.dlResid), sum (fun t => t.kept.dlDrop)]
    dropmag := ((ts.filter Site.hasDload).map (fun t => t.kept.dlDropmag)).foldl addMag 0#32 }

/-- Ticks since a cluster was placed (R464). -/
def State.elapsed (s : State) (k : Cluster) : Nat := s.pow.tick - k.placedTick

/-- A cluster's record is written (R464, R465); when it cannot be, both ports are alerted. -/
def State.writeRecord (s : State) (k : Cluster) (bs : List Byte) : State :=
  match s.writeCompl k.asid k.recd.compl bs with
  | (s1, true) => s1
  | (s1, false) => s1.notify (.recordUnwritable k.caravan)

/-! ## Teardown (R133, R142, R466) -/

/-- The regions' semaphores are released, in ascending order of semaphore, and their requests withdrawn (R109, R466). -/
def State.releaseSems (s : State) (l : List Nat) : State :=
  let s1 := l.foldl State.withdrawSem s
  (s1.disp.sems.filter (fun e => l.any e.2.heldBy)).foldl (fun s e => s.releaseSem e.1 e.2.holder) s1

/-- A quadrant's meter at teardown: the learned request and the counters go (R459, R466). -/
def Meter.freed (m : Meter) : Meter := { m with learned := 0#4, droops := 0#32, replays := 0#64 }

/-- A region zeroed (R133): its sites, arcs, cache and sequencer, with its droop table; the power controller's requests
stay. -/
def Region.freed (x : Region) : Region := { Region.init with meters := x.meters.map Meter.freed, sig := x.sig }

/-- The lines of a region's tile stores read zero. -/
def Mems.zeroTiles (m : Mems) (r : Nat) : Mems := { m with tile := m.tile.filter (fun c => c.1 / (64 * tileBytes) != r) }

/-- A region is zeroed and free. -/
def State.freeRegion (s : State) (r : Nat) : State :=
  { s.setRegion r (s.region r).freed with mem := s.mem.zeroTiles r }

/-- What a predicate on regions names at the memory ports is withdrawn: accesses, posted reads, SC accesses. -/
def State.dropPorts (s : State) (l : List Nat) : State :=
  let mine (c : CoreId) : Bool := match c with
    | .seq r => l.contains r
    | .mc => false
  let reader (x : Reader) : Bool := match x with
    | .core c => mine c
    | .fetch c => mine c
    | .elem r _ _ => l.contains r
    | _ => false
  { s with ports := { s.ports with
      pend := s.ports.pend.filter (fun a => !l.contains a.region)
      reads := s.ports.reads.filter (fun x => !reader x.reader), sc := s.ports.sc.filter (fun a => !mine a.core) } }

/-- A cluster is torn down (R466): its semaphores, regions and banks are free, and the next arbitration round runs next. -/
def State.teardown (s : State) (n : Nat) : State :=
  match s.cluster? n with
  | none => s
  | some k =>
    let s1 := ((s.releaseSems k.regions).dropPorts k.regions)
    let s2 := k.regions.foldl State.freeRegion s1
    { s2 with
      disp := { s2.disp with clusters := Table.del s2.disp.clusters n }
      agenda := .event .arbitrationRound :: s2.agenda }

/-! ## Completion (R463, R465) -/

/-- A region is finished (R190, R463): its program has ended and every instance has retired. -/
def Region.finished (x : Region) : Bool := x.core.run == .halted && x.committed.isEmpty

/-- No engine command of a cluster is left. -/
def State.noCommands (s : State) (n : Nat) : Bool := s.engines.all (fun q => q.2.all (fun c => c.cluster != some n))

/-- A cluster completes (R463). -/
def State.canComplete (s : State) (n : Nat) (k : Cluster) : Bool :=
  k.abort.isNone && k.regions.all (fun r => (s.region r).finished) && s.noCommands n &&
  s.ports.pend.all (fun a => a.cluster != n) && !s.disp.fatal.any (fun f => f.cluster == n)

/-- CLUSTER_COMPLETE (R463 to R466). -/
def execClusterComplete (cluster : Nat) (s : State) : Out :=
  match s.cluster? cluster with
  | none => .next s
  | some k =>
    if s.canComplete cluster k then
      .next ((s.writeRecord k (complBytes 0 0 0x1FF 0xFF 0 k.asid (s.counts k) (k.energy.toNat / 1000) (s.elapsed k))).teardown
        cluster)
    else .next s

/-! ## Abort (R417 to R419) -/

/-- An element whose agent can park. -/
def Site.isAgent (t : Site) : Bool := match t.op with
  | .ag _ => true
  | .scan _ => true
  | .pmask _ => true
  | .ow _ => true
  | .br _ => true
  | _ => match t.active.bind (fun l => l.recd) with
    | some q => q.kind == .ag || q.kind == .hd || q.kind == .ow || q.kind == .br
    | none => false

/-- The instruction in progress at an abort (R162, R417): a RUN that has made its instance LIVE completes, and so does an SC
store that has been performed; any other is abandoned. -/
def Core.broken (c : Core) : Core := if c.inRun then c.retire else c.settle

/-- A region stops (R162, R408, R417): its sequencer executes nothing more, its agents enter STOPPED and its debug halts
end. -/
def Region.stopped (x : Region) : Region :=
  let run := match x.core.run with
    | .running => .stopped
    | .frozen => .stopped
    | r => r
  { x with
    core := { x.core.broken with run := run, wait := .none, fetched := none }
    sites := x.sites.map (fun t => (t.1, if t.2.isAgent then { t.2 with agent := { t.2.agent with park := .stopped } } else t.2))
    arcs := (x.arcs.map (fun a => (a.1, { a.2 with halted := false }))).filter (fun a => a.2 != Arc.empty) }

/-- A command of an aborted cluster ends ABORTED at once (R352, R417); one whose status cell cannot be written goes without. -/
def State.endAborted (s : State) (e : Nat) (c : Cmd) : State :=
  let s1 := cmdAborted s e c
  if (s1.queueOf e).any (fun x => x.issuer == c.issuer && x.n == c.n) then cmdGone s1 e { c with ended := some 1 } 1 else s1

/-- Every engine command of a cluster ends ABORTED (R417). -/
def State.abortCommands (s : State) (n : Nat) : State :=
  (List.range 24).foldl (fun s e =>
    ((s.queueOf e).filter (fun c => c.cluster == some n)).foldl (fun s c => s.endAborted e c) s) s

/-- The granules of a partition. -/
def partGranules (banks : List Nat) : List Place :=
  banks.flatMap (fun b => (List.range 4096).map (fun g => .bank b (64 * g)))

/-- Every EMPTY granule of a single-assignment partition becomes VOID (R417). -/
def State.voidPartition (s : State) (k : Cluster) : State :=
  if k.recd.psa then (partGranules k.banks).foldl State.voidGranule s else s

/-- An abort notice (R419). -/
def abortNotice (k : Cluster) (cls cidx site : Nat) : List Byte :=
  wordBytes k.recd.compl ++ leBytes 2 k.asid ++ leBytes 1 cls ++ leBytes 1 cidx ++ leBytes 2 site ++ leBytes 2 0

/-- Whether an access is one of a cluster that changes memory. -/
def Access.storesOf (a : Access) (n : Nat) : Bool := a.cluster == n && a.kind != .load

/-- The k-th access at the ports stands before a store of a cluster at one port, or is one. -/
def State.beforeStore (s : State) (n k : Nat) : Bool :=
  match s.ports.pend.drop k with
  | [] => false
  | a :: rest => a.storesOf n || rest.any (fun b => b.storesOf n && b.place.map Place.port == a.place.map Place.port)

/-- The stores of a cluster that have reached their ports are performed (R373), in the order of arrival there: from the k-th
access on, each that is one of them or stands before one. -/
def State.settleStores (n : Nat) : Nat → Nat → State → State
  | 0, _, s => s
  | fuel + 1, k, s =>
    if s.beforeStore n k then
      match performAccess s k with
      | some t => settleStores n fuel (if t.ports.pend.length < s.ports.pend.length then k else k + 1) t
      | none => settleStores n fuel (k + 1) s
    else settleStores n fuel (k + 1) s

/-- A cluster aborts (R417): the stores that have reached their ports are performed (R373, R142), and the steps follow in their
order; its semaphores are released (R109), and its accumulator counts until the record is written (R461). -/
def State.abortCluster (s0 : State) (n : Nat) (k0 : Cluster) (f : Fatal) : State :=
  let s := State.settleStores n s0.ports.pend.length 0 s0
  let k := (s.cluster? n).getD k0
  let cidx := k.indexOf f.region
  let counts := s.counts k
  let a : Abort := { cls := f.cls, region := f.region, site := f.site, cidx := cidx, counts := counts, written := false }
  let s1 := (k.regions.foldl (fun s r => s.mapRegion r Region.stopped) (s.releaseSems k.regions)).dropPorts k.regions
  let s2 := ((s1.setCluster n { k with abort := some a, snap := none }).abortCommands n).voidPartition k
  let k2 := (s2.cluster? n).getD k
  let s3 := s2.writeRecord k (complBytes 2 f.cls.toNat f.site f.region cidx k.asid counts (k2.energy.toNat / 1000) (s2.elapsed k))
  let s4 := (s3.setCluster n { (s3.cluster? n).getD k2 with abort := some { a with written := true } }).notify (.aborted n)
  { s4 with disp := { s4.disp with
      abortLog := (abortNotice k f.cls.toNat cidx f.site :: s4.disp.abortLog).take 16 } }

/-- The first fatal fault of a cluster that is not saved, and the rest: those of a saved cluster are taken once it is
restored. -/
def takeFatal (hasSaved : Nat → Bool) : List Fatal → Option (Fatal × List Fatal)
  | [] => none
  | f :: rest =>
    if hasSaved f.cluster then (takeFatal hasSaved rest).map (fun p => (p.1, f :: p.2)) else some (f, rest)

/-- CLUSTER_ABORT (R417, R418): the dispatcher takes a fatal fault; one of a cluster that has aborted or is gone changes
nothing. -/
def execClusterAbort (s : State) : Out :=
  match takeFatal (fun n => s.disp.saved.any (fun e => e.number == n)) s.disp.fatal with
  | none => .next s
  | some (f, rest) =>
    let s1 := { s with disp := { s.disp with fatal := rest } }
    match s1.cluster? f.cluster with
    | none => .next s1
    | some k => if k.abort.isSome then .next s1 else .next (s1.abortCluster f.cluster k f)

end Sys2Proof.Machine
end

