-- ==== Sys2Proof/Machine/Items.lean ====
section
/-! DEFINITION. The items of a cluster as bytes (R427 to R429, R434): the rows of the elements' state tables, the ARC payload,
and the live extents of tile stores. An item of w bits takes w / 8 bytes, rounded up, little-endian. Where the spec names
what an item holds and not where it lies in the item, the bytes are a free function of what it holds (log entry 12). -/

namespace Sys2Proof.Machine

/-! ## Items whose layout the spec does not give (log entry 12) -/

/-- The bytes of an item of a kind that holds some numbers, of no stated length. -/
def laid (kind : Nat) (fields : List Nat) : List Byte := (Config.layout kind fields).take 65536

/-- The bytes of such an item of a stated length. -/
def laidIn (kind n : Nat) (fields : List Nat) : List Byte := slice (Config.layout kind fields) 0 n

/-- What an item holds, as numbers. -/
def flagField (b : Bool) : Nat := if b then 1 else 0
def intFields (i : Int) : List Nat := [flagField (decide (i < 0)), i.natAbs]
def optFields {α : Type} (f : α → List Nat) : Option α → List Nat
  | none => [0]
  | some x => 1 :: f x
def listFields {α : Type} (f : α → List Nat) (l : List α) : List Nat := l.length :: l.flatMap f
def Token.fields (t : Token) : List Nat := [t.tag.toNat, t.payload.toNat]
def recordFields (r : Option W32) : List Nat := optFields (fun w => [w.toNat]) r
def Ev.fields (e : Ev) : List Nat := [flagField e.invalid, flagField e.overflow]

/-- What an operation state holds (R238, R263, R274, R295, R314, R353, R392). -/
def OpState.fields : OpState → List Nat
  | .none => []
  | .cvt c => listFields (fun l => l.1.toNat :: l.2.fields) c.lanes ++ [flagField c.poison] ++ recordFields c.recd
  | .tacc t =>
    listFields (fun x : W64 => [x.toNat]) t.acc ++ t.ev.fields ++ [flagField t.poison, flagField t.closing] ++ recordFields t.recd
  | .mxpack m =>
    listFields (fun x : W32 => [x.toNat]) m.vals ++ [flagField m.poison, flagField m.emitPoison] ++ recordFields m.recd ++
    listFields (fun b : Beat => [b.toNat]) m.emit
  | .mxunpack m => optFields Token.fields m.scale ++ [m.beats, m.sent] ++ optFields Token.fields m.held
  | .const n => [n]
  | .carry l => [flagField l]
  | .inv h => optFields Token.fields h
  | .loop o st =>
    optFields (fun r : LoopRun => intFields r.start ++ intFields r.stop ++
      [r.j, flagField r.poison, flagField r.err, r.recd.toNat, flagField r.single]) o ++ [flagField st]
  | .ctl out d => [out.toNat, flagField d]
  | .permit k st => [k, flagField st]
  | .done d => [d.collected.toNat, d.count.toNat, flagField d.poison] ++ recordFields d.recd
  | .count c => [c.toNat]
  | .exit b => [flagField b]
  | .mx m =>
    optFields (fun k : MxCmd => [k.word.toNat, k.steps, k.bBeats, k.drained, k.loaded, flagField k.cut]) m.cmd ++
    optFields (fun b : Beat => [b.toNat]) m.aFrame.scale ++ optFields (fun b : Beat => [b.toNat]) m.bFrame.scale ++
    [m.aFrame.beats, m.bFrame.beats, flagField m.ldPoison] ++ recordFields m.ldRec ++ optFields (fun d : Nat => [d]) m.boundary
  | .ag a =>
    [flagField a.isOpen] ++ intFields a.off ++ [flagField a.poison] ++ recordFields a.recd ++ optFields Token.fields a.bad ++
    [flagField a.past, a.runs, a.emitRun, flagField a.touched] ++ optFields (fun d : Nat => [d]) a.closing ++
    optFields (fun d : DloadOut => listFields (fun q : Option Beat × Beat =>
      optFields (fun b : Beat => [b.toNat]) q.1 ++ [q.2.toNat]) d.beats ++ [flagField d.poison] ++ recordFields d.recd) a.dl
  | .scan b =>
    let part (o : Option (Beat × Bool × Option W32 × Nat)) : List Nat :=
      optFields (fun q : Beat × Bool × Option W32 × Nat => [q.1.toNat, flagField q.2.1, q.2.2.2] ++ recordFields q.2.2.1) o
    part b.cur ++ [b.nb.toNat, b.ord.toNat, flagField b.yielded] ++ part b.summary
  | .pmask q => optFields Token.fields q.pair ++ optFields (fun d : Nat => [d]) q.cls ++ [q.row]
  | .ow o =>
    listFields Token.fields o.toks ++ [o.blk, flagField o.applying, flagField o.skip] ++
    optFields (fun d : Nat => [d]) o.closing
  | .br l => listFields (fun i : BrItem => match i with
    | .cmd q n sc => [0, q, n.toNat, sc]
    | .answer b => [1, b.toNat]
    | .tok t => 2 :: t.fields) l

/-- The operation-state item of a VE or SQ (R238, R263): a COUNT's c, the done flags of EXIT and CONST and CARRY's phase are the item
(R234, R260), CVT and MXUNPACK take 1,040 bits, MXPACK 65,600, TACC at most 8,224. -/
def OpState.item (o : OpState) : List Byte :=
  match o with
  | .none => []
  | .count c => leBytes 4 c.toNat
  | .exit b => leBytes 1 (flagField b)
  | .cvt _ => laidIn 1 130 o.fields
  | .mxunpack _ => laidIn 2 130 o.fields
  | .mxpack _ => laidIn 3 8200 o.fields
  | .tacc _ => (laid 4 o.fields).take 1028
  | .const n => leBytes 1 (flagField (decide (n = 2)))
  | .carry l => leBytes 1 (flagField l)
  | .inv _ => laid 7 o.fields
  | .loop _ _ => laid 8 o.fields
  | .ctl _ _ => laid 9 o.fields
  | .permit _ _ => laid 10 o.fields
  | .done _ => laid 11 o.fields
  | _ => laid 12 o.fields

/-- What a space and an access hold. -/
def Space.fields : Space → List Nat
  | .tile t => [0, t]
  | .island => [1, 0]
  | .virt => [2, 0]
def AccKind.code : AccKind → Nat
  | .load => 0 | .store => 1 | .clear => 2 | .atom => 3
def Access.fields (a : Access) : List Nat :=
  [a.id, a.kind.code] ++ a.space.fields ++ [a.addr, a.data.toNat] ++ listFields (fun n : Nat => [n]) a.j

/-- The replay buffer of an agent (R295, R314, R353, R392): the accesses held, or the token held. -/
def Park.code : Park → Nat
  | .running => 0 | .parking => 1 | .parked => 2 | .replaying => 3 | .stopped => 4
def Agent.replayItem (g : Agent) : List Byte :=
  laid 20 ([g.park.code] ++ listFields Access.fields g.replay ++
    optFields (fun h : HeldToken => h.port :: h.token.fields) g.heldTok)

/-- The response buffer of an agent (R295, R306). -/
def Agent.respItem (g : Agent) : List Byte :=
  laid 21 (listFields (fun i : RespItem => match i with
    | .load n q r => [0, n, flagField q] ++ recordFields r
    | .tok t => 1 :: t.fields
    | .endRun => [2]) g.resp)

/-! ## Elements -/

/-- The words of a record (R69, R70). -/
def Rec.words (q : Rec) : List Nat :=
  [q.site + 2 ^ 24 * q.mode0.toNat, q.seed.toNat,
   2 ^ 24 * q.opc + 2 ^ 22 * q.nx + 2 ^ 16 * q.repm + 2 ^ 14 * q.pv + 2 ^ 11 * q.ro + (if q.sat then 2 ^ 10 else 0) +
     2 ^ 6 * q.inMask + 2 ^ 4 * q.oc1 + 2 ^ 2 * q.oc0 + q.md] ++ q.ext.map BitVec.toNat

/-- A record item of `n` words; zero where there is no record. -/
def recordItem (n : Nat) (l : Option Loaded) : List Byte :=
  match l.bind (fun l => l.recd) with
  | some q => slice (q.words.flatMap (leBytes 4)) 0 (4 * n)
  | none => List.replicate (4 * n) 0#8

/-- Words of a kind's record item. -/
def recordWords : EKind → Nat
  | .ve => 6
  | .sq => 6
  | .mx => 3
  | .ow => 4
  | _ => 5

/-- A 64-bit counter as an item. -/
def longItem (x : W64) : List Byte := wordBytes x

/-- The segment counts of an agent. -/
def Agent.segItem (g : Agent) : List Byte := leBytes 4 g.written.toNat ++ leBytes 4 g.notWritten.toNat

/-- The point counters of an address generator. -/
def Site.pointItem (t : Site) : List Byte :=
  let j := match t.op with
    | .ag a => a.j
    | _ => []
  (List.range 5).flatMap (fun i => leBytes 4 (j.getD i 0))

/-- The DL counters of a DLOAD (R337), which stand behind the rows of an AG (log entry 12). -/
def Kept.dlItem (k : Kept) : List Byte :=
  longItem k.dlTiles ++ longItem k.dlDense ++ longItem k.dlTerms ++ longItem k.dlResid ++ longItem k.dlDrop ++
  leBytes 4 k.dlDropmag.toNat

/-- The rows of a matrix element's tile registers, window and counters (R274). -/
def MxRegs.rows (m : MxRegs) (op : OpState) : List (List Byte) :=
  let tile (v : Vector W32 1024) : List Byte := v.toList.flatMap (fun x => leBytes 4 x.toNat)
  [tile m.t0 ++ tile m.t1,
   laidIn 13 9 ([flagField m.pz0, flagField m.pz1] ++ recordFields m.rec0 ++ recordFields m.rec1), leBytes 1 (flagField m.act),
   laidIn 14 4096 (m.window.toList.flatMap (fun e => [e.1.toNat, e.2.toNat])), laidIn 15 8 op.fields,
   longItem m.steps ++ longItem m.early]

/-- The rows of a kind's state table behind its discard counter. -/
def kindRows (k : EKind) (t : Site) : List (List Byte) :=
  let g := t.agent
  match k with
  | .ve => [t.op.item]
  | .sq => [t.op.item]
  | .mx => (t.mx.getD MxRegs.init).rows t.op
  | .ag => [t.pointItem, laidIn 16 16 t.op.fields, g.replayItem, g.respItem, g.segItem, longItem t.kept.beats, t.kept.dlItem]
  | .hd => [(laid 17 t.op.fields).take 200, g.replayItem,
            longItem t.kept.hdFull ++ longItem t.kept.hdPartial ++ longItem t.kept.hdEmpty, longItem t.kept.hdSkipb]
  | .br => [laid 18 t.op.fields, g.replayItem, g.respItem, g.segItem, longItem t.kept.beats]
  | .ow => [laid 19 (t.op.fields ++ [g.park.code] ++ optFields (fun h : HeldToken => h.port :: h.token.fields) g.heldTok),
            g.segItem, longItem t.kept.beats]

/-- The rows of an element's state table (R238, R263, R274, R295, R314, R353, R392). -/
def elementRows (site : Nat) (t : Site) : List (List Byte) :=
  let k := siteKind site
  let seeded : List (List Byte) := if k = .ve ∨ k = .mx ∨ k = .ow then [leBytes 4 t.lfsr.toNat] else []
  [recordItem (recordWords k) t.active, recordItem (recordWords k) t.next, leBytes 1 t.mode.toNat] ++ seeded ++
  [t.stalls.toList.flatMap (fun x => leBytes 4 x.toNat), leBytes 4 t.discard.toNat] ++ kindRows k t

/-- The site has a record, in one of its registers. -/
def Site.hasRecord (t : Site) : Bool := ((t.active.bind (fun l => l.recd)).isSome || (t.next.bind (fun l => l.recd)).isSome)

/-! ## Cores (R154, R427) -/

/-- What a core waits on, and whether it runs. -/
def CoreRun.code : CoreRun → Nat
  | .off => 0 | .running => 1 | .frozen => 2 | .halted => 3 | .wedged => 4 | .stopped => 5
def CoreWait.fields : CoreWait → List Nat
  | .none => [0]
  | .run n => [1, n]
  | .sema n => [2, n]
  | .bar w => [3, w.toNat]
  | .scPosted => [4]
  | .scDone b v => [5, flagField b, v.toNat]

/-- The state of R154 that a sequencer holds, and its issue numbers (R427). -/
def Core.fields (c : Core) : List Nat :=
  c.regs.toList.map BitVec.toNat ++ [c.preds.toNat, c.pc.toNat, c.priv.code, c.iter.toNat, c.seqDiscard.toNat,
    c.evtPend.toNat, c.evtMask.toNat, c.insnCount.toNat, c.cfgReject.toNat, c.ltag.toNat, flagField c.disc, c.ucause.toNat,
    c.cfgErr.toNat, c.exitLast.toNat, c.trap.status.toNat, c.trap.pc.toNat, c.trap.cause.toNat, c.trap.addr.toNat,
    c.trap.word.toNat, c.trap.info.toNat, c.trap.scratch0.toNat, c.trap.scratch1.toNat] ++
  c.issue.toList.map BitVec.toNat ++ [c.run.code] ++ c.wait.fields

/-! ## Engine commands (R352, R427) -/

/-- The command block, the issue number and the progress record of a command. -/
def Block.fields (b : Block) : List Nat :=
  [b.kind, b.spc, b.stype, b.dtype, b.modeb.toNat, b.opts, b.scope, b.src, b.dst, b.rowlen, b.rows] ++ intFields b.sstr ++
  [b.dstr, b.aux, b.aux2, b.status]
def Cmd.fields (c : Cmd) : List Nat :=
  let bytes : List Byte → List Nat := listFields (fun x : Byte => [x.toNat])
  c.blk.fields ++ [c.n.toNat] ++ listFields (fun m : Nat => [m]) c.group ++ [c.row] ++ bytes c.buf ++ [c.granules, c.phase] ++
  bytes c.outBuf ++ [c.outAddr] ++ bytes c.idxBuf ++ [c.idxAddr] ++ listFields (fun m : Nat => [m]) c.ptrs ++
  [c.count, c.ovf.toNat, c.inv.toNat, flagField c.formed, c.park.code] ++ optFields (fun d : Nat => [d]) c.ended

/-! ## Arcs (R428) -/

/-- The arc has no reserved entry before its consumer adopts its instance: its tokens wait in slots (R220). An arc that ends
at a sequencer port has its own (R223). -/
def Region.ahead (x : Region) (e : Entry) (a : ArcWord) : Bool := !x.entryTaken e.cseq a

/-- The tokens of an arc by position: head register, which stays empty while the tokens wait in slots, slots, control part. -/
def Arc.positions (a : Arc) (slots : Nat) (ahead : Bool) : List (Nat × Token) :=
  (a.queue.zipIdx.map (fun q => (q.2 + flagField ahead, q.1))) ++ (a.ctl.toList.map (fun t => (slots + 1, t)))

/-- One position's entry; a control part carries payload [31:0]. -/
def positionBytes (slots : Nat) (q : Nat × Token) : List Byte :=
  let p : Beat := if q.1 = slots + 1 then (q.2.payload.setWidth 32).setWidth 512 else q.2.payload
  beatBytes p ++ [q.2.tag] ++ List.replicate 7 0#8

/-- The ARC payload (R428). -/
def Arc.payload (a : Arc) (slots : Nat) (ahead : Bool) : List Byte :=
  let l := a.positions slots ahead
  leBytes 2 (l.foldl (fun n q => n + 2 ^ q.1) 0) ++ l.flatMap (positionBytes slots)

/-! ## Tile stores (R290, R429) -/

/-- A configuration as the loader's checks see one. -/
def Cfg.parsed (c : Cfg) : Parsed :=
  { cfgid := c.cfgid, recs := c.recs.map (fun x => { widx := 0, val := x }), arcs := [], routes := [],
    stores := c.stores.map (fun x => { widx := 0, val := x }), masks := [], pool := c.pool.map (fun x => { widx := 0, val := x }) }

/-- A record's accesses can reach a line of a tile (R291, R299, R320, R395): the reads of an OREAD are steered to the owner of
its descriptor, whose lines they are. -/
def recReaches (c : Cfg) (dx dy : Int) (q : Rec) (tile line : Nat) : Bool :=
  let steered := q.kind == .ow && q.opc == 0xB && c.recs.any (fun y => y.updates && y.e 0 % 65536 == q.e 0 % 65536)
  !steered &&
  (match tileRange c.parsed dx dy q tile with
  | some (b, n) => decide (b ≤ 64 * line) && decide (64 * line < b + n)
  | none => false)

/-- A committed instance's records name a line. -/
def Cfg.reaches (c : Cfg) (dx dy : Int) (tile line : Nat) : Bool := c.recs.any (fun q => recReaches c dx dy q tile line)

/-- A line is live (R429): some committed instance's records name it, or a line of the MULTI, FIFO or LINE region of that
instance in which it lies. -/
def Region.lineLive (x : Region) (dx dy : Int) (tile line : Nat) : Bool :=
  x.committed.any (fun e =>
    e.cfg.reaches dx dy tile line ||
    e.cfg.stores.any (fun y => y.tile == tile && storeMode y.word != 0 && decide (storeBase y.word ≤ line) &&
      decide (line < storeBase y.word + storeLen y.word) &&
      (List.range (storeLen y.word)).any (fun i => e.cfg.reaches dx dy tile (storeBase y.word + i))))

/-- Maximal runs of an ascending list: first and length. -/
def runsOf : List Nat → List (Nat × Nat)
  | [] => []
  | x :: t =>
    match runsOf t with
    | (a, n) :: rest => if a = x + 1 then (x, n + 1) :: rest else (x, 1) :: (a, n) :: rest
    | [] => [(x, 1)]

/-- The live lines of a tile. -/
def Region.liveLines (x : Region) (dx dy : Int) (tile : Nat) : List Nat :=
  (List.range 3072).filter (x.lineLive dx dy tile)

/-- The store-mode words of a tile: eight, zero where absent (R290). -/
def TileStore.wordItem (ts : TileStore) : List Byte :=
  (List.range 8).flatMap (fun i => leBytes 4 (((ts.regions[i]?).map (fun q => q.word.toNat)).getD 0))

/-- The MULTI state of a tile (R290): of each region the four buffer flags, w and r (log entry 12). -/
def TileStore.multiItem (ts : TileStore) : List Byte :=
  (List.range 8).flatMap (fun i => leBytes 1 (match ts.regions[i]? with
    | some q => q.full.toNat + 16 * q.w.toNat + 64 * q.r.toNat
    | none => 0))

/-- The FIFO state of a tile (R290): head and count of each region (log entry 12). -/
def TileStore.fifoItem (ts : TileStore) : List Byte :=
  (List.range 8).flatMap (fun i => leBytes 3 (match ts.regions[i]? with
    | some q => q.head.toNat + 4096 * q.count.toNat
    | none => 0))

/-- The LINE state of a tile: Wn and O of each region (R290). -/
def TileStore.lineItem (ts : TileStore) : List Byte :=
  (List.range 8).flatMap (fun i => match ts.regions[i]? with
    | some q => longItem q.wn ++ longItem q.o
    | none => List.replicate 16 0#8)

/-! ## Tiles and regions (R434) -/

/-- Pool occupancy of a tile: the tokens of each arc that ends there, with its slots. -/
def Region.poolItem (x : Region) (tile : Nat) : List Byte :=
  laid 22 (x.committed.flatMap (fun e => (x.poolArcs tile e).flatMap (fun a =>
    [e.cfgid, a.n, (x.arc e.cseq a.n).queue.length, x.share tile e.cseq a.n])))

/-- The switch words of a tile. -/
def Region.switchItem (x : Region) (tile : Nat) : List Byte :=
  laid 23 (x.committed.flatMap (fun e => (e.cfg.routes.filter (fun q => q.tile == tile)).flatMap (fun q =>
    [e.cfgid, q.inch, q.outch, q.latch, flagField q.elastic])))

/-- The code of a cache entry's state. -/
def EntryState.code : EntryState → Nat
  | .fetched => 0 | .rejected => 1 | .staged => 2 | .live => 3

/-- How far an exit has come (R203). -/
def ExitState.fields : ExitState → List Nat
  | .unsent => [0]
  | .arrived n => [1, n]
  | .swept => [2]
  | .taken => [3]

/-- The halted arcs of a region (R208), each with its instance. -/
def Region.haltFields (x : Region) : List Nat :=
  listFields (fun a : Nat × Arc => [(((x.held (a.1 / 1024)).map Entry.cfgid).getD 0), a.1 % 1024])
    (x.arcs.filter (fun a => a.2.halted))

/-- The state of a caravan (R110) and a caravan's entry: ASID, PFLOOR, head and state. -/
def CarState.code : CarState → Nat
  | .unreg => 0 | .waiting => 1 | .depwait => 2 | .ready => 3 | .ended => 4 | .stalled => 5

/-- The configuration cache of a region (R192). -/
def Region.cacheItem (x : Region) : List Byte :=
  laid 24 (listFields (fun e : Entry => [e.state.code, e.cfgid, e.cseq, e.age, flagField e.byPred]) x.cache)

/-- The CACHE payload (R213, R427): the committed instances in order with their states, and how far the exit of each has come
(R203), the active and the next identifier of each site, and the halted arcs. -/
def Region.cachePayload (x : Region) : List Byte :=
  let id (l : Option Loaded) : Nat := (l.map Loaded.cfgid).getD 0
  laid 25 (listFields (fun e : Entry => [e.cfgid, e.state.code] ++ e.exitSt.fields) x.committed ++
    listFields (fun t : Nat × Site => [t.1, id t.2.active, id t.2.next]) x.sites ++ x.haltFields)

/-! ## Meters and droop (R438, R439, R457, R459) -/

/-- The meter word of a quadrant (R439); EFF is the largest request (R438). -/
def State.meterWord (s : State) (q : Nat) : Nat :=
  let m := s.meter q
  let pace := s.paceOf (q / 4)
  let droop := max m.emergency.toNat m.learned.toNat
  let eff := [pace, m.gov.toNat, m.zone.toNat, m.trip.toNat, droop].foldl max m.mc.toNat
  eff + 2 ^ 4 * m.mc.toNat + 2 ^ 8 * pace + 2 ^ 12 * m.gov.toNat + 2 ^ 16 * m.zone.toNat + 2 ^ 20 * m.trip.toNat +
    2 ^ 24 * droop

/-- A droop table entry (R457). -/
def DroopEntry.word (d : DroopEntry) : Nat :=
  d.sig.toNat + 2 ^ 32 * d.step.toNat + 2 ^ 40 * d.hold.toNat + 2 ^ 48 * d.quiet.toNat + (if d.valid then 2 ^ 55 else 0) +
    2 ^ 56 * d.hits.toNat

/-- An entry nothing has been taught to. -/
def DroopEntry.empty : DroopEntry := { hits := 0#8, valid := false, quiet := 0#6, hold := 0#8, step := 0#4, sig := 0#32 }

/-- The droop table of a region (R457). -/
def Region.droopItem (x : Region) : List Byte :=
  (List.range 32).flatMap (fun i => leBytes 8 (Table.get x.droop i DroopEntry.empty).word)

/-- REPLAYS and DROOPS of a region (R459). -/
def Region.replayItem (x : Region) : List Byte :=
  x.meters.toList.flatMap (fun m => wordBytes m.replays) ++ x.meters.toList.flatMap (fun m => leBytes 4 m.droops.toNat)

/-- A signed number as a 16-bit field. -/
def field16 (x : Int) : Nat := wrapTo x 16

/-- The entry of a sensor (R448). -/
def Sensor.word (n : Sensor) : Nat :=
  let flag (b : Bool) (i : Nat) : Nat := if b then 2 ^ i else 0
  field16 n.pub + 2 ^ 16 * field16 n.raw + flag n.suspect 32 + flag n.stk 33 + flag n.rng 34 + flag n.dis 35 +
    2 ^ 40 * (n.cleann % 256) + 2 ^ 48 * (n.stuckn % 65536)

end Sys2Proof.Machine
end

