-- ==== Sys2Proof/Machine/SaveStore.lean ====
section
/-! DEFINITION. The save store (R131, R416): save images as they stand in HBM, encrypted in units of 64 bytes, and the FAULTCELL
entry that a saved cluster's image takes in with the replies (R412, R426, R427). -/

namespace Sys2Proof.Machine

/-! ## Entries (R426, R427) -/

/-- An entry of the image (R427). -/
def imageEntry (type cidx wh cfgid : Nat) (payload : List Byte) : List Byte :=
  leBytes 1 type ++ leBytes 1 cidx ++ leBytes 2 wh ++ leBytes 2 cfgid ++ leBytes 2 0 ++ leBytes 8 payload.length ++
  padTo payload ((payload.length + 63) / 64 * 64)

/-- The END entry. -/
def endEntry : List Byte := imageEntry 0xFF 0 0 0 []

/-- A cell as the FAULTCELL entry lists it (R427): its address, its SEQ, and the reply taken, if any, behind a byte that says
whether there is one (log entry 12). -/
def FqCell.bytes (c : FqCell) : List Byte :=
  leBytes 8 c.addr ++ wordBytes c.seq ++ leBytes 1 (flagField c.reply.isSome) ++ c.reply.getD []

/-- The FAULTCELL entry of a cluster (R427): each of its outstanding cells in order; none stands without such a cell (R492). -/
def State.cellEntries (s : State) (n : Nat) (k : Cluster) : List (List Byte) :=
  match (((s.aspace? k.asid).map Aspace.cells).getD []).filter (fun c => c.recd.cluster == n) with
  | [] => []
  | l => [imageEntry 9 0 0 0 (l.flatMap FqCell.bytes)]

/-- A tile offset as a byte. -/
def offsetByte (d : Int) : Nat := wrapTo d 8

/-- The header of an image of `len` bytes with `nent` entries (R426). -/
def imageHeader (k : Cluster) (number : W32) (checkpoint : Bool) (len nent : Nat) : List Byte :=
  padTo (leBytes 4 0x534E4150 ++ leBytes 4 number.toNat ++ leBytes 2 k.asid ++ leBytes 1 (k.regions.length - 1) ++
    leBytes 1 (flagField checkpoint) ++ leBytes 1 (offsetByte k.dx) ++ leBytes 1 (offsetByte k.dy) ++ leBytes 2 0 ++
    leBytes 8 len ++ leBytes 4 nent) 64

/-! ## The store (R416) -/

/-- The key that a stored image stands under (R131): its address space's KX, or KSV. -/
def State.imageKey (s : State) (asid : Nat) (keyed : Bool) : List Byte :=
  if keyed then s.xtsKey asid else beBytes 64 s.sec.ksv.toNat

/-- The local address of unit `i` of an image in pages of the save store. -/
def unitAddr (pages : List Nat) (i : Nat) : Nat := saveStore + 65536 * pages.getD (i / 1024) 0 + 64 * (i % 1024)

/-- Pages of the save store that images take. -/
def State.pagesUsed (s : State) : List Nat :=
  s.disp.clusters.flatMap (fun k => (k.2.checkpoint.map Stored.pages).getD []) ++ s.disp.saved.flatMap (fun x => x.image.pages)

/-- The lowest `n` pages that no image takes (log entry 49). -/
def State.pagesFree (s : State) (n : Nat) : List Nat :=
  let used := s.pagesUsed
  ((List.range (used.length + n)).filter (fun p => !used.contains p)).take n

/-- Bytes written over the store at pages, encrypted unit by unit, the last unit padded with zeros (R131, R416). -/
def State.putImage (s : State) (asid : Nat) (keyed : Bool) (pages : List Nat) (image : List Byte) : State :=
  { s with mem := (List.range ((image.length + 63) / 64)).foldl (fun (m : Mems) i =>
      let a := unitAddr pages i
      m.setBytes (.hbm a) (aesXts (s.imageKey asid keyed) (s.gpaOf a / 64) true (slice image (64 * i) 64))) s.mem }

/-- An image written into the save store (R416), on pages no image takes. -/
def State.storeImage (s : State) (asid : Nat) (image : List Byte) : State × Stored :=
  let st : Stored := { pages := s.pagesFree ((image.length + 65535) / 65536), len := image.length, keyed := s.isKeyed asid }
  (s.putImage asid st.keyed st.pages image, st)

/-- A stored image as it was written: the units decrypted (R131, R416). -/
def State.storedImage (s : State) (asid : Nat) (st : Stored) : List Byte :=
  ((List.range ((st.len + 63) / 64)).flatMap (fun i =>
    let a := unitAddr st.pages i
    aesXts (s.imageKey asid st.keyed) (s.gpaOf a / 64) false (s.mem.bytes (.hbm a) 64))).take st.len

/-! ## Replies of a saved cluster (R412) -/

/-- The state with the stored image of a saved cluster replaced. -/
def State.setSavedImage (s : State) (n : Nat) (st : Stored) : State :=
  { s with disp := { s.disp with
      saved := s.disp.saved.map (fun (y : Saved) => if y.number = n then { y with image := st } else y) } }

/-- The FAULTCELL entry of a saved cluster's image is written again as its cells now stand. -/
def State.refreshCells (s : State) (n : Nat) : State :=
  match s.disp.saved.find? (fun x => x.number == n) with
  | none => s
  | some x =>
    let k := x.cluster
    let old := s.storedImage k.asid x.image
    let cells := s.cellEntries n k
    let len := x.cellsAt + (cells.flatten ++ endEntry).length
    let head := slice old 0 16 ++ leBytes 8 len ++ leBytes 4 (x.entriesBefore + cells.length + 1)
    let (s1, st) := (s.setSavedImage n { x.image with pages := [] }).storeImage k.asid
      (padTo head 64 ++ (old.take x.cellsAt).drop 64 ++ cells.flatten ++ endEntry)
    s1.setSavedImage n st

end Sys2Proof.Machine
end

