-- ==== Sys2Proof/Machine/FaultQueue.lean ====
section
/-! DEFINITION. Parking and the fault queue (R407 to R415): parking completes, records are written, link cells are followed,
and replies are taken in cell order and acted on. -/

namespace Sys2Proof.Machine

/-! ## Agents -/

/-- The command an agent names. -/
def State.cmdOf (s : State) (e : Nat) (iss : Issuer) (n : W32) : Option Cmd :=
  (s.queueOf e).find? (fun c => c.issuer == iss && c.n == n)

/-- The parking state of an agent (R408). -/
def State.parkOf (s : State) : AgentId → Option Park
  | .elem r site => some ((s.region r).site site).agent.park
  | .engine e iss n => (s.cmdOf e iss n).map Cmd.park

/-- The region an agent stands in, and its site (R417). -/
def agentRegion : AgentId → Nat
  | .elem r _ => r
  | .engine _ iss _ => issuerRegion iss
def agentSite : AgentId → Nat
  | .elem _ site => site
  | .engine _ _ _ => noSite

/-- An element copy's parking state written. -/
def State.setPark (s : State) (r site : Nat) (p : Park) : State :=
  let t := (s.region r).site site
  s.setRegion r ((s.region r).setSite site { t with agent := { t.agent with park := p } })

/-- PARK_COMPLETE (R407, R408): the accesses of a parking agent that can be performed have been. -/
def execParkComplete (agent : AgentId) (s : State) : Out :=
  .next (match agent with
    | .elem r site =>
      if ((s.region r).site site).agent.park = .parking ∧ (s.pendingOf r site).all s.isDeferred then s.setPark r site .parked
      else s
    | .engine e iss n =>
      match s.cmdOf e iss n with
      | some c => if c.park = .parking then s.setCmd e { c with park := .parked } else s
      | none => s)

/-! ## Records (R409, R410, R415) -/

/-- A link cell (R409). -/
def isLink (a : Nat) : Bool := a / 128 % 512 == 511

/-- A fault record as its granule holds it (R410). -/
def FaultRec.bytes (f : FaultRec) (seq : W64) : List Byte :=
  let engine := match f.agent with
    | .engine _ _ _ => 1
    | .elem _ _ => 0
  leBytes 1 f.cls ++ leBytes 1 engine ++ leBytes 2 f.who ++ leBytes 1 f.cidx ++ leBytes 1 f.acc ++ leBytes 2 f.cfgid ++
  leBytes 8 f.addr ++ wordBytes seq ++ ((f.j ++ List.replicate 5 0#32).take 5).flatMap (fun x => leBytes 4 x.toNat) ++
  leBytes 4 f.errrec.toNat

/-- A fault record's cluster aborts with a class (R412, R415). -/
def State.abortFor (s : State) (f : FaultRec) (cls : Nat) : State :=
  s.fatalFault f.cluster cls (agentRegion f.agent) (agentSite f.agent)

/-- FAULT_RECORD_WRITE (R409, R410, R415): the next record of an ASID is written in its next cell; a write that fails, or a
record at a link without a next cell, aborts its cluster. -/
def execFaultRecordWrite (asid : Nat) (s : State) : Out :=
  match s.aspace? asid with
  | none => .next s
  | some a =>
    match a.waiting with
    | [] => .next s
    | f :: rest =>
      let gone : Aspace := { a with waiting := rest, fqseq := a.fqseq + 1#64 }
      if isLink a.fqNext then
        if a.fqStuck then .next ((s.setAspace asid gone).abortFor f 0x13) else .next s
      else
        let moved : Aspace := { gone with fqNext := (a.fqNext + 128) % 2 ^ 64 }
        match s.saStore asid a.fqNext (padTo (f.bytes a.fqseq) 64) with
        | (s1, true) =>
          .next (s1.setAspace asid
            { moved with cells := a.cells ++ [{ addr := a.fqNext, seq := a.fqseq, recd := f, reply := none }] })
        | (s1, false) => .next ((s1.setAspace asid moved).abortFor f 0x13)

/-- FQ_LINK_READ (R409): the dispatcher reads the link granule its chain has reached. -/
def execFqLinkRead (asid : Nat) (s : State) : Out :=
  match s.aspace? asid with
  | none => .next s
  | some a =>
    let rd : Reader := .fqLink asid
    let stuck (s : State) : Out := .next ((s.dropReads (fun r => r == rd)).setAspace asid { a with fqStuck := true })
    if !isLink a.fqNext || a.fqStuck then .next s
    else
      match s.translateRead rd asid a.fqNext .read with
      | (s1, .ok p true) =>
        match s1.loadAt rd asid p true 64 (some a.fqNext) with
        | (s2, .wait) => .next s2
        | (s2, .void) => stuck s2
        | (s2, .ok bs) =>
          let next := fieldLe bs 0 8
          if next % 64 ≠ 0 then stuck s2
          else .next ((s2.dropReads (fun r => r == rd)).setAspace asid { a with fqNext := next })
      | (s1, _) => stuck s1

/-! ## Replies (R411, R412) -/

/-- A reply (R411). -/
inductive Reply where
  | resume
  | abort
  | substitute (addr : Nat)
  | bad
  deriving DecidableEq, Repr

/-- A reply from its 64 bytes, for a record's class (R411). -/
def replyOf (cls : Nat) (b : List Byte) : Reply :=
  let subst := fieldLe b 8 8
  if fieldLe b 1 7 ≠ 0 ∨ fieldLe b 16 48 ≠ 0 then .bad
  else
    match fieldLe b 0 1 with
    | 1 => if subst = 0 then .resume else .bad
    | 2 => if subst = 0 then .abort else .bad
    | 3 => if subst % 64 = 0 ∧ cls = clsPoison then .substitute subst else .bad
    | _ => .bad

/-- Where the cluster of a cell stands: gone or aborted, saved, in a snapshot, or placed. -/
inductive Stand where
  | gone | saved | frozen | placed
  deriving DecidableEq, Repr

/-- Where a cluster stands. -/
def State.standOf (s : State) (n : Nat) : Stand :=
  match s.cluster? n with
  | some k => if k.abort.isSome then .gone else if k.snap.isSome then .frozen else .placed
  | none => if s.disp.saved.any (fun x => x.number == n) then .saved else .gone

/-! ## What replies do (R408, R413, R414) -/

/-- The index among an owner's tokens of the one taken at a port. -/
def Ctx.tokIndex (c : Ctx) (port : Nat) : Nat :=
  if c.recd.isOp .ow 0xA then (if port = 0 then 0 else c.ow.toks.length - 1) else (indexOf? c.ports port).getD 0

/-- A poisoned token is discarded (R414). -/
def resumePoison (c : Ctx) (k : Nat) (h : HeldToken) : Ctx :=
  let c0 := c.setAgent k { c.agent k with heldTok := none }
  match c.recd.kind with
  | .ag =>
    if c.recd.opc = 6 ∨ c.recd.opc = 7 then c0.setAg k { c0.ag k with past := true }
    else if c.recd.opc = 4 ∧ h.port = 0 then
      c0.setAg k { c0.ag k with bad := some h.token, isOpen := !c.desc.isEmpty }
    else (c0.notWritten k).passStore k (c.recd.opc == 4)
  | .ow => c0.setOw { c0.ow with skip := true }
  | .br => (c0.notWritten 0).rstoreDone
  | _ => c0

/-- A poisoned token takes another payload and is clean (R414). -/
def substitutePoison (c : Ctx) (k : Nat) (h : HeldToken) (payload : Beat) : Ctx :=
  let t := dataTok payload
  if c.recd.kind = .ag then c.setAgent k { c.agent k with heldTok := some { h with token := t } }
  else
    let c0 := c.setAgent k { c.agent k with heldTok := none }
    c0.setOw { c0.ow with toks := c0.ow.toks.set (c0.tokIndex h.port) t }

/-- A parked copy replays, its held token dealt with by `f`. -/
def wakeCopy (s : State) (r site : Nat) (f : Ctx → Nat → HeldToken → Ctx) : State :=
  match copyCtx s r site with
  | none => s
  | some (c, k) =>
    let c1 := match (c.agent k).heldTok with
      | some h => if c.recd.kind = EKind.hd then c else f c k h
      | none => c
    (c1.setAgent k { c1.agent k with park := .replaying }).back s

/-- RESUME (R413, R414). -/
def resumeAgent (s : State) : AgentId → State
  | .elem r site => wakeCopy s r site resumePoison
  | .engine e iss n =>
    match s.cmdOf e iss n with
    | some c => s.setCmd e { c with park := .replaying }
    | none => s

/-- SUBSTITUTE (R414): the beat is read through the ASID; `none` while its granule is EMPTY. -/
def substituteAgent (s : State) (rd : Reader) (asid : Nat) (f : FaultRec) (addr : Nat) : State × Bool :=
  match f.agent with
  | .engine _ _ _ => (s, true)
  | .elem r site =>
    match s.translateRead rd asid addr .read with
    | (s1, .ok p sa) =>
      if s1.eccAt p then (s1.abortFor f 0x13, true)
      else
        match s1.loadAt rd asid p sa 64 (some addr) with
        | (s2, .wait) => (s2, false)
        | (s2, .void) => (s2.abortFor f 0x13, true)
        | (s2, .ok bs) => (wakeCopy (s2.charge (some f.cluster) p) r site (fun c k h => substitutePoison c k h (beatOf bs)), true)
    | (s1, _) => (s1.abortFor f 0x13, true)

/-- ABORT (R408): the element's cluster aborts, or the command ends ABORTED. -/
def abortAgent (s : State) (f : FaultRec) : State :=
  match f.agent with
  | .elem _ _ => s.abortFor f 0x14
  | .engine e iss n =>
    match s.cmdOf e iss n with
    | some c => cmdAbort s e c
    | none => s

/-- A reply is acted on; `false` when a substitute's granule is still EMPTY. -/
def actReply (s : State) (rd : Reader) (asid : Nat) (f : FaultRec) : Reply → State × Bool
  | .resume => (resumeAgent s f.agent, true)
  | .abort => (abortAgent s f, true)
  | .substitute a => substituteAgent s rd asid f a
  | .bad => (s.abortFor f 0x15, true)

/-! ## Taking a reply (R412) -/

/-- The oldest cell of an ASID whose reply has not been taken. -/
def Aspace.oldest (a : Aspace) : Option FqCell := a.cells.find? (fun c => c.reply.isNone)

/-- A cell is answered and forgotten. -/
def State.dropCell (s : State) (asid : Nat) (c : FqCell) : State :=
  let s1 := s.dropReads (fun r => r == (if c.reply.isSome then .fqTaken asid c.seq else .fqReply asid))
  match s1.aspace? asid with
  | none => s1
  | some a => s1.setAspace asid { a with cells := a.cells.filter (fun x => x.seq != c.seq) }

/-- The reply of a saved cluster is recorded with its cell in the save image (R412). -/
def State.recordReply (s : State) (asid : Nat) (c : FqCell) (bs : List Byte) : State :=
  let s1 := s.dropReads (fun r => r == .fqReply asid)
  match s1.aspace? asid with
  | none => s1
  | some a =>
    (s1.setAspace asid
      { a with cells := a.cells.map (fun x => if x.seq = c.seq then { x with reply := some bs } else x) }).refreshCells c.recd.cluster

/-- The dispatcher's read of a reply granule. -/
inductive ReplyRead where
  | failed
  | wait
  | got (bs : List Byte)

/-- Reads the reply granule of a cell (R412). -/
def State.readReply (s : State) (asid : Nat) (c : FqCell) : State × ReplyRead :=
  match s.translateRead (.fqReply asid) asid (c.addr + 64) .read with
  | (s1, .ok p true) =>
    match s1.loadAt (.fqReply asid) asid p true 64 (some (c.addr + 64)) with
    | (s2, .wait) => (s2, .wait)
    | (s2, .void) => (s2, .failed)
    | (s2, .ok bs) => (s2, .got bs)
  | (s1, _) => (s1, .failed)

/-- A reply recorded while its cluster was saved is acted on where the cluster now stands (R412, R430), if it is one that the
event serves. The flag says whether the cells behind it may be served: not while this one is owed, as when its substitute's
granule is EMPTY or its cluster is in a snapshot; the reply of a cluster still saved holds none back. -/
def actRecorded (s : State) (asid : Nat) (mine : Bool) (c : FqCell) (bs : List Byte) : State × Bool :=
  match s.standOf c.recd.cluster with
  | .gone => (s.dropCell asid c, true)
  | .saved => (s, true)
  | .frozen => (s, false)
  | .placed =>
    if !mine then (s, false)
    else
      match actReply s (.fqTaken asid c.seq) asid c.recd (replyOf c.recd.cls bs) with
      | (s1, true) => (s1.dropCell asid c, true)
      | (s1, false) => (s1, false)

/-- The recorded replies among cells are acted on in cell order, as far as the first that is owed and not acted on. -/
def State.actCells (asid : Nat) (mine : FqCell → Reply → Bool) : List FqCell → State → State × Bool
  | [], s => (s, true)
  | c :: rest, s =>
    match c.reply with
    | none => actCells asid mine rest s
    | some bs =>
      match actRecorded s asid (mine c (replyOf c.recd.cls bs)) c bs with
      | (s1, true) => actCells asid mine rest s1
      | r => r

/-- The recorded replies of an address space that an event serves are acted on, in cell order (R412). -/
def State.actOwed (s : State) (asid : Nat) (mine : FqCell → Reply → Bool) : State × Bool :=
  State.actCells asid mine (((s.aspace? asid).map Aspace.cells).getD []) s

/-- A reply that an event takes: `mine` names the replies it serves; none while a recorded reply is owed. The reply of a cluster
that has aborted is ignored, that of a saved one is recorded, that of one in a snapshot waits, and that of an agent not yet
PARKED waits. -/
def takeReply (s0 : State) (asid : Nat) (mine : Reply → Bool) : State :=
  let (s, clear) := s0.actOwed asid (fun _ r => mine r)
  match (s.aspace? asid).bind Aspace.oldest, clear with
  | none, _ => s
  | _, false => s
  | some c, true =>
    let f := c.recd
    match s.readReply asid c with
    | (s1, .wait) => s1
    | (s1, .failed) => if mine .bad then (s1.dropCell asid c).abortFor f 0x13 else s
    | (s1, .got bs) =>
      let r := replyOf f.cls bs
      if !mine r then s1
      else
        match s1.standOf f.cluster with
        | .gone => s1.dropCell asid c
        | .saved => s1.recordReply asid c bs
        | .frozen => s1
        | .placed =>
          if s1.parkOf f.agent ≠ some .parked ∧ r ≠ .bad then s1
          else
            match actReply s1 (.fqReply asid) asid f r with
            | (s2, true) => s2.dropCell asid c
            | (s2, false) => s2

/-- RESUME (R412, R413, R414). -/
def execResume (asid : Nat) (s : State) : Out := .next (takeReply s asid (fun r => r == .resume))

/-- SUBSTITUTE (R412, R414). -/
def execSubstitute (asid : Nat) (s : State) : Out :=
  .next (takeReply s asid (fun r => match r with
    | .substitute _ => true
    | _ => false))

/-- ABORT (R408, R411, R412): the replies that abort, a reply that is malformed, and a reply that cannot be read. -/
def execAbort (asid : Nat) (s : State) : Out := .next (takeReply s asid (fun r => r == .abort || r == .bad))

end Sys2Proof.Machine
end

