-- ==== Sys2Proof/Machine/Snapshot.lean ====
section
/-! DEFINITION. The comma snapshot (R420 to R429): when it is complete, the save image, and what follows it: a checkpoint thaws
in place, a pre-empted cluster goes into the save store. -/

namespace Sys2Proof.Machine

/-! ## When it is complete (R423, R424) -/

/-- A command has quiesced (R423): its issuer's first command at the engine is parked, or waits on an EMPTY granule. -/
def State.cmdQuiet (s : State) (e : Nat) (c : Cmd) : Bool :=
  match (s.queueOf e).find? (fun x => x.issuer == c.issuer) with
  | some f => f.park == .parked || s.ports.reads.any (fun r => r.reader == .engine e f.issuer f.n && r.answer.isNone)
  | none => true

/-- Every engine command of a cluster has ended or quiesced. -/
def State.enginesQuiet (s : State) (n : Nat) : Bool :=
  s.engines.all (fun q => q.2.all (fun c => c.cluster != some n || s.cmdQuiet q.1 c))

/-- A region has frozen: its sequencer executes nothing, and every element that runs a record is frozen. -/
def Region.hasFrozen (x : Region) : Bool :=
  x.core.run != .running && x.sites.all (fun t => (!t.2.busy || t.2.frozen) && t.2.agent.park != .parking)

/-- A snapshot is complete (R424). -/
def State.snapReady (s : State) (n : Nat) (k : Cluster) : Bool :=
  k.regions.all (fun r => (s.region r).hasFrozen) && s.ports.pend.all (fun a => a.cluster != n) && s.enginesQuiet n

/-- Frozen copies' deferred loads go back to their replay buffers (R423). -/
def State.quiesce (s : State) (k : Cluster) : State :=
  k.regions.foldl (fun s r =>
    ((s.region r).sites.filter (fun t => t.2.frozen)).foldl (fun s t => quiesceSite s r t.1) s) s

/-- Unanswered reads of the commands of a cluster are withdrawn (R423). -/
def State.dropDeferred (s : State) (n : Nat) : State :=
  let mine (x : Reader) : Bool := match x with
    | .engine e iss m => (s.cmdOf e iss m).any (fun c => c.cluster == some n)
    | _ => false
  { s with ports := { s.ports with reads := s.ports.reads.filter (fun r => r.answer.isSome || !mine r.reader) } }

/-- Every COMMA and comma flag of a region is removed (R424). -/
def Region.uncomma (x : Region) : Region :=
  { x with
    arcs := (x.arcs.map (fun a => (a.1, { a.2 with comma := false }))).filter (fun a => a.2 != Arc.empty)
    sites := x.sites.map (fun t => (t.1, { t.2 with deliv := t.2.deliv.filter (fun d => d.2.kind != .comma) })) }

/-! ## The partition by offset (R140) -/

/-- The partition offset of a byte of a bank. -/
def partOffset (banks : List Nat) (key : Nat) : Option Nat :=
  (indexOf? banks (key / bankBytes)).map (fun i =>
    (key % bankBytes / 4096 * banks.length + i) * 4096 + key % 4096)

/-- The listed bytes of a partition by offset. -/
def State.partBytes (s : State) (banks : List Nat) : List Host.Cell :=
  s.mem.bank.foldl (fun l c => match partOffset banks c.1 with
    | some o => Memory.write l o c.2
    | none => l) []

/-- The presence of a partition's granules by offset / 64. -/
def State.partGst (s : State) (banks : List Nat) : Table Gst :=
  s.mem.gstBank.foldl (fun t g => match partOffset banks (g.1 * 64) with
    | some o => Table.put t (o / 64) g.2
    | none => t) []

/-- The live lines of a cluster's tile stores, by CLUSTER_INDEX, tile and offset (R429). -/
def State.liveBytes (s : State) (k : Cluster) : List Host.Cell :=
  s.mem.tile.foldl (fun l c =>
    let unit := c.1 / tileBytes
    match indexOf? k.regions (unit / 64) with
    | some i =>
      if (s.region (unit / 64)).lineLive k.dx k.dy (unit % 64) (c.1 % tileBytes / 64) then
        Memory.write l ((i * 64 + unit % 64) * tileBytes + c.1 % tileBytes) c.2
      else l
    | none => l) []

/-! ## The image (R426 to R429) -/

/-- Runs of live lines with their bytes (R429). -/
def State.lineRuns (s : State) (r tile : Nat) (l : List (Nat × Nat)) : List Byte :=
  l.flatMap (fun p => leBytes 2 p.1 ++ leBytes 2 p.2 ++ s.mem.bytes (.tile r tile (64 * p.1)) (64 * p.2))

/-- The STORE payload of a tile (R427, R429): the rows of R290 other than the lines, then the live extents. -/
def State.storePayload (s : State) (r tile : Nat) (lines : List Nat) : List Byte :=
  let ts := (s.region r).tileStore tile
  ts.wordItem ++ ts.multiItem ++ ts.fifoItem ++ ts.lineItem ++ s.lineRuns r tile (runsOf lines)

/-- The CLUSTER payload (R427): the barrier, the semaphores that the cluster's regions hold as a mask with each holder's
CLUSTER_INDEX, SNAP_COUNT, and the energy accumulator (R461). -/
def State.clusterPayload (s : State) (k : Cluster) : List Byte :=
  let held := s.disp.sems.filter (fun e => k.regions.any e.2.heldBy)
  laid 26 ([k.barArrived.toNat, k.barGen.toNat, held.foldl (fun m e => m + 2 ^ e.1) 0] ++
    held.map (fun e => k.indexOf e.2.holder) ++ [k.snapCount.toNat, k.energy.toNat])

/-- The CSRs of a sequencer that stand outside its own registers (R154, R164), as numbers: CLUSTER_INDEX to LAUNCH_ARG3, CFG_STATUS
and ENERGY_UJ. -/
def State.sequencerCsrs (s : State) (r : Nat) : List Nat :=
  [0x000, 0x001, 0x002, 0x003, 0x004, 0x005, 0x006, 0x007, 0x011, 0x018].map (fun n =>
    ({ s with cur := .seq r }.csrRead (BitVec.ofNat 12 n)).toNat)

/-- The entries of one region (R427); an element is one that runs a record, or has one to adopt (R492). -/
def State.regionEntries (s : State) (k : Cluster) (cidx r : Nat) : List (List Byte) :=
  let x := s.region r
  [imageEntry 2 cidx 0 0 (laid 27 (x.core.fields ++ s.sequencerCsrs r)), imageEntry 3 cidx 0 0 x.cachePayload] ++
  (x.sites.filter (fun t => t.2.hasRecord)).map (fun t =>
    imageEntry 4 cidx t.1 ((t.2.active.map Loaded.cfgid).getD 0) (elementRows t.1 t.2).flatten) ++
  x.committed.flatMap (fun e => e.cfg.arcs.zipIdx.map (fun a =>
    imageEntry 5 cidx a.2 e.cfgid ((x.arc e.cseq a.2).payload a.1.slots (x.ahead e a.1)))) ++
  memoryTiles.filterMap (fun t =>
    let l := x.liveLines k.dx k.dy t
    if l.isEmpty && (x.tileStore t).regions.isEmpty then none
    else some (imageEntry 6 cidx t 0 (s.storePayload r t l)))

/-- The PARTITION payload (R427): PART with PSA in bit 15; the presence of each granule; the bytes. -/
def State.partPayload (s : State) (k : Cluster) : List Byte :=
  let n := k.banks.length * bankBytes
  let place (o : Nat) : Place := (islandPlace k.banks o).getD (.bank 0 0)
  let four (i : Nat) : Nat :=
    (List.range 4).foldl (fun v j => v + 4 ^ j * (s.mem.gst (place (64 * (4 * i + j)))).code) 0
  leBytes 2 k.recd.part.toNat ++
  (if k.recd.psa then (List.range (n / 256)).map (fun i => BitVec.ofNat 8 (four i)) else []) ++
  (List.range n).map (fun o => s.mem.byte (place o))

/-- The ENGINE entries of a cluster (R427), by ascending engine: each lists the cluster's commands there in queue order; none stands
for an engine without one (R492). -/
def State.engineEntries (s : State) (n : Nat) : List (List Byte) :=
  s.engines.filterMap (fun q =>
    match q.2.filter (fun c => c.cluster == some n) with
    | [] => none
    | l => some (imageEntry 8 0 q.1 0 (laid 28 (listFields Cmd.fields l))))

/-- The entries of a cluster's image before its FAULTCELL entry (R427). -/
def State.imageEntries (s : State) (n : Nat) (k : Cluster) : List (List Byte) :=
  [imageEntry 1 0 0 0 (s.clusterPayload k)] ++ k.regions.zipIdx.flatMap (fun r => s.regionEntries k r.2 r.1) ++
  [imageEntry 7 0 0 0 (s.partPayload k)] ++ s.engineEntries n

/-- The save image of a cluster (R426, R427). -/
def State.saveImage (s : State) (n : Nat) (k : Cluster) (checkpoint : Bool) (number : W32) : List Byte :=
  let l := s.imageEntries n k ++ s.cellEntries n k ++ [endEntry]
  imageHeader k number checkpoint (64 + l.flatten.length) l.length ++ l.flatten

/-! ## What follows (R382, R424, R461) -/

/-- A region thaws (R413, R424): its sequencer runs, its elements fire, and a copy that holds cancelled accesses replays
them. -/
def Region.thaw (x : Region) : Region :=
  { x with
    core := if x.core.run = .frozen then { x.core with run := .running } else x.core
    sites := x.sites.map (fun t =>
      let g := t.2.agent
      let woken := t.2.frozen && g.park == .running && !g.replay.isEmpty
      (t.1, { t.2 with frozen := false, agent := if woken then { g with park := .replaying } else g })) }

/-- The granules of a save or a restore, in nJ (R460, R461): the image in HBM and the partition's granules. -/
def moveEnergy (image : Stored) (k : Cluster) : W64 :=
  BitVec.ofNat 64 (2 * ((image.len + 63) / 64) + 4096 * k.banks.length)

/-- The semaphores of a cluster stay held while it is saved, under their holder codes (R382). -/
def State.parkSems (s : State) (n : Nat) (k : Cluster) : State :=
  { s with disp := { s.disp with
      sems := s.disp.sems.map (fun e => (e.1, if k.regions.any e.2.heldBy then { e.2 with kept := some n } else e.2)) } }

/-- The commands of a cluster by engine. -/
def State.commandsOf (s : State) (n : Nat) : List (Nat × Cmd) :=
  s.engines.flatMap (fun q => (q.2.filter (fun c => c.cluster == some n)).map (fun c => (q.1, c)))

/-- Clusters saved, in the order they were first placed. -/
def insertSaved (x : Saved) (l : List Saved) : List Saved := insertBy Saved.number x l

/-- A pre-empted cluster goes into the save store and its regions and banks are free (R133, R142, R424). -/
def State.saveCluster (s : State) (n : Nat) (k : Cluster) (image : Stored) (cellsAt entries : Nat) : State :=
  let s1 := s.parkSems n k
  let cmds := s1.commandsOf n
  let s2 := cmds.foldl (fun s c => s.dropCmd c.1 c.2) s1
  let sv : Saved :=
    { number := n, cluster := { k with snap := none, checkpoint := none }, regions := k.regions.map s2.region
      bytes := s2.partBytes k.banks, gst := s2.partGst k.banks, lines := s2.liveBytes k, cmds := cmds
      image := image, cellsAt := cellsAt, entriesBefore := entries }
  let s3 := k.regions.foldl State.freeRegion (s2.dropPorts k.regions)
  { s3 with disp := { s3.disp with
      clusters := Table.del s3.disp.clusters n, saved := insertSaved sv s3.disp.saved } }

/-- SNAPSHOT_COMPLETE (R424). -/
def execSnapshotComplete (cluster : Nat) (s : State) : Out :=
  match s.cluster? cluster with
  | none => .next s
  | some k =>
    match k.snap with
    | none => .next s
    | some sn =>
      let s1 := s.quiesce k
      if !s1.snapReady cluster k then .next s1
      else
        let s2 := k.regions.foldl (fun s r => s.mapRegion r Region.uncomma) (s1.dropDeferred cluster)
        let k1 := { k with snapCount := k.snapCount + 1#32 }
        let front := s2.imageEntries cluster k1
        let k0 := { k1 with checkpoint := none }
        let (s3, image) := (s2.setCluster cluster k0).storeImage k.asid (s2.saveImage cluster k1 sn.preempt.isNone sn.number)
        let k2 := { k0 with energy := k1.energy + moveEnergy image k }
        .next (if sn.preempt.isSome then s3.saveCluster cluster k2 image (64 + front.flatten.length) front.length
          else
            (k.regions.foldl (fun s r => s.mapRegion r Region.thaw) s3).setCluster cluster
              { k2 with snap := none, checkpoint := some image })

end Sys2Proof.Machine
end

