-- ==== Sys2Proof/Machine/Arbitration.lean ====
section
/-! DEFINITION. Arbitration and placement (R115, R116, R127, R133, R136 to R145, R416, R419, R430, R431): a round places ready
heads, restores saved clusters, and chooses victims. -/

namespace Sys2Proof.Machine

/-! ## Room (R137, R139, R416) -/

/-- A region that no cluster holds. -/
def State.regionFree (s : State) (r : Nat) : Bool := (s.region r).cluster.isNone

/-- Eligible regions for a caravan (R137, R138), those of victims counted free: reserved to it first when `own`. -/
def State.eligible (s : State) (car : Nat) (victims : List Nat) (r : Nat) : Bool :=
  (s.regionFree r || victims.contains r) && (match Table.find? s.disp.reserved r with
    | none => true
    | some c => c == car)

/-- The first `n` eligible regions of a list, those reserved to the caravan first, in ascending order (R137). -/
def State.takeRegions (s : State) (car : Nat) (victims : List Nat) (l : List Nat) (n : Nat) : Option (List Nat) :=
  let e := l.filter (s.eligible car victims)
  let mine := e.filter (fun r => (Table.find? s.disp.reserved r).isSome)
  let rest := e.filter (fun r => (Table.find? s.disp.reserved r).isNone)
  let got := (mine ++ rest).take n
  if got.length = n then some (sortBy id got) else none

/-- The regions of a rectangle in CLUSTER_INDEX order (R137). -/
def rectRegions (die ry rx w h : Nat) : List Nat :=
  (List.range h).flatMap (fun j => (List.range w).map (fun i => die * 32 + (ry + j) * 8 + (rx + i)))

/-- The rectangles of a shape, by die, then ry, then rx (R137). -/
def rectangles (w h : Nat) : List (List Nat) :=
  (List.range 4).flatMap (fun d => (List.range (5 - h)).flatMap (fun ry => (List.range (9 - w)).map (fun rx =>
    rectRegions d ry rx w h)))

/-- The regions a record takes (R137). -/
def State.chooseRegions (s : State) (car : Nat) (victims : List Nat) (l : LaunchRec) : Option (List Nat) :=
  match l.shapeCode with
  | 0 => s.takeRegions car victims (List.range 128) l.size
  | 1 => (List.range 4).findSome? (fun d => s.takeRegions car victims ((List.range 32).map (fun r => 32 * d + r)) l.size)
  | _ => (rectangles l.width l.height).find? (fun q => q.all (s.eligible car victims))

/-- Banks that a cluster holds. -/
def State.bankHeld (s : State) (b : Nat) : Bool := s.disp.clusters.any (fun k => k.2.banks.contains b)

/-- The bank list of a partition (R139): the dies of the cluster's regions first. -/
def State.chooseBanks (s : State) (victims : List Nat) (regions : List Nat) (n : Nat) : Option (List Nat) :=
  let own := (List.range 4).filter (fun d => regions.any (fun r => r / 32 == d))
  let dies := own ++ (List.range 4).filter (fun d => !own.contains d)
  let free := dies.flatMap (fun d => ((List.range 256).map (fun b => 256 * d + b)).filter (fun b =>
    !s.bankHeld b || victims.contains b))
  let got := free.take n
  if got.length = n then some got else none

/-- The bound B on a cluster's save image (R416). -/
def imageBound (l : LaunchRec) : Nat := 2 ^ 24 * l.size + 2 ^ 18 * l.banks + 2 ^ 24

/-- What an image holds of the save store (R416). -/
def Saved.room (x : Saved) : Nat := (x.image.len + 65535) / 65536 * 65536

/-- Reservations and images held in the save store (R416). -/
def State.storeHeld (s : State) : Nat :=
  s.disp.clusters.foldl (fun n k => n + imageBound k.2.recd) 0 + s.disp.saved.foldl (fun n x => n + x.room) 0

/-- A record with its caravan's claim fits (R115, R136): regions, banks, and room in the save store beside what is held less
`back`; the regions and banks of victims count as free. -/
def State.fit (s : State) (car : Nat) (l : LaunchRec) (back : Nat) (vr vb : List Nat) : Option (List Nat × List Nat) :=
  match s.chooseRegions car vr l with
  | none => none
  | some rs =>
    match s.chooseBanks vb rs l.banks with
    | none => none
    | some bs => if s.storeHeld + imageBound l - back ≤ 2 ^ 34 then some (rs, bs) else none

/-! ## Partitions (R133, R141) -/

/-- The banks read zero and are EMPTY. -/
def Mems.zeroBanks (m : Mems) (l : List Nat) : Mems :=
  { m with
    bank := m.bank.filter (fun c => !l.contains (c.1 / bankBytes))
    gstBank := m.gstBank.filter (fun g => !l.contains (g.1 * 64 / bankBytes)) }

/-- Banks are handed to an ASID (R133, R141): zeroed when another held them last, or for a single-assignment partition. -/
def State.handBanks (s : State) (asid : Nat) (psa : Bool) (l : List Nat) : State :=
  let z := l.filter (fun b => psa || Table.find? s.disp.bankAsid b != some asid)
  { s with
    mem := s.mem.zeroBanks z
    disp := { s.disp with bankAsid := l.foldl (fun t b => Table.put t b asid) s.disp.bankAsid } }

/-! ## A new launch (R127, R136) -/

/-- An event extends a measurement log (R127). -/
def Aspace.extend (a : Aspace) (kind id : Nat) (digest : BitVec 384) : Aspace :=
  { a with
    logh := vec384 (sha384 (bytes384 a.logh ++ beBytes 1 kind ++ beBytes 2 id ++ bytes384 digest)), logn := a.logn + 1#32 }

/-- An image is logged before it is first placed in its address space (R127). -/
def State.logImage (s : State) (asid : Nat) (h : Header) (configs : List (Nat × BitVec 384)) : State :=
  match s.aspace? asid with
  | none => s
  | some a =>
    if a.logged.contains h.digest then s
    else
      let a1 := configs.foldl (fun (a : Aspace) (c : Nat × BitVec 384) => a.extend 2 c.1 c.2) (a.extend 1 0 h.digest)
      s.setAspace asid { a1 with logged := a1.logged ++ [h.digest] }

/-- A region is bound to a cluster and its sequencer starts at byte 0 of the program (R136). -/
def Region.start (x : Region) (n : Nat) : Region := { x with cluster := some n, core := { Core.init with run := .running } }

/-- A ready head is placed (R136), and its caravan moves on (R110). -/
def State.placeNew (s : State) (car : Nat) (l : LaunchRec) (h : Header) (rs bs : List Nat) : State :=
  let x := s.caravan car
  let n := s.disp.nextCluster
  let k : Cluster :=
    { caravan := car, asid := x.asid, recd := l, header := h, regions := rs, banks := bs, dx := 0, dy := 0
      barArrived := 0#128, barGen := 0#32, snapCount := 0#32, energy := 0#64, placedTick := s.pow.tick, order := n
      abort := none, snap := none, checkpoint := none }
  let s1 := (s.handBanks x.asid l.psa bs).logImage x.asid h x.configs
  let s2 := rs.foldl (fun s r => s.mapRegion r (fun y => y.start n))
    { s1.setCluster n k with disp := { (s1.setCluster n k).disp with nextCluster := n + 1 } }
  s2.advanceCaravan car l.next

/-! ## A restore (R145, R213, R382, R430, R431) -/

/-- The offset a restore asks for (R431): the table's when it is valid, else the image's. -/
def State.restoreOffset (s : State) (car : Nat) (k : Cluster) : Int × Int :=
  let a := 0x1FF800 + 4 * car
  let dx := signed (s.sramNat (a + 1) 1) 8
  let dy := signed (s.sramNat (a + 2) 1) 8
  if s.sramNat a 1 % 2 = 1 ∧ -7 ≤ dx ∧ dx ≤ 7 ∧ -7 ≤ dy ∧ dy ≤ 7 ∧ (dx + dy) % 2 = 0 then (dx, dy) else (k.dx, k.dy)

/-- What the checks of a restore give (R213, R430): their result, a rejection, or an image that cannot be read yet, since one of
its granules is EMPTY. -/
inductive Recheck (α : Type) where
  | ok (x : α)
  | rejected
  | waits
  deriving DecidableEq, Repr

/-- The images of a region's committed instances are read and checked again (R213): each with its place in commit order. -/
def State.recheck (s : State) (n : Nat) (k : Cluster) (r : Nat) : List Entry → State × Recheck (List (Nat × Cfg))
  | [] => (s, .ok [])
  | e :: rest =>
    match s.fetchImage (.core (.seq r)) n k r e.cfgid with
    | (s1, .ok cfg _) =>
      match State.recheck s1 n k r rest with
      | (s2, .ok l) => (s2, .ok ((e.cseq, cfg) :: l))
      | (s2, x) => (s2, x)
    | (s1, .wait) => (s1, .waits)
    | (s1, _) => (s1, .rejected)

/-- Those of every region of the cluster. -/
def State.recheckAll (s : State) (n : Nat) (k : Cluster) : List (Nat × Region) → State × Recheck (List (List (Nat × Cfg)))
  | [] => (s, .ok [])
  | (r, x) :: rest =>
    match s.recheck n k r x.committed with
    | (s1, .rejected) => (s1, .rejected)
    | (s1, .waits) => (s1, .waits)
    | (s1, .ok l) =>
      match State.recheckAll s1 n k rest with
      | (s2, .ok m) => (s2, .ok (l :: m))
      | (s2, x) => (s2, x)

/-- A tile and a site moved by a number of tiles (R144). -/
def moveTile (d : Int) (t : Nat) : Nat := ((t : Int) + d).toNat
def moveSite (d : Int) (n : Nat) : Nat := ((n : Int) + 8 * d).toNat

/-- A record register under new words. -/
def Loaded.under (l : Loaded) (site : Nat) (cfgs : List (Nat × Cfg)) : Loaded :=
  { l with recd := if l.recd.isNone then none else
      match Table.find? cfgs l.cseq with
      | some c => (c.recAt site).map Prod.fst
      | none => l.recd }

/-- An access held in a replay buffer, moved. -/
def Access.moved (a : Access) (d : Int) (r : Nat) : Access :=
  { a with
    region := r, site := moveSite d a.site, place := none, page := none
    space := match a.space with
      | .tile t => .tile (moveTile d t)
      | sp => sp }

/-- Operation state that names sites, moved. -/
def OpState.moved (d : Int) : OpState → OpState
  | .br l => .br (l.map (fun i => match i with
      | .cmd q m sc => .cmd (moveSite d q) m sc
      | i => i))
  | o => o

/-- A region of a saved cluster under its new place and words (R144, R430): FETCHED entries and prefetches are gone; the power
controller's requests are those of the region it now stands in. -/
def restoreRegion (n r : Nat) (d : Int) (cfgs : List (Nat × Cfg)) (old cur : Region) : Region :=
  { old with
    cluster := some n, prefetch := [], meters := cur.meters, sig := cur.sig, droop := cur.droop, hold := cur.hold
    cache := old.committed.map (fun e => match Table.find? cfgs e.cseq with
      | some c => { e with cfg := c }
      | none => e)
    tiles := old.tiles.map (fun t => (moveTile d t.1, t.2))
    sites := old.sites.map (fun t =>
      let site := moveSite d t.1
      let g := t.2.agent
      (site, { t.2 with
        active := t.2.active.map (fun l => l.under site cfgs), next := t.2.next.map (fun l => l.under site cfgs)
        op := t.2.op.moved d, agent := { g with replay := g.replay.map (fun a => a.moved d r) } })) }

/-- The partition and the lines of a saved cluster are written back (R429, R430). -/
def State.restoreMem (s : State) (sv : Saved) (k : Cluster) (d : Int) : State :=
  let s1 := s.handBanks k.asid true k.banks
  let m1 := sv.bytes.foldl (fun (m : Mems) c => match islandPlace k.banks c.1 with
    | some p => m.setBytes p [c.2]
    | none => m) s1.mem
  let m2 := sv.gst.foldl (fun (m : Mems) g => match islandPlace k.banks (64 * g.1) with
    | some p => m.setGst p g.2
    | none => m) m1
  let m3 := sv.lines.foldl (fun (m : Mems) c =>
    let unit := c.1 / tileBytes
    m.setBytes (.tile (k.regions.getD (unit / 64) 0) (moveTile d (unit % 64)) (c.1 % tileBytes)) [c.2]) m2
  { s1 with mem := m3 }

/-- A region of a saved cluster is now another. -/
def Saved.regionNow (sv : Saved) (k : Cluster) (r : Nat) : Nat := k.regions.getD (sv.cluster.indexOf r) r

/-- The issuer of a command, moved. -/
def moveIssuer (sv : Saved) (k : Cluster) (d : Int) : Issuer → Issuer
  | .core (.seq r) => .core (.seq (sv.regionNow k r))
  | .core .mc => .core .mc
  | .ereq r site => .ereq (sv.regionNow k r) (moveSite d site)

/-- An agent named by a fault record, moved. -/
def moveAgent (sv : Saved) (k : Cluster) (d : Int) : AgentId → AgentId
  | .elem r site => .elem (sv.regionNow k r) (moveSite d site)
  | .engine e iss m => .engine e (moveIssuer sv k d iss) m

/-- A site named by a fatal fault, moved. -/
def moveFatal (sv : Saved) (k : Cluster) (d : Int) (f : Fatal) : Fatal :=
  if f.cluster = sv.number then
    { f with region := sv.regionNow k f.region, site := if f.site = noSite then noSite else moveSite d f.site }
  else f

/-- A semaphore that a saved cluster holds takes the number of the region its holder now stands in (R382). -/
def Sem.restored (x : Sem) (sv : Saved) (k : Cluster) : Sem :=
  if x.kept = some sv.number then { x with holder := sv.regionNow k x.holder, kept := none } else x

/-- The engine commands, the fault records, the fatal faults not yet taken and the semaphores of a saved cluster follow it (R382,
R430). -/
def State.restoreRest (s : State) (sv : Saved) (k : Cluster) (d : Int) : State :=
  let s1 := sv.cmds.foldl (fun s c => s.enqueueCmd c.1 { c.2 with issuer := moveIssuer sv k d c.2.issuer }) s
  let fix (f : FaultRec) : FaultRec := if f.cluster = sv.number then { f with agent := moveAgent sv k d f.agent } else f
  let s2 := match s1.aspace? k.asid with
    | none => s1
    | some a => s1.setAspace k.asid
        { a with waiting := a.waiting.map fix, cells := a.cells.map (fun (c : FqCell) => { c with recd := fix c.recd }) }
  { s2 with disp := { s2.disp with
      fatal := s2.disp.fatal.map (moveFatal sv k d)
      sems := s2.disp.sems.map (fun (e : Nat × Sem) => (e.1, e.2.restored sv k)) } }

/-- The regions of a saved cluster are written back (R430). -/
def State.restoreRegions (s : State) (sv : Saved) (k : Cluster) (d : Int) (cfgs : List (List (Nat × Cfg))) : State :=
  (k.regions.zip (sv.regions.zip (cfgs ++ List.replicate (sv.regions.length - cfgs.length) []))).foldl (fun s x =>
    s.mapRegion x.1 (restoreRegion sv.number x.1 d x.2.2 x.2.1)) s

/-- The tiles an offset moves what was saved by. -/
def tileDelta (k old : Cluster) : Int := (k.dy - old.dy) * 8 + (k.dx - old.dx)

/-- A saved cluster written back at an offset, its images checked there. -/
def State.restoreAt (s : State) (sv : Saved) (k : Cluster) : Recheck State :=
  let d := tileDelta k sv.cluster
  let s1 := ((s.setCluster sv.number k).restoreMem sv k d)
  match s1.recheckAll sv.number k (k.regions.zip sv.regions) with
  | (_, .rejected) => .rejected
  | (_, .waits) => .waits
  | (s2, .ok cfgs) => .ok ((s2.restoreRegions sv k d cfgs).restoreRest sv k d)

/-- Replies taken while the cluster was saved are acted on, in cell order (R412, R430). -/
def State.actTaken (s : State) (asid n : Nat) : State := (s.actOwed asid (fun c _ => c.recd.cluster == n)).1

/-- A saved cluster is restored in regions and banks (R430); none while one of its images cannot be read yet. -/
def State.restore (s : State) (sv : Saved) (rs bs : List Nat) : Option State :=
  let (dx, dy) := s.restoreOffset sv.cluster.caravan sv.cluster
  let order := s.disp.nextCluster
  let s0 := { s with disp := { s.disp with
    saved := s.disp.saved.filter (fun x => x.number != sv.number), nextCluster := order + 1 } }
  let at' (dx dy : Int) : Cluster :=
    { sv.cluster with
      regions := rs, banks := bs, dx := dx, dy := dy, order := order
      energy := sv.cluster.energy + moveEnergy sv.image { sv.cluster with banks := bs } }
  let thawed (s : State) : State :=
    (rs.foldl (fun s r => s.mapRegion r Region.thaw) s).actTaken sv.cluster.asid sv.number
  match s0.restoreAt sv (at' dx dy) with
  | .ok s1 => some (thawed s1)
  | .waits => none
  | .rejected =>
    match s0.restoreAt sv (at' 0 0) with
    | .ok s1 => some (thawed s1)
    | .waits => none
    | .rejected =>
      let k := at' 0 0
      let d := tileDelta k sv.cluster
      some <| ((((s0.setCluster sv.number k).restoreMem sv k d).restoreRegions sv k d []).restoreRest sv k d).fatalFault sv.number 0x16
        (rs.getD 0 0) noSite

/-! ## The round (R115, R116, R419) -/

/-- A caravan's head that can be placed. -/
inductive Head where
  | fresh (l : LaunchRec) (h : Header)
  | saved (x : Saved)
  deriving DecidableEq, Repr

/-- The head of a caravan, once it is ready (R115, R126). DESIGN CHOICE, log entry 53: a READY head whose image is not measured
yet, since the measurement waits on an EMPTY granule, is neither placed nor blocked. -/
def State.headOf? (s : State) (car : Nat) : Option Head :=
  match s.disp.saved.find? (fun x => x.cluster.caravan == car) with
  | some x => some (.saved x)
  | none =>
    let c := s.caravan car
    match c.state, c.recd, c.header with
    | .ready, some l, some h => some (.fresh l h)
    | _, _, _ => none

/-- The record of a head. -/
def Head.recd : Head → LaunchRec
  | .fresh l _ => l
  | .saved x => x.cluster.recd

/-- Where a head fits, with the regions and banks of victims counted free. -/
def State.fitHead (s : State) (car : Nat) (h : Head) (vr vb : List Nat) : Option (List Nat × List Nat) :=
  s.fit car h.recd (match h with
    | .fresh _ _ => 0
    | .saved x => x.room) vr vb

/-- A cluster that may be a victim of a head (R116). -/
def State.canYield (s : State) (prio : Nat) (k : Nat × Cluster) : Bool :=
  decide (prio < k.2.recd.prio.toNat) && !k.2.recd.noPre && k.2.abort.isNone &&
  (match k.2.snap with
    | some sn => sn.preempt.isNone
    | none => true) && !s.canComplete k.1 k.2

/-- The shortest prefix of a list of candidates that lets a head fit. -/
def State.enough (s : State) (car : Nat) (h : Head) : List (Nat × Cluster) → List (Nat × Cluster) → Option (List (Nat × Cluster))
  | [], _ => none
  | k :: rest, got =>
    let v := got ++ [k]
    if (s.fitHead car h (v.flatMap (fun x => x.2.regions)) (v.flatMap (fun x => x.2.banks))).isSome then some v
    else State.enough s car h rest v

/-- Victims of a head (R116): numerically largest priority first, then most recently placed. -/
def State.victims (s : State) (car : Nat) (h : Head) : List (Nat × Cluster) :=
  let c := s.disp.clusters.filter (s.canYield h.recd.prio.toNat)
  let sorted := (sortBy (fun k => k.2.recd.prio.toNat * 2 ^ 64 + k.2.order) c).reverse
  (s.enough car h sorted []).getD []

/-- A pre-emption for a head is under way. -/
def State.preempting (s : State) (car : Nat) : Bool :=
  s.disp.clusters.any (fun k => match k.2.snap with
    | some sn => sn.preempt == some car
    | none => false)

/-- The round's turn at one caravan and priority: the state, and whether a head is blocked. A saved head whose images meet an
EMPTY granule is neither placed nor blocked; its restore waits for a later round (R430, log entry 49). -/
def roundAt (p car : Nat) (x : State × Bool) : State × Bool :=
  let s := x.1
  match s.headOf? car with
  | none => x
  | some h =>
    if h.recd.prio.toNat ≠ p then x
    else
      match s.fitHead car h [] [] with
      | some (rs, bs) =>
        let placed := match h with
          | .fresh l hd => some (s.placeNew car l hd rs bs)
          | .saved sv => s.restore sv rs bs
        match placed with
        | some s1 => ({ s1 with disp := { s1.disp with lastWinner := s1.disp.lastWinner.setIfInBounds p car } }, x.2)
        | none => x
      | none =>
        if h.recd.preempts && !s.preempting car then
          ((s.victims car h).foldl (fun s k => s.beginSnapshot k.1 (some car) (k.2.snapCount + 1#32)) s, true)
        else (s, true)

/-- The priorities from `p` on. -/
def roundFrom : List Nat → State → State × Bool
  | [], s => (s, false)
  | p :: rest, s =>
    let start := (s.disp.lastWinner.toList.getD p 191 + 1) % 192
    let (s1, blocked) := (List.range 192).foldl (fun x i => roundAt p ((start + i) % 192) x) (s, false)
    if blocked then (s1, true) else roundFrom rest s1

/-- ARBITRATION_ROUND (R115); one that finds a head blocked tears down the clusters that have aborted (R419). -/
def execArbitrationRound (s : State) : Out :=
  let (s1, blocked) := roundFrom [0, 1, 2, 3, 4, 5, 6, 7] s
  let dead := s1.disp.clusters.filter (fun k => k.2.abort.isSome)
  .next (if blocked then dead.foldl (fun s k => s.teardown k.1) s1 else s1)

end Sys2Proof.Machine
end

