-- ==== Sys2Proof/Machine/Branch.lean ====
section
/-! DEFINITION. Branches and jumps (R176 to R178). -/

namespace Sys2Proof.Machine

/-- The instruction completes, with PC moved by a branch when it is taken (R176). -/
def branchIf (s : State) (taken : Bool) (off : W64) : Out :=
  .next (s.setMe (if taken then s.me.complete (s.me.pc + off) else s.me.retire))

/-- BRC (R176): taken when the predicate is true. -/
def execBrc (p : PReg) (off : BitVec 22) (s : State) : Out := branchIf s (s.me.pred p) (branch22 off)

/-- BRC with NEG (R176): taken when the predicate is false. -/
def execBrcNot (p : PReg) (off : BitVec 22) (s : State) : Out := branchIf s (!s.me.pred p) (branch22 off)

/-- JAL (R177): the link, then the jump. -/
def execJal (d : SReg) (off : BitVec 21) (s : State) : Out :=
  .next (s.setMe ((s.me.setReg d (s.me.pc + 4#64)).complete (s.me.pc + branch21 off)))

/-- JALR (R178): the jump to sa + imm, which raises MISALIGNED when it is no multiple of 4. -/
def execJalr (d a : SReg) (imm : BitVec 16) (s : State) : Out :=
  let t := s.me.reg a + sext16 imm
  if t.toNat % 4 ≠ 0 then trap s (.jalr d a imm) causeMisaligned t 0#64
  else .next (s.setMe ((s.me.setReg d (s.me.pc + 4#64)).complete t))

end Sys2Proof.Machine
end

