-- ==== Sys2Proof/Machine/EngineInstr.lean ====
section
/-! DEFINITION. The engine instructions of a core (R342, R346): COPY, CONV, COLL and EWAIT. -/

namespace Sys2Proof.Machine

/-- The issue number of a core for an engine (R341). -/
def Core.issued (c : Core) (e : Nat) : W32 := c.issue.toList.getD e 0#32

/-- That number written. -/
def Core.setIssued (c : Core) (e : Nat) (n : W32) : Core := { c with issue := c.issue.setIfInBounds e n }

/-- A load of an issuing instruction met a trap or a fatal fault, or waits (R179, R342). -/
def engineLoadStop (s0 s : State) (i : Instr) (r : BulkRes) (go : List Byte → Out) : Out :=
  match r with
  | .ok bs => go bs
  | .wait => .next (s.uncharged s0)
  | .trap cause a g => trap s i cause (BitVec.ofNat 64 a) (tinfo 0 g (s.spaceOf (BitVec.ofNat 64 a)) false false 6)
  | .fatal cls => coreFatal s cls

/-- The group table at AUX (R342, R344): its first granule gives G, then the granules that G members take; a table whose G
is out of range ends with that granule; each is charged once (R460). AUX is a virtual address. -/
def groupLoad (s0 s : State) (i : Instr) (aux : Nat) (go : State → List Nat → Out) : Out :=
  let ea : W64 := BitVec.ofNat 64 aux
  if 2 ^ 52 ≤ aux then trap s i causeTranslation ea (tinfo 0 0 0 false false 6)
  else
    let (s1, r1) := s.bulkLoad ea 1 []
    engineLoadStop s0 s1 i r1 (fun head =>
      let g := fieldLe head 0 2
      if groupSizeBad g then go s1 []
      else
        let (s2, r2) := (s1.uncharged s).bulkLoad ea (groupGranules g) []
        engineLoadStop s0 s2 i r2 (fun raw => go s2 (groupMembers raw)))

/-- The enqueueing of a checked command (R342): it waits while the engine holds 64. -/
def engineIssue (s0 s : State) (d : SReg) (e : Nat) (b : Block) (group : List Nat) : Out :=
  if s.engineFull e then .next (s.uncharged s0)
  else
    let n := s.me.issued e + 1#32
    let cmd := newCmd (.core s.cur) n b group (s.coreAsid s.cur) (s.coreCluster s.cur)
    done (s.enqueueCmd e cmd) (fun c => (c.setIssued e n).setReg d (BitVec.ofNat 64 (ticketOf n e)))

/-- ENGCMD (R342). -/
def engineCommand (s : State) (i : Instr) (k : EClass) (d a : SReg) (e : Nat) : Out :=
  let sa := s.me.reg a
  if engineClass e ≠ k then trap s i causeEngine 0#64 0#64
  else if !aligned sa 64 then trap s i causeMisaligned sa (tinfo 0 0 (s.spaceOf sa) false false 6)
  else
    let (s1, r) := s.bulkLoad sa 1 []
    engineLoadStop s s1 i r (fun raw =>
      let b := cmdBlock raw
      let fails := blockFails k (coreIsMc s.cur) raw
      if k = .cl then
        if b.aux % 64 ≠ 0 then trap s1 i causeEngine 0#64 0#64
        else
          groupLoad s s1 i b.aux (fun s2 g =>
            if fails || groupFails s.member b g then trap s2 i causeEngine 0#64 0#64 else engineIssue s s2 d e b g)
      else if fails then trap s1 i causeEngine 0#64 0#64
      else engineIssue s s1 d e b [])

/-- COPY (R342). -/
def execCopy (d a : SReg) (e : BitVec 5) (s : State) : Out := engineCommand s (.copy d a e) .te d a e.toNat

/-- CONV (R342). -/
def execConv (d a : SReg) (e : BitVec 5) (s : State) : Out := engineCommand s (.conv d a e) .cv d a e.toNat

/-- COLL (R342). -/
def execColl (d a : SReg) (e : BitVec 5) (s : State) : Out := engineCommand s (.coll d a e) .cl d a e.toNat

/-- EWAIT (R346): waits while the engine holds a command of this core numbered t or earlier. -/
def execEwait (a : SReg) (s : State) : Out :=
  let v := (s.me.reg a).toNat
  let e := v % 32
  let t : W32 := BitVec.ofNat 32 (v / 32)
  if 2 ^ 37 ≤ v ∨ 23 < e ∨ 2 ^ 31 ≤ (s.me.issued e - t).toNat then trap s (.ewait a) causeEngine 0#64 0#64
  else if (s.queueOf e).any (fun c => c.issuer == .core s.cur && decide ((t - c.n).toNat < 2 ^ 31)) then .next s
  else onCore s id

end Sys2Proof.Machine
end

