-- ==== Sys2Proof/Machine/Fetch.lean ====
section
/-! DEFINITION. Fetching an instruction's bytes (R156, R157, R158), and the two events a fetch can end in: a FETCH trap,
and a word that is no instruction (R68). -/

namespace Sys2Proof.Machine

/-- What a fetch gives: a word, a wait on an EMPTY granule, the UCAUSE of a FETCH trap (R183), or a fatal fault. -/
inductive FetchRes where
  | ok (w : W32)
  | wait
  | trap (ucause : Nat)
  | fatal (cls : Nat)
  deriving DecidableEq, Repr

/-- A fetch of 4 bytes once its address is resolved (R156, R157, R371). `virt` is the virtual address, if it has one. -/
def State.fetchAt (s : State) (r : CoreResolve) (virt : Option Nat := none) : State × FetchRes :=
  match r with
  | .trap c => (s, .trap c)
  | .fatal c => (s, .fatal c)
  | .ok p sa =>
    if s.coreEcc p then (s, .fatal 0x10)
    else
      match s.loadAt (.fetch s.cur) (s.coreAsid s.cur) p sa 4 virt with
      | (s1, .wait) => (s1, .wait)
      | (s1, .void) => (s1, .trap causePresence)
      | (s1, .ok bs) =>
        ((s1.dropReads (fun r => r == .fetch s.cur)).charge (s.coreCluster s.cur) p, .ok (wordOfBytes bs))

/-- The virtual address of the region program of a core's cluster, and its length (R99, R156). -/
def State.program (s : State) (c : CoreId) : W64 × W64 :=
  match (s.coreCluster c).bind s.cluster? with
  | none => (0#64, 0#64)
  | some k => (k.recd.image + k.header.progOff, k.header.progLen)

/-- The fetch of the current core at its PC (R156, R157, R158). -/
def State.fetchWord (s : State) : State × FetchRes :=
  let c := s.me
  match s.cur with
  | .mc =>
    if c.pc.toNat ≥ 0x200000 then (s, .trap 0) else s.fetchAt (.ok (.sram c.pc.toNat) false)
  | .seq _ =>
    if c.priv = .graph then
      if c.pc.toNat ≥ (s.program s.cur).2.toNat then (s, .trap 0)
      else
        let va := ((s.program s.cur).1 + c.pc).toNat
        match s.translateRead (.fetch s.cur) (s.coreAsid s.cur) va .read with
        | (s1, .ok p sa) => s1.fetchAt (.ok p sa) (some va)
        | (s1, .fault cls) => s1.fetchAt (.trap (cls + 4))
        | (s1, .protect) => s1.fetchAt (.fatal 0x11)
    else if c.pc.toNat ≥ 0x10000 then (s, .trap 0)
    else
      match s.coreResolve (0xFFFF000000000000#64 + c.pc) .read with
      | (s1, r) => s1.fetchAt r

/-- The SPACE code of a fetch (R183). -/
def State.fetchSpace (s : State) : Nat :=
  match s.cur with
  | .mc => 2
  | .seq _ => if s.me.priv = .graph then 0 else 1

/-- FETCH (R156): the fetch at PC fails, and raises a FETCH trap with TADDR the PC; no instruction executes. A fetch that
does not fail is no such event. -/
def execFetch (s : State) : Out :=
  match s.fetchWord with
  | (s1, .trap u) => .next (trapEntry s1 causeFetch s.me.pc (if u = 0 then 0#64 else tinfo u 0 s.fetchSpace false false 2) 0#12 0#32)
  | _ => .next s

/-- ILLEGAL_INSTRUCTION (R68): a fetched word that decodes to nothing raises ILLEGAL. -/
def execIllegalInstruction (w : W32) (s : State) : Out :=
  match decode w with
  | .ok _ => .next s
  | .error _ => .next (trapEntry s causeIllegal 0#64 0#64 0#12 w)

end Sys2Proof.Machine
end

