-- ==== Sys2Proof/Machine/Power.lean ====
section
/-! DEFINITION. Power and heat (R441 to R460): sweeps with the tests of the sensors, zones, trips, the governor; budget tokens
given and received; droop signatures and the requests they bring; energy by tick. -/

namespace Sys2Proof.Machine

/-! ## Sensors (R441 to R444) -/

/-- A thermal sensor. -/
def isThermal (n : Nat) : Bool := decide (n < 512) || decide (640 ≤ n)

/-- A sensor's two neighbours (R442). -/
def neighbours (n : Nat) : Nat × Nat :=
  if 512 ≤ n ∧ n < 640 then (512 + ((n - 512) ^^^ 1), 512 + ((n - 512) ^^^ 8)) else (n ^^^ 1, n ^^^ 2)

/-- A sensor's zone (R442): regions 0 to 127, groups from 128 on. -/
def zoneOf (n : Nat) : Nat := if n < 512 then n / 4 else if n < 640 then n - 512 else 128 + (n - 640) / 4

/-- The sensors of a zone, ascending. -/
def zoneSensors (z : Nat) : List Nat :=
  if z < 128 then [4 * z, 4 * z + 1, 4 * z + 2, 4 * z + 3, 512 + z] else (List.range 4).map (fun i => 640 + 4 * (z - 128) + i)

/-- The zone governs a quadrant (R442). -/
def zoneGoverns (z q : Nat) : Bool :=
  if z < 128 then q / 4 == z else if z < 132 then q / 128 == z - 128 else true

/-- The zones. -/
def allZones : List Nat := List.range 134

/-- The spread of a list of readings. -/
def spread : List Int → Int
  | [] => 0
  | x :: t => t.foldl max x - t.foldl min x

/-- A sensor's raw reading of a sweep taken in (R441, R448). -/
def Sensor.taken (x : Sensor) (raw : Int) : Sensor :=
  { x with
    raw := raw, stuckn := if x.hist.head? = some raw then min 65535 (x.stuckn + 1) else 0
    hist := (raw :: x.hist).take 64 }

/-- The tests of a sensor over the raw readings of a sweep (R443). -/
def Sensor.tested (n : Nat) (x a b : Sensor) : Sensor :=
  let th := isThermal n
  let bound : Int := if th then 32 else 8
  let stuck := decide (64 ≤ x.stuckn) && decide (bound < spread a.hist) && decide (bound < spread b.hist)
  let out := if th then decide (x.raw < -640) || decide (2400 < x.raw) else decide (x.raw < 0) || decide (1600 < x.raw)
  let dis := th && decide (128 < (x.raw - a.raw).natAbs) && decide (128 < (x.raw - b.raw).natAbs)
  let y := { x with stk := stuck, rng := out, dis := dis }
  if stuck || out || dis then { y with suspect := true, cleann := 0 }
  else if x.suspect then
    if 64 ≤ x.cleann + 1 then { y with suspect := false, cleann := 0 } else { y with cleann := x.cleann + 1 }
  else y

/-- The largest of a list of readings. -/
def largest : List Int → Option Int
  | [] => none
  | x :: t => some (t.foldl max x)

/-- The published reading of a sensor (R444), over raw readings and suspect flags. -/
def published (raw : Nat → Int) (suspect : Nat → Bool) (n : Nat) : Int :=
  if !suspect n then raw n
  else
    let margin : Int := if isThermal n then 48 else 32
    let good (l : List Nat) : Option Int := largest ((l.filter (fun m => !suspect m)).map raw)
    match good [(neighbours n).1, (neighbours n).2] with
    | some v => v + margin
    | none =>
      match good ((zoneSensors (zoneOf n)).filter (fun m => isThermal m == isThermal n)) with
      | some v => v + margin
      | none => if isThermal n then 2400 else 1600

/-! ## A sweep (R441 to R450) -/

/-- The governor (R450). -/
def governed (gov pwr budget : Nat) : Nat :=
  let lim := 20 * budget
  if lim < pwr then min 15 (gov + 1) else if 20 * pwr < 19 * lim ∧ 0 < gov then gov - 1 else gov

/-- The meters of every quadrant changed; one that stays as it is is not written. -/
def State.mapMeters (s : State) (f : Nat → Meter → Meter) : State :=
  (List.range 512).foldl (fun s q => if f q (s.meter q) = s.meter q then s else s.setMeter q (f q (s.meter q))) s

/-- A list of alert bits raised (R447). -/
def State.raiseAlerts (s : State) (l : List (Bool × Nat)) : State :=
  l.foldl (fun s a => if a.1 then s.raiseAlert a.2 else s) s

/-- The GOV field of the power block. -/
def State.gov (s : State) : Nat := s.sramNat (powerBlock + 8) 1 % 16

/-- A sweep (R441 to R450): every published reading, flag and request changes as one event, and SAMPLE is set. -/
def sweep (s : State) (raw : List Int) (pwr : Nat) : State :=
  let arr := raw.toArray
  let old := ((List.range 664).map s.sensor).toArray
  let took := ((List.range 664).map (fun n => (old.getD n Sensor.init).taken (arr.getD n 0))).toArray
  let at' (n : Nat) : Sensor := took.getD n Sensor.init
  let tested := ((List.range 664).map (fun n => (at' n).tested n (at' (neighbours n).1) (at' (neighbours n).2))).toArray
  let sus (n : Nat) : Bool := (tested.getD n Sensor.init).suspect
  let pub := ((List.range 664).map (published (fun n => arr.getD n 0) sus)).toArray
  let pubAt (n : Nat) : Int := pub.getD n 0
  let zoned := allZones.filter (fun z => decide (2 ≤ ((zoneSensors z).filter sus).length))
  let hot (z : Nat) (t : Int) : Bool := (zoneSensors z).any (fun n => isThermal n && decide (t ≤ pubAt n))
  let tripped := allZones.filter (fun z => hot z 1680 || (s.pow.tripped.contains z && hot z 1600))
  let talert := s.talertNow
  let gov := governed s.gov pwr s.mcr.budget
  let crossed := (List.range 664).any (fun n =>
    isThermal n && decide (talert ≤ pubAt n) && decide ((old.getD n Sensor.init).pub < talert))
  let newly := (List.range 664).any (fun n => sus n && !(old.getD n Sensor.init).suspect)
  let ovf := s.sramNat (powerBlock + 32) 4
  let back := min ovf (560 - s.mcr.budget)
  let p := { s.pow with
    sweeps := s.pow.sweeps + 1, talert := talert, zoned := zoned, tripped := tripped
    sensors := (List.range 664).map (fun n => (n, { tested.getD n Sensor.init with pub := pubAt n })) }
  let s1 : State := { s with pow := p, mcr := { s.mcr with budget := s.mcr.budget + back } }
  let s2 := ((s1.setSram (powerBlock + 4) 4 (pwr % 2 ^ 32)).setSram (powerBlock + 8) 1 gov).setSram (powerBlock + 32) 4 (ovf - back)
  let s3 := s2.mapMeters (fun q m =>
    { m with
      gov := BitVec.ofNat 4 gov, zone := if zoned.any (fun z => zoneGoverns z q) then 8#4 else 0#4
      trip := if tripped.any (fun z => zoneGoverns z q) then 15#4 else 0#4 })
  let s4 := s3.raiseAlerts
    [(crossed || tripped.any (fun z => !s.pow.tripped.contains z), 0),
     (newly || zoned.any (fun z => !s.pow.zoned.contains z), 1), (gov == 15 && decide (20 * s.mcr.budget < pwr), 2)]
  s4.raiseEvent .mc 3

/-- SENSOR_SWEEP (R441). -/
def execSensorSweep (raw : List Int) (pwr : Nat) (s : State) : Out := .next (sweep s raw pwr)

/-! ## Budget tokens (R451 to R454) -/

/-- Tokens come back to this package: BUDGET never exceeds 560, and the rest joins OVF (R449, R452). -/
def State.refund (s : State) (n : Nat) : State :=
  let fit := min n (560 - s.mcr.budget)
  let s1 : State := { s with mcr := { s.mcr with budget := s.mcr.budget + fit } }
  s1.setSram (powerBlock + 32) 4 ((s.sramNat (powerBlock + 32) 4 + (n - fit)) % 2 ^ 32)

/-- A give ends (R451, R447): GRES, then GO, then the alert. -/
def State.endGive (s : State) (res : Nat) : State :=
  let g := s.sramNat (powerBlock + 16) 8
  let s1 := (s.setSram (powerBlock + 24) 8 res).setSram (powerBlock + 16) 8 (g - g % 2)
  { s1 with pow := { s1.pow with giving := none } }.raiseAlert 2

/-- GIVE (R451): the device acts on a request with GO set. -/
def execGive (s : State) : Out :=
  let g := s.sramNat (powerBlock + 16) 8
  let n := bits g 10 1
  let m := bits g 20 11
  if g % 2 = 0 ∨ s.pow.giving.isSome then .next s
  else if bits g 63 21 ≠ 0 ∨ n = 0 ∨ 560 < n ∨ 575 < m ∨ m = s.member then .next (s.endGive 5)
  else if s.mcr.budget < n + 64 then .next (s.endGive 3)
  else if !s.reachable m then .next (s.endGive 4)
  else
    .next (State.sideSend { s with
      mcr := { s.mcr with budget := s.mcr.budget - n }
      pow := { s.pow with
        giving := some (m, n), sent := Table.put s.pow.sent m (Table.get s.pow.sent m 0#64 + BitVec.ofNat 64 n) } }
      m [BitVec.ofNat 64 n])

/-- GIVE_RECEIVE (R453): the receiver credits the tokens, or credits nothing and answers CAP. -/
def execGiveReceive (member count : Nat) (s : State) : Out :=
  let s0 := s.stepIv member false
  if s.mcr.budget + count ≤ 560 then
    let p := { s0.pow with cred := Table.put s0.pow.cred member (Table.get s0.pow.cred member 0#64 + BitVec.ofNat 64 count) }
    .next ((State.sideSend { s0 with mcr := { s0.mcr with budget := s0.mcr.budget + count }, pow := p } member [1#64]).raiseAlert 2)
  else .next (s0.sideSend member [2#64])

/-- GIVE_ANSWER (R452). -/
def execGiveAnswer (res : GiveAnswer) (s : State) : Out :=
  match s.pow.giving with
  | none => .next s
  | some (m, n) =>
    let s0 := s.stepIv m false
    match res with
    | .done => .next (s0.endGive 1)
    | .cap =>
      let p := { s0.pow with sent := Table.put s0.pow.sent m (Table.get s0.pow.sent m 0#64 - BitVec.ofNat 64 n) }
      .next (({ s0 with pow := p }.refund n).endGive 2)

/-- The totals of a member are reconciled when its link completes training (R454): each of the two tells the other its
CRED. -/
def State.reconcile (s : State) (m cred : Nat) : State :=
  let d := (Table.get s.pow.sent m 0#64 - BitVec.ofNat 64 cred).toNat
  let fit := min d (560 - s.mcr.budget)
  State.sideSend { s with
    mcr := { s.mcr with budget := s.mcr.budget + fit }
    pow := { s.pow with sent := Table.put s.pow.sent m (BitVec.ofNat 64 (cred + (d - fit))) } }
    m [Table.get s.pow.cred m 0#64]

/-! ## Droop (R455 to R458) -/

/-- The entry of a droop table that a new signature takes (R458). -/
def droopVictim (t : Table DroopEntry) : Nat :=
  let e (i : Nat) : DroopEntry := Table.get t i DroopEntry.empty
  match (List.range 32).find? (fun i => !(e i).valid) with
  | some i => i
  | none => (List.range 32).foldl (fun b i => if (e i).hits.toNat < (e b).hits.toNat then i else b) 0

/-- The valid entry that holds a signature. -/
def droopMatch (t : Table DroopEntry) (sig : W32) : Option Nat :=
  if sig = 0#32 then none
  else (List.range 32).find? (fun i =>
    let e := Table.get t i DroopEntry.empty
    e.valid && e.sig == sig)

/-- A droop teaches the table (R458). -/
def teach (t : Table DroopEntry) (sig : W32) : Table DroopEntry :=
  if sig = 0#32 then t
  else
    match droopMatch t sig with
    | some i =>
      let e := Table.get t i DroopEntry.empty
      Table.put t i { e with step := BitVec.ofNat 4 (min 15 (e.step.toNat + 2)), quiet := 0#6 }
    | none =>
      Table.put t (droopVictim t) { hits := 0#8, valid := true, quiet := 0#6, hold := 16#8, step := 4#4, sig := sig }

/-- A droop in a quadrant: its emergency request for 8 ticks, and its count (R455). -/
def Meter.drooped (m : Meter) : Meter := { m with emergency := 12#4, emergencyTicks := 8, droops := m.droops + 1#32 }

/-- A droop in a region teaches its table, and the hold under way is one with a droop (R458). -/
def Region.taught (x : Region) : Region :=
  { x with droop := teach x.droop x.sig, hold := x.hold.map (fun h => { h with drooped := true }) }

/-- DROOP (R455, R458). -/
def execDroop (region quadrant : Nat) (s : State) : Out :=
  if quadrant < 4 ∧ region < 128 then
    let m := s.meter (4 * region + quadrant)
    .next ((s.setMeter (4 * region + quadrant) m.drooped).mapRegion region Region.taught)
  else .next s

/-- EMERGENCY_EXPIRE (R455): the emergency request ends once its ticks have passed. -/
def execEmergencyExpire (region quadrant : Nat) (s : State) : Out :=
  let q := 4 * region + quadrant
  if quadrant < 4 ∧ region < 128 ∧ (s.meter q).emergencyTicks = 0 then .next (s.setMeter q { s.meter q with emergency := 0#4 })
  else .next s

/-- A quadrant's learned request in every quadrant of a region. -/
def Region.setLearned (x : Region) (n : BitVec 4) : Region := { x with meters := x.meters.map (fun m => { m with learned := n }) }

/-- A match's hold ends without a droop (R458). -/
def DroopEntry.quieter (e : DroopEntry) : DroopEntry :=
  if e.quiet.toNat + 1 < 32 then { e with quiet := e.quiet + 1#6 }
  else { e with quiet := 0#6, step := e.step - 1#4, valid := e.step != 1#4 && e.valid }

/-- LEARNED_HOLD_EXPIRE (R458). -/
def execLearnedHoldExpire (region : Nat) (s : State) : Out :=
  match (s.region region).hold with
  | none => .next s
  | some h =>
    if h.ticks ≠ 0 then .next s
    else
      .next (s.mapRegion region (fun x =>
        let e := Table.get x.droop h.entry DroopEntry.empty
        let t := if h.drooped || !e.valid then x.droop else Table.put x.droop h.entry e.quieter
        { x.setLearned 0#4 with hold := none, droop := t }))

/-- The rise bits of a tick (R456). -/
def riseBits (x : Region) : Nat :=
  (List.range 4).foldl (fun v q =>
    match x.meters.toList[q]? with
    | some m => if 1024 ≤ m.admitting ∧ 5 * m.admitted < 4 * m.admitting then v + 2 ^ q else v
    | none => v) 0

/-- A quadrant's meter at the end of a tick with its timing replays (R456, R459); 64 or more of them are a droop, and the 8 ticks
of its emergency request follow (R455; log entry 32). -/
def Meter.ticked (m : Meter) (replays : Nat) : Meter :=
  let m1 : Meter := { m with
    admitted := m.admitting, admitting := 0, emergencyTicks := m.emergencyTicks - 1
    replays := m.replays + BitVec.ofNat 64 replays }
  if 64 ≤ replays then m1.drooped else m1

/-- The table of a region after the droops that a tick's timing replays are (R455, R458). -/
def Region.replayed (x : Region) (replays : Vector Nat 4) : Region :=
  (replays.toList.filter (fun n => decide (64 ≤ n))).foldl (fun x _ => x.taught) x

/-- A region's power state at the end of a tick (R455, R456, R458, R459). -/
def Region.ticked (x0 : Region) (replays : Vector Nat 4) : Region :=
  let x := x0.replayed replays
  let sig : W32 := (x.sig <<< 4) ||| BitVec.ofNat 32 (riseBits x)
  let meters := (x.meters.zip replays).map (fun p => p.1.ticked p.2)
  let x1 := { x with sig := sig, meters := meters, hold := x.hold.map (fun h => { h with ticks := h.ticks - 1 }) }
  match droopMatch x1.droop sig with
  | none => x1
  | some i =>
    let e := Table.get x1.droop i DroopEntry.empty
    { x1.setLearned e.step with
      hold := some { entry := i, ticks := e.hold.toNat, drooped := false }
      droop := Table.put x1.droop i { e with hits := BitVec.ofNat 8 (min 255 (e.hits.toNat + 1)) } }

/-- The energy of a region's rail over a tick goes to the cluster that holds it (R460). -/
def State.chargeRail (s : State) (r nanojoules : Nat) : State := s.pay (s.clusterOf r) nanojoules

/-- What a region's monitors measured, nothing where they say nothing. -/
def tickOf (l : List RegionTick) (r : Nat) : RegionTick :=
  (l.find? (fun t => t.region == r)).getD { region := r, replays := Vector.replicate 4 0, nanojoules := 0 }

/-- TICK_END (R456, R458, R460): over the regions that anything stands in or is measured of. -/
def execTickEnd (ticks : List RegionTick) (s : State) : Out :=
  let l := (List.range 128).filter (fun r => (Table.find? s.regions r).isSome || ticks.any (fun t => t.region == r))
  let s1 := l.foldl (fun s r =>
    let t := tickOf ticks r
    (s.chargeRail r t.nanojoules).mapRegion r (fun x => x.ticked t.replays)) s
  .next { s1 with pow := { s1.pow with tick := s1.pow.tick + 1 } }

end Sys2Proof.Machine
end

