-- ==== Sys2Proof/Machine/Security.lean ====
section
/-! DEFINITION. The security requests (R124, R125, R128 to R130, R134): certificates, reports, key agreement and sessions. -/

namespace Sys2Proof.Machine

/-! ## Security cells (R124, R125) -/

/-- A security cell as the chain has read it. -/
structure Request where
  opc : Nat
  next : W64
  status : W64
  body : Nat
  args : List Byte
  sound : Bool
  deriving DecidableEq, Repr

/-- A 4 KiB body buffer in an ordinary page of address space 0 (R122, R124). -/
def bodyOk (a : Nat) : Bool := a % 64 == 0 && decide (0x200000 ≤ a ∧ a + 4096 ≤ 0x300000)

/-- A security cell from its 128 bytes. -/
def requestOf (b : List Byte) : Request :=
  let opc := fieldLe b 0 2
  { opc := opc, next := BitVec.ofNat 64 (fieldLe b 8 8), status := BitVec.ofNat 64 (fieldLe b 16 8), body := fieldLe b 24 8,
    args := slice b 32 96,
    sound := decide (1 ≤ opc ∧ opc ≤ 5) && fieldLe b 2 6 == 0 && fieldLe b 8 8 % 128 == 0 && fieldLe b 16 8 % 64 == 0 &&
      (decide (4 ≤ opc) || bodyOk (fieldLe b 24 8)) }

/-- The request at the head of a port's security chain, once both granules of its cell are FULL. -/
def State.requestAt (s : State) (p : PortId) : Option Request :=
  (s.port p).sec.bind (fun a => (s.cellBytes (.security p) a.toNat 2).map requestOf)

/-- The request a port may have served now (R124): the two chains are taken round-robin. -/
def State.servable (s : State) (p : PortId) : Option Request :=
  if s.sec.turn = p ∨ (s.requestAt (otherPort p)).isNone then s.requestAt p else none

/-- What a request ends with: a status that is not OK, or its body over a state. -/
inductive ReqRes where
  | refuse (st : Nat)
  | ok (body : List Byte) (s : State)

/-- A body is written in its buffer, in the clear (R125, R131). -/
def State.writeBody (s : State) (a : Nat) (body : List Byte) : State :=
  match s.as0Place a with
  | some (p, _) =>
    let m := s.mem.setBytes p body
    { s with mem := { m with
        keyBits := m.keyBits.filter (fun u => !(decide (p.key / 64 ≤ u) && decide (u < (p.key + body.length + 63) / 64))) } }
  | none => s

/-- The security event of an opcode (R124, R125): it serves a cell of its opcode, and answers one that is no sound request
with BAD_FIELD; the body is written before the status cell fills. -/
def onRequest (s : State) (p : PortId) (opc : Nat) (f : Request → ReqRes) : Out :=
  match s.servable p with
  | none => .next s
  | some q =>
    let fin (s1 : State) (st n : Nat) : Out :=
      let s2 := (s1.fillCell q.status.toNat (leBytes 8 st ++ leBytes 8 n)).advanceSecurity p q.next
      .next { s2 with sec := { s2.sec with turn := (otherPort p) } }
    if !q.sound then fin s 1 0
    else if q.opc = opc then
      match f q with
      | .refuse st => fin s st 0
      | .ok body s1 => fin (if body.isEmpty then s1 else s1.writeBody q.body body) 0 body.length
    else .next s

/-- Operand bytes that the request does not name are zero (R125). -/
def Request.unnamed (q : Request) (off n : Nat) : Bool := fieldLe q.args off n != 0

/-- The ASID a request names. -/
def Request.asid (q : Request) (off : Nat) : Nat := fieldLe q.args off 2

/-! ## Certificates and reports (R125, R129) -/

/-- GET_CERT (R125). DESIGN CHOICE, log entry 53: a chain longer than the 4 KiB body buffer is cut to its first 4,096 bytes. -/
def execGetCert (port : PortId) (s : State) : Out :=
  onRequest s port 1 (fun q => if q.unnamed 0 96 then .refuse 1 else .ok (Config.certificateChain.take 4096) s)

/-- The peer table (R129): an entry for each Lotar port, zero without a trained peer. -/
def State.peerTable (s : State) : List Byte :=
  (List.range 36).flatMap (fun i => match Table.find? s.sec.links i with
    | some l => if l.trained then bytes384 l.keyHash else List.replicate 48 0#8
    | none => List.replicate 48 0#8)

/-- Bytes 0 to 263 of a report (R129). -/
def State.report (s : State) (asid : Nat) (nonce : List Byte) : List Byte :=
  let a := s.aspace? asid
  let of48 (f : Aspace → BitVec 384) : List Byte := bytes384 ((a.map f).getD 0#384)
  leBytes 4 0x45524741 ++ leBytes 2 1 ++ leBytes 2 asid ++ leBytes 1 (if s.sec.debug then 1 else 0) ++
  List.replicate 7 0#8 ++ nonce ++ bytes384 s.sec.fwm ++ of48 Aspace.logh ++
  leBytes 4 ((a.map Aspace.logn).getD 0#32).toNat ++ List.replicate 4 0#8 ++ of48 Aspace.kbind ++ sha384 s.peerTable

/-- A signature under the identity key, with a free nonce (R129, R130). -/
def State.sign (s : State) (msg : List Byte) : State × List Byte :=
  (s.nextFree, ecdsaSign s.sec.ident (Config.signNonce s.free).toNat (sha384 msg))

/-- ATTEST (R129). -/
def execAttest (port : PortId) (s : State) : Out :=
  onRequest s port 2 (fun q =>
    let asid := q.asid 48
    if q.unnamed 50 46 then .refuse 1
    else if asid ≠ 0xFFFF ∧ (s.aspace? asid).isNone then .refuse 2
    else
      let r := s.report asid (slice q.args 0 48)
      let (s1, sig) := s.sign r
      .ok (padTo (r ++ sig) 384 ++ s.peerTable) s1)

/-! ## Keys and sessions (R130, R134) -/

/-- KEY_AGREE (R130): the tenant's public key stands in the body buffer. -/
def execKeyAgree (port : PortId) (s : State) : Out :=
  onRequest s port 3 (fun q =>
    let asid := q.asid 0
    if q.unnamed 2 94 then .refuse 1
    else
      match s.aspace? asid with
      | none => .refuse 2
      | some a =>
        if a.kbind ≠ 0#384 then .refuse 3
        else
          let qt := match s.as0Place q.body with
            | some (p, _) => s.mem.bytes p 96
            | none => []
          let x := beNat (slice qt 0 48)
          let y := beNat (slice qt 48 48)
          if onCurve x y = false then .refuse 6
          else
            let e := (Config.freshScalar s.free).toNat % (n384 - 1) + 1
            let qe := pointBytes (scalarMul e (some g384))
            let z := (pointBytes (scalarMul e (some (x, y)))).take 48
            let k := hkdf384 z (asciiBytes "GRS-ERG4A as" ++ beBytes 2 asid) 144
            let (s1, sig) := s.nextFree.sign (qe ++ qt ++ beBytes 2 asid)
            .ok (qe ++ sig) (s1.setAspace asid
              { a with
                kbind := vec384 (sha384 qt), kx := BitVec.ofNat 512 (beNat (slice k 0 64))
                kp := BitVec.ofNat 256 (beNat (slice k 64 32)), ks := vec384 (slice k 96 48) }))

/-- SESSION_OPEN (R134): a good tag with a counter above the last accepted gives the port the session. DESIGN CHOICE, log entry
53: a good tag with another counter is answered with BAD_TAG. -/
def execSessionOpen (port : PortId) (s : State) : Out :=
  onRequest s port 4 (fun q =>
    let asid := q.asid 0
    if q.unnamed 2 6 || q.unnamed 64 32 then .refuse 1
    else
      match s.aspace? asid with
      | none => .refuse 2
      | some a =>
        if a.kbind = 0#384 then .refuse 4
        else
          let counter := fieldLe q.args 8 8
          let tag := hmac384 (bytes384 a.ks) (asciiBytes "open" ++ beBytes 1 (portNum port) ++ beBytes 8 counter)
          let fresh := match a.counter with
            | none => true
            | some c => decide (c.toNat < counter)
          if !fresh || tag != slice q.args 16 48 then .refuse 5
          else
            let s1 := if a.session = some port then s else s.dropCaptures asid
            .ok [] (s1.setAspace asid
              { a with session := some port, counter := some (BitVec.ofNat 64 counter), rbctr := 0#64 }))

/-- SESSION_CLOSE (R134, R135). DESIGN CHOICE, log entry 53: of an address space without a key binding it is answered with
UNKEYED, and of a keyed one that no port holds a session of with OK. -/
def execSessionClose (port : PortId) (s : State) : Out :=
  onRequest s port 5 (fun q =>
    let asid := q.asid 0
    if q.unnamed 2 94 then .refuse 1
    else
      match s.aspace? asid with
      | none => .refuse 2
      | some a => if a.kbind = 0#384 then .refuse 4 else .ok [] (s.endSession asid))

end Sys2Proof.Machine
end

