-- ==== Sys2Proof/Machine/Readback.lean ====
section
/-! DEFINITION. The read-back plane (R433 to R436): the three chains, the items by selector, capture, and sealing. -/

namespace Sys2Proof.Machine

/-! ## Chains (R433) -/

/-- A read-back chain. -/
def Disp.chain (d : Disp) : ChainId → Chain
  | .a => d.chainA
  | .b => d.chainB
  | .mc => d.chainMc

/-- The state with a read-back chain written. -/
def State.setChain (s : State) (c : ChainId) (x : Chain) : State :=
  { s with disp := match c with
      | .a => { s.disp with chainA := x }
      | .b => { s.disp with chainB := x }
      | .mc => { s.disp with chainMc := x } }

/-- A chain's number among the three, and the next of them. -/
def chainNum : ChainId → Nat
  | .a => 0
  | .b => 1
  | .mc => 2
def nextChain : ChainId → ChainId
  | .a => .b
  | .b => .mc
  | .mc => .a

/-- The read-back chain's first cell (R433). -/
def firstReadback (c : ChainId) : W64 := 0x10180#64 + BitVec.ofNat 64 (128 * chainNum c)

/-- A read-back chain waits on the request granule of its next cell (R433). -/
def State.postReadback (s : State) (c : ChainId) (cell : W64) : State :=
  (s.setChain c { s.disp.chain c with cell := some cell }).askGranules (.readback c) cell.toNat 1

/-- A read-back chain moves on, as a command chain does (R103, R433). -/
def State.advanceReadback (s : State) (c : ChainId) (next : W64) : State :=
  let s := s.dropReads (fun r => r == .readback c)
  if next.toNat % 128 = 0 ∧ s.as0Cell next.toNat then s.postReadback c next
  else (s.setChain c { s.disp.chain c with cell := none }).notify (.chainStopped (4 + chainNum c))

/-! ## Selectors (R434) -/

/-- A selector's fields. -/
structure Selector where
  cls : Nat
  region : Nat
  cfgid : Nat
  wh : Nat
  index : Nat

/-- The fields of a selector. -/
def selectorOf (x : Nat) : Selector :=
  { cls := bits x 63 56, region := bits x 55 48, cfgid := bits x 47 32, wh := bits x 31 16, index := bits x 15 0 }

/-- The rows of a memory tile (R290, R434). -/
def State.tileRows (s : State) (r tile : Nat) : List (List Byte) :=
  let x := s.region r
  let ts := x.tileStore tile
  [x.poolItem tile, x.switchItem tile] ++
  (if computeTile tile then []
   else [ts.wordItem, ts.multiItem, ts.fifoItem, ts.lineItem, s.mem.bytes (.tile r tile 0) tileBytes])

/-- A sequencer's items (R154, R434). -/
def State.seqItem (s : State) (r index : Nat) : Option (List Byte) :=
  let c := s.core (.seq r)
  if index < 32 then some (wordBytes (c.reg (BitVec.ofNat 5 index)))
  else
    match index with
    | 32 => some (leBytes 1 (c.preds ||| 1#8).toNat)
    | 33 => some (wordBytes c.pc)
    | 34 => some (leBytes 1 c.priv.code)
    | 35 => some (wordBytes c.iter)
    | 36 => some (leBytes 4 c.seqDiscard.toNat)
    | _ =>
      let n : BitVec 12 := BitVec.ofNat 12 index
      if index / 4096 = 1 ∧ csrOn (.seq r) n then some (wordBytes ({ s with cur := .seq r }.csrRead n)) else none

/-- An arc's item (R428, R434): the oldest committed instance of the identifier. -/
def Region.arcItem (x : Region) (cfgid n : Nat) : Option (List Byte) :=
  match x.committed.find? (fun e => e.cfgid == cfgid) with
  | none => none
  | some e => (e.cfg.arcs[n]?).map (fun a => (x.arc e.cseq n).payload a.slots (x.ahead e a))

/-- A region's items (R434). -/
def State.regionItem (s : State) (r index : Nat) : Option (List Byte) :=
  let x := s.region r
  [x.cacheItem, laid 31 x.haltFields, leBytes 4 x.predUsed.toNat, leBytes 4 x.predEvicted.toNat,
   (List.range 4).flatMap (fun q => leBytes 4 (s.meterWord (4 * r + q))), x.droopItem, x.replayItem][index]?

/-- A cluster's items (R434). -/
def Cluster.item (k : Cluster) (index : Nat) : Option (List Byte) :=
  match index with
  | 0 => some (leBytes 16 k.barArrived.toNat)
  | 1 => some (leBytes 4 k.barGen.toNat)
  | _ => none

/-- A cluster's checkpoint image, as it was written (R424, R434). -/
def State.checkpointItem (s : State) (k : Cluster) : Option (List Byte) := k.checkpoint.map (s.storedImage k.asid)

/-- GROUP_SET as it reads (R360): the bit of MEMBER is always set. -/
def State.groupSet (s : State) : BitVec 576 := s.disp.groupFw ||| (1#576 <<< s.member)

/-- The caravan table (R110): state, ASID, PFLOOR and head of each entry. -/
def State.caravanItem (s : State) : List Byte :=
  laid 29 ((List.range 192).flatMap (fun c =>
    let v := s.caravan c
    [v.state.code, v.asid, v.pfloor, v.head.toNat]))

/-- The holder codes of the semaphores (R107). -/
def State.semItem (s : State) : List Byte := laid 30 ((List.range 64).map (fun n => (s.sem n).holder))

/-- The package's items (R434). -/
def State.packageItem (s : State) (index : Nat) : Option (List Byte) :=
  [s.caravanItem, s.semItem, leBytes 72 s.groupSet.toNat, padTo s.disp.abortLog.flatten 256,
   (List.range 664).flatMap (fun n => leBytes 8 (s.sensor n).word),
   (List.range 512).flatMap (fun q => leBytes 4 (s.meterWord q)), leBytes 2 s.mcr.budget][index]?

/-- The PRESENCE item (R434): the state of the granule an address names through an ASID's tables. -/
def State.presenceItem (s : State) (asid addr : Nat) : State × Option (List Byte) :=
  match s.translate asid addr .presence with
  | (s1, .ok p true) => (s1, some (leBytes 1 (s1.mem.gst p).code))
  | (s1, _) => (s1, none)

/-- The item a selector names, none when it names none (R434). -/
def State.item (s : State) (q : Selector) (addr : Nat) : State × Option (List Byte) :=
  let x := s.region q.region
  let plain := q.cfgid == 0 && decide (q.region < 128)
  let give (b : Bool) (i : Option (List Byte)) : State × Option (List Byte) := (s, if b then i else none)
  match q.cls with
  | 1 => give (plain && decide (q.wh < 512) && (x.site q.wh).hasRecord) (elementRows q.wh (x.site q.wh))[q.index]?
  | 2 => give (plain && decide (q.wh < 64)) (s.tileRows q.region q.wh)[q.index]?
  | 3 => give (plain && q.wh == 0) (s.seqItem q.region q.index)
  | 4 => give (decide (q.region < 128) && q.index == 0) (x.arcItem q.cfgid q.wh)
  | 5 => give (plain && q.wh == 0) (s.regionItem q.region q.index)
  | 6 => give (plain && q.wh == 0) (((s.clusterOf q.region).bind s.cluster?).bind (fun k =>
      if q.index = 2 then s.checkpointItem k else k.item q.index))
  | 7 => give (plain && q.region == 0 && q.wh == 0) (s.packageItem q.index)
  | 8 =>
    if plain ∧ q.region = 0 ∧ q.wh = 0 ∧ q.index < 4096 ∧ (q.index = 0 ∨ (s.aspace? q.index).isSome) then
      s.presenceItem q.index addr
    else (s, none)
  | 9 =>
    give (plain && q.region == 0 && q.index == 0) ((s.disp.saved.find? (fun v => v.cluster.caravan == q.wh)).map (fun v => s.storedImage v.cluster.asid v.image))
  | 10 =>
    give (plain && q.region == 0 && q.wh == 0 && decide (q.index < 4096))
      ((s.aspace? q.index).map (fun a => wordBytes a.fqseq ++ leBytes 8 a.fqNext))
  | _ => (s, none)

/-- The ASID an item belongs to (R436). -/
def State.itemAsid (s : State) (q : Selector) : Option Nat :=
  if 1 ≤ q.cls ∧ q.cls ≤ 6 then ((s.clusterOf q.region).bind s.cluster?).map Cluster.asid
  else if q.cls = 8 ∨ q.cls = 10 then some q.index
  else if q.cls = 9 then (s.disp.saved.find? (fun v => v.cluster.caravan == q.wh)).map (fun v => v.cluster.asid)
  else none

/-- A save image, which is read in place (R435). -/
def Selector.inPlace (q : Selector) : Bool := q.cls == 9 || (q.cls == 6 && q.index == 2)

/-! ## Sealing (R135, R436) -/

/-- The port of a chain; the management core's has none. -/
def chainPort : ChainId → Option PortId
  | .a => some .a
  | .b => some .b
  | .mc => none

/-- An item of an ASID is sealed from a chain (R135, R436). -/
def State.sealedFrom (s : State) (c : ChainId) (asid : Option Nat) : Bool :=
  match asid with
  | none => false
  | some n =>
    !s.sec.debug && (match chainPort c with
      | none => true
      | some p => ((s.aspace? n).bind Aspace.session) != some p)

/-! ## Results (R433, R436) -/

/-- A result granule. -/
def resultBytes (data tag : List Byte) (st len : Nat) : List Byte :=
  slice data 0 32 ++ slice tag 0 16 ++ leBytes 4 st ++ leBytes 4 0 ++ leBytes 8 len

/-- The 32 bytes of an item at an offset as a chain receives them: encrypted under KP for an ASID's session in PRODUCTION,
which counts the result (R436). -/
def State.deliverItem (s : State) (asid : Option Nat) (req item : List Byte) (off : Nat) : State × List Byte :=
  let d := slice item off 32
  if item.length ≤ off then (s, resultBytes [] [] 4 0)
  else
    match asid.bind (fun n => (s.aspace? n).map (fun a => (n, a))) with
    | some (n, a) =>
      if s.sec.debug then (s, resultBytes d [] 0 item.length)
      else
        let iv := beBytes 4 0x52420000 ++ beBytes 8 a.rbctr.toNat
        let (x, tag) := aesGcm (beBytes 32 a.kp.toNat) iv req d
        (s.setAspace n { a with rbctr := a.rbctr + 1#64 }, resultBytes x tag 0 item.length)
    | none => (s, resultBytes d [] 0 item.length)

/-- What a READ gives (R433, R435): the state with its capture, and the result granule. -/
def readItem (s : State) (c : ChainId) (req : List Byte) : State × List Byte :=
  let sel := fieldLe req 16 8
  let off := fieldLe req 24 8
  let addr := fieldLe req 32 8
  let q := selectorOf sel
  let fail (s : State) (st : Nat) : State × List Byte := (s, resultBytes [] [] st 0)
  if fieldLe req 0 1 ≠ 1 ∨ fieldLe req 1 7 ≠ 0 ∨ fieldLe req 40 24 ≠ 0 ∨ fieldLe req 8 8 % 128 ≠ 0 ∨ off % 32 ≠ 0 then fail s 3
  else if off = 0 ∨ q.inPlace then
    match s.item q addr with
    | (s1, none) => fail s1 2
    | (s1, some i) =>
      let asid := s.itemAsid q
      if s.sealedFrom c asid then fail s1 1
      else
        let s2 := if q.inPlace then s1
          else s1.setChain c { s1.disp.chain c with
            capture := some { sel := BitVec.ofNat 64 sel, addr := BitVec.ofNat 64 addr, bytes := i, asid := asid } }
        s2.deliverItem asid req i off
  else
    match (s.disp.chain c).capture with
    | some p =>
      if p.sel.toNat = sel ∧ (q.cls ≠ 8 ∨ p.addr.toNat = addr) then s.deliverItem p.asid req p.bytes off else fail s 5
    | none => fail s 5

/-- The request at the head of a read-back chain, once its granule is FULL. -/
def State.readAt (s : State) (c : ChainId) : Option (W64 × List Byte) :=
  (s.disp.chain c).cell.bind (fun a => (s.cellBytes (.readback c) a.toNat 1).map (fun b => (a, b)))

/-- The chain that is served next: the three are taken round-robin (R433). -/
def State.readTurn (s : State) (c : ChainId) : Bool :=
  let t := s.disp.turn
  let has (x : ChainId) : Bool := (s.readAt x).isSome
  c == t || (!has t && (c == nextChain t || !has (nextChain t)))

/-- READ (R433 to R436): the dispatcher serves a request and fills its result. -/
def execRead (chain : ChainId) (s : State) : Out :=
  match s.readAt chain with
  | none => .next s
  | some (a, req) =>
    if !s.readTurn chain then .next s
    else
      let (s1, res) := readItem s chain req
      let s2 := (s1.fillCell (a.toNat + 64) res).advanceReadback chain (BitVec.ofNat 64 (fieldLe req 8 8))
      .next { s2 with disp := { s2.disp with turn := nextChain chain } }

end Sys2Proof.Machine
end

