-- ==== Sys2Proof/Machine/Links.lean ====
section
/-! DEFINITION. Start-up and links (R103, R109, R119 to R123, R131, R132, R360, R433, R447, R454): power applied and removed,
the Lotar links, the links of the control ports, and GROUP_SET. -/

namespace Sys2Proof.Machine

/-! ## Start-up (R119 to R123) -/

/-- The label of a key of the device, which names a DEBUG device (R123, R131). -/
def deviceLabel (debug : Bool) (what : String) : List Byte :=
  asciiBytes (if debug then "GRS-ERG4A debug " ++ what else "GRS-ERG4A " ++ what)

/-- The private scalar of the device identity key (R123). -/
def identityKey (seed : BitVec 384) (debug : Bool) : Nat :=
  beNat (hmac384 (bytes384 seed) (deviceLabel debug "identity")) % (n384 - 1) + 1

/-- The device save key (R131). -/
def saveKey (seed : BitVec 384) (debug : Bool) : BitVec 512 :=
  BitVec.ofNat 512 (beNat (hkdf384 (bytes384 seed) (deviceLabel debug "save") 64))

/-- The firmware's signature is good (R119): the key it comes with is the fused one, and the signature is the key's. -/
def Flash.genuine (f : Flash) : Bool :=
  vec384 (sha384 (pointBytes (some (f.keyX.toNat, f.keyY.toNat)))) == Config.firmwareKeyHash &&
  ecdsaVerify f.keyX.toNat f.keyY.toNat f.sigR.toNat f.sigS.toNat (sha384 f.image)

/-- The chains' first reads are posted (R119, R121, R433). -/
def State.postChains (s : State) : State :=
  let ports := [PortId.a, PortId.b]
  let s1 := ports.foldl (fun s p => s.postCommand p (firstCommand p)) s
  let s2 := ports.foldl (fun s p => s.postSecurity p (firstSecurity p)) s1
  [ChainId.a, ChainId.b, ChainId.mc].foldl (fun s c => s.postReadback c (firstReadback c)) s2

/-- POWER_REMOVAL (R120): everything but the boot flash, the hosts' memory and what stands outside is lost. -/
def execPowerRemoval (s : State) : Out :=
  .next { State.reset with
    agenda := s.agenda, free := s.free, flash := s.flash, lotar := s.lotar
    mem := { Mems.init with hostA := s.mem.hostA, hostB := s.mem.hostB } }

/-! ## Lotar links (R132, R447, R454) -/

/-- The member that a give waits on can no longer be reached: the give is LOST (R452). -/
def State.loseGive (s : State) : State :=
  match s.pow.giving with
  | some (m, _) => if s.reachable m then s else s.endGive 6
  | none => s

/-- The state with a Lotar link written. -/
def State.setLink (s : State) (n : Nat) (l : Link) : State :=
  { s with sec := { s.sec with links := Table.put s.sec.links n l } }

/-- The fresh key a peer offers is on the curve and signed by its identity key (R132; log entry 51). -/
def peerGood (p : LotarPeer) : Bool :=
  onCurve p.freshX.toNat p.freshY.toNat &&
  ecdsaVerify p.keyX.toNat p.keyY.toNat p.sigR.toNat p.sigS.toNat
    (sha384 (pointBytes (some (p.freshX.toNat, p.freshY.toNat))))

/-- The exchange of fresh keys on a link (R132): the device offers its own, signed by its identity key, and each direction
has a key of the shared secret, with its counter at zero. -/
def State.exchange (s : State) (n : Nat) (p : LotarPeer) : State :=
  let e := (Config.freshScalar s.free).toNat % (n384 - 1) + 1
  let qe := pointBytes (scalarMul e (some g384))
  let z := beNat ((pointBytes (scalarMul e (some (p.freshX.toNat, p.freshY.toNat)))).take 48)
  let (s1, sig) := s.nextFree.sign qe
  s1.setLink n
    { trained := true, member := p.member, beyond := p.beyond
      keyHash := vec384 (sha384 (pointBytes (some (p.keyX.toNat, p.keyY.toNat)))), offered := qe ++ sig
      keyOut := Config.linkKey z s.member p.member, keyIn := Config.linkKey z p.member s.member, ivOut := 0#96, ivIn := 0#96 }

/-- A link that was trained no longer is (R447, R452). -/
def State.dropLink (s : State) (n : Nat) : State :=
  match Table.find? s.sec.links n with
  | some l => if l.trained then ((s.setLink n { l with trained := false }).raiseAlert 3).loseGive else s
  | none => s

/-- A Lotar link trains (R132, R447, R454): with a good signature the keys are exchanged and the budget totals reconciled; a
peer whose signature fails is not trained. -/
def State.train (s : State) (n : Nat) (p : LotarPeer) : State :=
  if 36 ≤ n then s
  else if peerGood p then ((s.exchange n p).reconcile p.member p.cred).raiseAlert 3
  else s.dropLink n

/-- LINK_TRAIN (R132, R447, R454). -/
def execLinkTrain (lotar : Nat) (peer : LotarPeer) (s : State) : Out := .next (s.train lotar peer)

/-- LINK_REKEY (R132): a trained link is trained again, with the fresh key that its peer now offers. -/
def execLinkRekey (lotar : Nat) (s : State) : Out :=
  .next (match Table.find? s.sec.links lotar, Table.find? s.lotar lotar with
    | some l, some peer => if l.trained then s.train lotar peer else s
    | _, _ => s)

/-- LOTAR_LINK_DOWN (R447, R452). -/
def execLotarLinkDown (lotar : Nat) (s : State) : Out := .next (s.dropLink lotar)

/-- Power applied (R119, R120): the keys, the firmware's measurement and signature, the management core started on it, the
Lotar links trained with the peers that stand there, address space 0, and the first reads of the chains. The block of R449
has its fields of start-up, and their TALERT is the last valid one. -/
def State.powerUp (s : State) : State :=
  let debug := Config.debugFuse
  let sec : Sec := { Sec.init with
    debug := debug, fwm := vec384 (sha384 s.flash.image), ident := identityKey Config.seed debug
    ksv := saveKey Config.seed debug }
  let s1 := { s with sec := sec }
  if !s.flash.genuine then { s1 with power := .failed }
  else
    let s2 : State := { s1 with
      power := .on, cur := .mc, mc := { Core.mcInit with run := .running }
      mem := { s1.mem with sram := [] }
      disp := { s1.disp with portA := { s1.disp.portA with up := true }, portB := { s1.disp.portB with up := true } } }
    let s3 := s2.storeSram 0 (s.flash.image.take 0x200000)
    let s4 := (((s3.setSram powerBlock 2 1360).setSram (powerBlock + 4) 5 0).setSram (powerBlock + 24) 12 0)
    let s5 := { s4 with pow := { s4.pow with talert := 1360 } }
    { (s.lotar.foldl (fun s p => s.train p.1 p.2) s5).postChains with agenda := s.agenda }

/-- POWER_ON (R119, R120). -/
def execPowerOn (s : State) : Out := .next (if s.power ≠ .off then s else s.powerUp)

/-! ## The control ports' links (R103, R109) -/

/-- LINK_DOWN (R109): the port's semaphores are released. -/
def execLinkDown (port : PortId) (s : State) : Out :=
  byMc s (fun s =>
    let s1 := s.releaseAll (portHolder port)
    s1.setPort port { s1.port port with up := false })

/-- A first cell is EMPTY, so that a chain may restart there (R103). -/
def State.cellEmpty (s : State) (va : W64) : Bool :=
  match s.as0Place va.toNat with
  | some (p, _) => s.mem.gst p == .empty
  | none => false

/-- The read-back chain of a port. -/
def portChain : PortId → ChainId
  | .a => .a
  | .b => .b

/-- LINK_UP (R103): the port's stopped chains restart at their first cells, each if its first granule is EMPTY (log
entry 43). -/
def execLinkUp (port : PortId) (s : State) : Out :=
  byMc s (fun s =>
    let s0 := s.setPort port { s.port port with up := true }
    let s1 := if (s0.port port).cmd.isNone && s0.cellEmpty (firstCommand port) then s0.postCommand port (firstCommand port)
      else s0
    let s2 := if (s1.port port).sec.isNone && s1.cellEmpty (firstSecurity port) then s1.postSecurity port (firstSecurity port)
      else s1
    let c := portChain port
    if (s2.disp.chain c).cell.isNone && s2.cellEmpty (firstReadback c) then s2.postReadback c (firstReadback c) else s2)

/-- GROUP_SET_WRITE (R360). -/
def execGroupSetWrite (bits : BitVec 576) (s : State) : Out :=
  byMc s (fun s => { s with disp := { s.disp with groupFw := bits } })

end Sys2Proof.Machine
end

