-- ==== Sys2Proof/Machine/LoadStore.lean ====
section
/-! DEFINITION. Scalar loads and stores (R179, R180). -/

namespace Sys2Proof.Machine

/-- The effective address sa + off12 (R159). -/
def effective (s : State) (a : SReg) (off : BitVec 12) : W64 := s.me.reg a + sext12 off

/-- LD of `n` bytes, extended by sign or by zeros (R179). -/
def loadTo (s : State) (i : Instr) (d a : SReg) (off : BitVec 12) (n : Nat) (sgn : Bool) : Out :=
  coreLoad s i (effective s a off) n .read false (fun bs c =>
    c.setReg d (if sgn then BitVec.ofInt 64 (signed (leNat bs) (8 * n)) else BitVec.ofNat 64 (leNat bs)))

/-- ST of the low `n` bytes of sd (R179). -/
def storeFrom (s : State) (i : Instr) (d a : SReg) (off : BitVec 12) (n : Nat) : Out :=
  coreStore s i (effective s a off) (leBytes n (s.me.reg d).toNat)

/-- LD.I8 (R179). -/
def execLdI8 (d a : SReg) (off : BitVec 12) (s : State) : Out := loadTo s (.ldI8 d a off) d a off 1 true

/-- LD.I16 (R179). -/
def execLdI16 (d a : SReg) (off : BitVec 12) (s : State) : Out := loadTo s (.ldI16 d a off) d a off 2 true

/-- LD.I32 (R179). -/
def execLdI32 (d a : SReg) (off : BitVec 12) (s : State) : Out := loadTo s (.ldI32 d a off) d a off 4 true

/-- LD.64 (R179). -/
def execLd64 (d a : SReg) (off : BitVec 12) (s : State) : Out := loadTo s (.ld64 d a off) d a off 8 false

/-- LD.N8 (R179). -/
def execLdN8 (d a : SReg) (off : BitVec 12) (s : State) : Out := loadTo s (.ldN8 d a off) d a off 1 false

/-- LD.N16 (R179). -/
def execLdN16 (d a : SReg) (off : BitVec 12) (s : State) : Out := loadTo s (.ldN16 d a off) d a off 2 false

/-- LD.N32 (R179). -/
def execLdN32 (d a : SReg) (off : BitVec 12) (s : State) : Out := loadTo s (.ldN32 d a off) d a off 4 false

/-- ST.8 (R179). -/
def execSt8 (d a : SReg) (off : BitVec 12) (s : State) : Out := storeFrom s (.st8 d a off) d a off 1

/-- ST.16 (R179). -/
def execSt16 (d a : SReg) (off : BitVec 12) (s : State) : Out := storeFrom s (.st16 d a off) d a off 2

/-- ST.32 (R179). -/
def execSt32 (d a : SReg) (off : BitVec 12) (s : State) : Out := storeFrom s (.st32 d a off) d a off 4

/-- ST.64 (R179). -/
def execSt64 (d a : SReg) (off : BitVec 12) (s : State) : Out := storeFrom s (.st64 d a off) d a off 8

end Sys2Proof.Machine
end

