-- ==== Sys2Proof/Machine/Dispatch.lean ====
section
/-! DEFINITION. The meaning of every operation and event of the opcode table: one arm for each. -/

namespace Sys2Proof.Machine

def exec (i : Instr) (s : State) : Host.Outcome State Fault Refusal :=
  match i with
  | .add d a b => Sys2Proof.Machine.execAdd d a b s
  | .sub d a b => Sys2Proof.Machine.execSub d a b s
  | .mul d a b => Sys2Proof.Machine.execMul d a b s
  | .mulh d a b => Sys2Proof.Machine.execMulh d a b s
  | .mulhn d a b => Sys2Proof.Machine.execMulhn d a b s
  | .div d a b => Sys2Proof.Machine.execDiv d a b s
  | .divn d a b => Sys2Proof.Machine.execDivn d a b s
  | .rem d a b => Sys2Proof.Machine.execRem d a b s
  | .remn d a b => Sys2Proof.Machine.execRemn d a b s
  | .and d a b => Sys2Proof.Machine.execAnd d a b s
  | .or d a b => Sys2Proof.Machine.execOr d a b s
  | .xor d a b => Sys2Proof.Machine.execXor d a b s
  | .andn d a b => Sys2Proof.Machine.execAndn d a b s
  | .sll d a b => Sys2Proof.Machine.execSll d a b s
  | .srl d a b => Sys2Proof.Machine.execSrl d a b s
  | .sra d a b => Sys2Proof.Machine.execSra d a b s
  | .min d a b => Sys2Proof.Machine.execMin d a b s
  | .max d a b => Sys2Proof.Machine.execMax d a b s
  | .minn d a b => Sys2Proof.Machine.execMinn d a b s
  | .maxn d a b => Sys2Proof.Machine.execMaxn d a b s
  | .popc d a => Sys2Proof.Machine.execPopc d a s
  | .clz d a => Sys2Proof.Machine.execClz d a s
  | .sh1add d a b => Sys2Proof.Machine.execSh1add d a b s
  | .sh2add d a b => Sys2Proof.Machine.execSh2add d a b s
  | .sh3add d a b => Sys2Proof.Machine.execSh3add d a b s
  | .addi d a imm => Sys2Proof.Machine.execAddi d a imm s
  | .andi d a imm => Sys2Proof.Machine.execAndi d a imm s
  | .ori d a imm => Sys2Proof.Machine.execOri d a imm s
  | .xori d a imm => Sys2Proof.Machine.execXori d a imm s
  | .slli d a amount => Sys2Proof.Machine.execSlli d a amount s
  | .srli d a amount => Sys2Proof.Machine.execSrli d a amount s
  | .srai d a amount => Sys2Proof.Machine.execSrai d a amount s
  | .liz d hw imm => Sys2Proof.Machine.execLiz d hw imm s
  | .lin d hw imm => Sys2Proof.Machine.execLin d hw imm s
  | .lik d hw imm => Sys2Proof.Machine.execLik d hw imm s
  | .ext d a pos lenm => Sys2Proof.Machine.execExt d a pos lenm s
  | .exts d a pos lenm => Sys2Proof.Machine.execExts d a pos lenm s
  | .ins d a pos lenm => Sys2Proof.Machine.execIns d a pos lenm s
  | .cmp p c a b => Sys2Proof.Machine.execCmp p c a b s
  | .cmpi p c a imm => Sys2Proof.Machine.execCmpi p c a imm s
  | .plog d a b tt => Sys2Proof.Machine.execPlog d a b tt s
  | .sel d a b p => Sys2Proof.Machine.execSel d a b p s
  | .brc p off => Sys2Proof.Machine.execBrc p off s
  | .brcNot p off => Sys2Proof.Machine.execBrcNot p off s
  | .jal d off => Sys2Proof.Machine.execJal d off s
  | .jalr d a imm => Sys2Proof.Machine.execJalr d a imm s
  | .ldI8 d a off => Sys2Proof.Machine.execLdI8 d a off s
  | .ldI16 d a off => Sys2Proof.Machine.execLdI16 d a off s
  | .ldI32 d a off => Sys2Proof.Machine.execLdI32 d a off s
  | .ld64 d a off => Sys2Proof.Machine.execLd64 d a off s
  | .ldN8 d a off => Sys2Proof.Machine.execLdN8 d a off s
  | .ldN16 d a off => Sys2Proof.Machine.execLdN16 d a off s
  | .ldN32 d a off => Sys2Proof.Machine.execLdN32 d a off s
  | .st8 d a off => Sys2Proof.Machine.execSt8 d a off s
  | .st16 d a off => Sys2Proof.Machine.execSt16 d a off s
  | .st32 d a off => Sys2Proof.Machine.execSt32 d a off s
  | .st64 d a off => Sys2Proof.Machine.execSt64 d a off s
  | .lda d a scope w => Sys2Proof.Machine.execLda d a scope w s
  | .stl a b scope w => Sys2Proof.Machine.execStl a b scope w s
  | .aadd d a b scope w => Sys2Proof.Machine.execAadd d a b scope w s
  | .aand d a b scope w => Sys2Proof.Machine.execAand d a b scope w s
  | .aor d a b scope w => Sys2Proof.Machine.execAor d a b scope w s
  | .axor d a b scope w => Sys2Proof.Machine.execAxor d a b scope w s
  | .amin d a b scope w => Sys2Proof.Machine.execAmin d a b scope w s
  | .amax d a b scope w => Sys2Proof.Machine.execAmax d a b scope w s
  | .aminn d a b scope w => Sys2Proof.Machine.execAminn d a b scope w s
  | .amaxn d a b scope w => Sys2Proof.Machine.execAmaxn d a b scope w s
  | .aswp d a b scope w => Sys2Proof.Machine.execAswp d a b scope w s
  | .acas d a b scope w => Sys2Proof.Machine.execAcas d a b scope w s
  | .fence scope => Sys2Proof.Machine.execFence scope s
  | .fenceAcq scope => Sys2Proof.Machine.execFenceAcq scope s
  | .fenceRel scope => Sys2Proof.Machine.execFenceRel scope s
  | .ldf d a scope w => Sys2Proof.Machine.execLdf d a scope w s
  | .pclr a => Sys2Proof.Machine.execPclr a s
  | .probe d a => Sys2Proof.Machine.execProbe d a s
  | .scld d a w => Sys2Proof.Machine.execScld d a w s
  | .scst a b w => Sys2Proof.Machine.execScst a b w s
  | .pref a => Sys2Proof.Machine.execPref a s
  | .cfg a => Sys2Proof.Machine.execCfg a s
  | .run => Sys2Proof.Machine.execRun s
  | .swo a => Sys2Proof.Machine.execSwo a s
  | .injData a b port => Sys2Proof.Machine.execInjData a b port s
  | .injDataP a b port => Sys2Proof.Machine.execInjDataP a b port s
  | .injStop a b port => Sys2Proof.Machine.execInjStop a b port s
  | .take d port => Sys2Proof.Machine.execTake d port s
  | .wex d => Sys2Proof.Machine.execWex d s
  | .halta arc => Sys2Proof.Machine.execHalta arc s
  | .rela arc => Sys2Proof.Machine.execRela arc s
  | .icomma a => Sys2Proof.Machine.execIcomma a s
  | .imode m => Sys2Proof.Machine.execImode m s
  | .bar scope => Sys2Proof.Machine.execBar scope s
  | .launch d a b => Sys2Proof.Machine.execLaunch d a b s
  | .sema n => Sys2Proof.Machine.execSema n s
  | .semr n => Sys2Proof.Machine.execSemr n s
  | .copy d a e => Sys2Proof.Machine.execCopy d a e s
  | .conv d a e => Sys2Proof.Machine.execConv d a e s
  | .coll d a e => Sys2Proof.Machine.execColl d a e s
  | .ewait a => Sys2Proof.Machine.execEwait a s
  | .csrr d csr => Sys2Proof.Machine.execCsrr d csr s
  | .csrw a csr => Sys2Proof.Machine.execCsrw a csr s
  | .csrx d a csr => Sys2Proof.Machine.execCsrx d a csr s
  | .trap code => Sys2Proof.Machine.execTrap code s
  | .rtt => Sys2Proof.Machine.execRtt s
  | .wfe => Sys2Proof.Machine.execWfe s
  | .halt => Sys2Proof.Machine.execHalt s
  | .evtPend v => Sys2Proof.Machine.execEvtPend v s
  | .alertPend v => Sys2Proof.Machine.execAlertPend v s
  | .mcAsinval v => Sys2Proof.Machine.execMcAsinval v s
  | .meterStep v => Sys2Proof.Machine.execMeterStep v s
  | .member v => Sys2Proof.Machine.execMember v s
  | .csrWrite csr v => Sys2Proof.Machine.execCsrWrite csr v s
  | .semAcq port => Sys2Proof.Machine.execSemAcq port s
  | .semRel port => Sys2Proof.Machine.execSemRel port s
  | .carReg port => Sys2Proof.Machine.execCarReg port s
  | .carUnreg port => Sys2Proof.Machine.execCarUnreg port s
  | .asSetSet port => Sys2Proof.Machine.execAsSetSet port s
  | .asSetRemove port => Sys2Proof.Machine.execAsSetRemove port s
  | .asSetInval port => Sys2Proof.Machine.execAsSetInval port s
  | .resSet port => Sys2Proof.Machine.execResSet port s
  | .portReset port => Sys2Proof.Machine.execPortReset port s
  | .cellClr port => Sys2Proof.Machine.execCellClr port s
  | .getCert port => Sys2Proof.Machine.execGetCert port s
  | .attest port => Sys2Proof.Machine.execAttest port s
  | .keyAgree port => Sys2Proof.Machine.execKeyAgree port s
  | .sessionOpen port => Sys2Proof.Machine.execSessionOpen port s
  | .sessionClose port => Sys2Proof.Machine.execSessionClose port s
  | .read chain => Sys2Proof.Machine.execRead chain s
  | .powerOn => Sys2Proof.Machine.execPowerOn s
  | .linkTrain lotar peer => Sys2Proof.Machine.execLinkTrain lotar peer s
  | .linkRekey lotar => Sys2Proof.Machine.execLinkRekey lotar s
  | .linkDown port => Sys2Proof.Machine.execLinkDown port s
  | .linkUp port => Sys2Proof.Machine.execLinkUp port s
  | .launchRecordRead caravan => Sys2Proof.Machine.execLaunchRecordRead caravan s
  | .dependenceFill caravan => Sys2Proof.Machine.execDependenceFill caravan s
  | .imageMeasure caravan => Sys2Proof.Machine.execImageMeasure caravan s
  | .arbitrationRound => Sys2Proof.Machine.execArbitrationRound s
  | .configLoad region site => Sys2Proof.Machine.execConfigLoad region site s
  | .prefetchCheck region => Sys2Proof.Machine.execPrefetchCheck region s
  | .predictorFetch region cfgid => Sys2Proof.Machine.execPredictorFetch region cfgid s
  | .elementAdopt region site => Sys2Proof.Machine.execElementAdopt region site s
  | .switchoverDiscard region site port => Sys2Proof.Machine.execSwitchoverDiscard region site port s
  | .stopHandling region site => Sys2Proof.Machine.execStopHandling region site s
  | .modeHandling region site => Sys2Proof.Machine.execModeHandling region site s
  | .exitArrival region => Sys2Proof.Machine.execExitArrival region s
  | .instanceRetire region => Sys2Proof.Machine.execInstanceRetire region s
  | .storeModeChange region tile => Sys2Proof.Machine.execStoreModeChange region tile s
  | .accessPerformed k => Sys2Proof.Machine.execAccessPerformed k s
  | .scAccessPerform => Sys2Proof.Machine.execScAccessPerform s
  | .teCopy e => Sys2Proof.Machine.execTeCopy e s
  | .cvCast e => Sys2Proof.Machine.execCvCast e s
  | .cvCsr e => Sys2Proof.Machine.execCvCsr e s
  | .clAllreduce e peers => Sys2Proof.Machine.execClAllreduce e peers s
  | .clRedscat e peers => Sys2Proof.Machine.execClRedscat e peers s
  | .clAllgather e peers => Sys2Proof.Machine.execClAllgather e peers s
  | .clBcast e peers => Sys2Proof.Machine.execClBcast e peers s
  | .engineCommandEnd e => Sys2Proof.Machine.execEngineCommandEnd e s
  | .phaseMessage member gtag phase => Sys2Proof.Machine.execPhaseMessage member gtag phase s
  | .pacingDescriptorValid idx => Sys2Proof.Machine.execPacingDescriptorValid idx s
  | .parkComplete agent => Sys2Proof.Machine.execParkComplete agent s
  | .faultRecordWrite asid => Sys2Proof.Machine.execFaultRecordWrite asid s
  | .fqLinkRead asid => Sys2Proof.Machine.execFqLinkRead asid s
  | .resume asid => Sys2Proof.Machine.execResume asid s
  | .substitute asid => Sys2Proof.Machine.execSubstitute asid s
  | .abort asid => Sys2Proof.Machine.execAbort asid s
  | .clusterAbort => Sys2Proof.Machine.execClusterAbort s
  | .elementFreeze region site => Sys2Proof.Machine.execElementFreeze region site s
  | .snapshotComplete cluster => Sys2Proof.Machine.execSnapshotComplete cluster s
  | .clusterComplete cluster => Sys2Proof.Machine.execClusterComplete cluster s
  | .sensorSweep raw pwr => Sys2Proof.Machine.execSensorSweep raw pwr s
  | .tickEnd ticks => Sys2Proof.Machine.execTickEnd ticks s
  | .droop region quadrant => Sys2Proof.Machine.execDroop region quadrant s
  | .emergencyExpire region quadrant => Sys2Proof.Machine.execEmergencyExpire region quadrant s
  | .learnedHoldExpire region => Sys2Proof.Machine.execLearnedHoldExpire region s
  | .give => Sys2Proof.Machine.execGive s
  | .giveReceive member count => Sys2Proof.Machine.execGiveReceive member count s
  | .giveAnswer res => Sys2Proof.Machine.execGiveAnswer res s
  | .illegalInstruction w => Sys2Proof.Machine.execIllegalInstruction w s
  | .fetch => Sys2Proof.Machine.execFetch s
  | .powerRemoval => Sys2Proof.Machine.execPowerRemoval s
  | .lotarLinkDown lotar => Sys2Proof.Machine.execLotarLinkDown lotar s
  | .groupSetWrite bits => Sys2Proof.Machine.execGroupSetWrite bits s
  | .veAdd region site => Sys2Proof.Machine.execVeAdd region site s
  | .veSub region site => Sys2Proof.Machine.execVeSub region site s
  | .veMul region site => Sys2Proof.Machine.execVeMul region site s
  | .veFma region site => Sys2Proof.Machine.execVeFma region site s
  | .veFms region site => Sys2Proof.Machine.execVeFms region site s
  | .veNeg region site => Sys2Proof.Machine.execVeNeg region site s
  | .veAbs region site => Sys2Proof.Machine.execVeAbs region site s
  | .veMin region site => Sys2Proof.Machine.execVeMin region site s
  | .veMax region site => Sys2Proof.Machine.execVeMax region site s
  | .veClamp region site => Sys2Proof.Machine.execVeClamp region site s
  | .veCmp region site => Sys2Proof.Machine.execVeCmp region site s
  | .veSelect region site => Sys2Proof.Machine.execVeSelect region site s
  | .veCvt region site => Sys2Proof.Machine.execVeCvt region site s
  | .veCvtEmit region site => Sys2Proof.Machine.execVeCvtEmit region site s
  | .veRint region site => Sys2Proof.Machine.execVeRint region site s
  | .veScale region site => Sys2Proof.Machine.execVeScale region site s
  | .veShl region site => Sys2Proof.Machine.execVeShl region site s
  | .veShr region site => Sys2Proof.Machine.execVeShr region site s
  | .veSar region site => Sys2Proof.Machine.execVeSar region site s
  | .veAnd region site => Sys2Proof.Machine.execVeAnd region site s
  | .veOr region site => Sys2Proof.Machine.execVeOr region site s
  | .veXor region site => Sys2Proof.Machine.execVeXor region site s
  | .veNot region site => Sys2Proof.Machine.execVeNot region site s
  | .veAndn region site => Sys2Proof.Machine.execVeAndn region site s
  | .veExp2 region site => Sys2Proof.Machine.execVeExp2 region site s
  | .veLog2 region site => Sys2Proof.Machine.execVeLog2 region site s
  | .veRcp region site => Sys2Proof.Machine.execVeRcp region site s
  | .veRsqrt region site => Sys2Proof.Machine.execVeRsqrt region site s
  | .veSqrt region site => Sys2Proof.Machine.execVeSqrt region site s
  | .veTanh region site => Sys2Proof.Machine.execVeTanh region site s
  | .veLogistic region site => Sys2Proof.Machine.execVeLogistic region site s
  | .veBcast region site => Sys2Proof.Machine.execVeBcast region site s
  | .vePerm region site => Sys2Proof.Machine.execVePerm region site s
  | .veRot region site => Sys2Proof.Machine.execVeRot region site s
  | .veRsum region site => Sys2Proof.Machine.execVeRsum region site s
  | .vePsum region site => Sys2Proof.Machine.execVePsum region site s
  | .veRmax region site => Sys2Proof.Machine.execVeRmax region site s
  | .veRmin region site => Sys2Proof.Machine.execVeRmin region site s
  | .veTacc region site => Sys2Proof.Machine.execVeTacc region site s
  | .veTaccClose region site => Sys2Proof.Machine.execVeTaccClose region site s
  | .veMxpack region site => Sys2Proof.Machine.execVeMxpack region site s
  | .veMxpackEmit region site => Sys2Proof.Machine.execVeMxpackEmit region site s
  | .veMxunpack region site => Sys2Proof.Machine.execVeMxunpack region site s
  | .veMxunpackEmit region site => Sys2Proof.Machine.execVeMxunpackEmit region site s
  | .veAmask region site => Sys2Proof.Machine.execVeAmask region site s
  | .veConst region site => Sys2Proof.Machine.execVeConst region site s
  | .veSteer region site => Sys2Proof.Machine.execVeSteer region site s
  | .veMerge region site => Sys2Proof.Machine.execVeMerge region site s
  | .veCarry region site => Sys2Proof.Machine.execVeCarry region site s
  | .veInv region site => Sys2Proof.Machine.execVeInv region site s
  | .veFork region site => Sys2Proof.Machine.execVeFork region site s
  | .veSink region site => Sys2Proof.Machine.execVeSink region site s
  | .sqLoopa region site => Sys2Proof.Machine.execSqLoopa region site s
  | .sqLoopt region site => Sys2Proof.Machine.execSqLoopt region site s
  | .sqMxcmd region site => Sys2Proof.Machine.execSqMxcmd region site s
  | .sqSeq region site => Sys2Proof.Machine.execSqSeq region site s
  | .sqPipe region site => Sys2Proof.Machine.execSqPipe region site s
  | .sqStream region site => Sys2Proof.Machine.execSqStream region site s
  | .sqPermit region site => Sys2Proof.Machine.execSqPermit region site s
  | .sqDone region site => Sys2Proof.Machine.execSqDone region site s
  | .sqCount region site => Sys2Proof.Machine.execSqCount region site s
  | .sqExit region site => Sys2Proof.Machine.execSqExit region site s
  | .mxMma region site => Sys2Proof.Machine.execMxMma region site s
  | .mxMmt region site => Sys2Proof.Machine.execMxMmt region site s
  | .mxMres region site => Sys2Proof.Machine.execMxMres region site s
  | .mxTxch region site => Sys2Proof.Machine.execMxTxch region site s
  | .mxDrain region site => Sys2Proof.Machine.execMxDrain region site s
  | .mxLdacc region site => Sys2Proof.Machine.execMxLdacc region site s
  | .mxZero region site => Sys2Proof.Machine.execMxZero region site s
  | .mxErrorCommand region site => Sys2Proof.Machine.execMxErrorCommand region site s
  | .mxStep region site => Sys2Proof.Machine.execMxStep region site s
  | .mxLdaccBeat region site => Sys2Proof.Machine.execMxLdaccBeat region site s
  | .mxDrainBeat region site => Sys2Proof.Machine.execMxDrainBeat region site s
  | .mxStopBoundary region site => Sys2Proof.Machine.execMxStopBoundary region site s
  | .agAload region site => Sys2Proof.Machine.execAgAload region site s
  | .agAstore region site => Sys2Proof.Machine.execAgAstore region site s
  | .agGather region site => Sys2Proof.Machine.execAgGather region site s
  | .agScatter region site => Sys2Proof.Machine.execAgScatter region site s
  | .agDload region site => Sys2Proof.Machine.execAgDload region site s
  | .agDloadEmit region site => Sys2Proof.Machine.execAgDloadEmit region site s
  | .agPclear region site => Sys2Proof.Machine.execAgPclear region site s
  | .agFill region site => Sys2Proof.Machine.execAgFill region site s
  | .agResponseEmit region site => Sys2Proof.Machine.execAgResponseEmit region site s
  | .agCompletion region site => Sys2Proof.Machine.execAgCompletion region site s
  | .hdBvscan region site => Sys2Proof.Machine.execHdBvscan region site s
  | .hdBtscan region site => Sys2Proof.Machine.execHdBtscan region site s
  | .hdScanEmit region site => Sys2Proof.Machine.execHdScanEmit region site s
  | .hdMclass region site => Sys2Proof.Machine.execHdMclass region site s
  | .hdPmask region site => Sys2Proof.Machine.execHdPmask region site s
  | .hdPmaskRow region site => Sys2Proof.Machine.execHdPmaskRow region site s
  | .owOadd region site => Sys2Proof.Machine.execOwOadd region site s
  | .owOmin region site => Sys2Proof.Machine.execOwOmin region site s
  | .owOmax region site => Sys2Proof.Machine.execOwOmax region site s
  | .owOand region site => Sys2Proof.Machine.execOwOand region site s
  | .owOor region site => Sys2Proof.Machine.execOwOor region site s
  | .owOxor region site => Sys2Proof.Machine.execOwOxor region site s
  | .owOswp region site => Sys2Proof.Machine.execOwOswp region site s
  | .owOcas region site => Sys2Proof.Machine.execOwOcas region site s
  | .owOinc region site => Sys2Proof.Machine.execOwOinc region site s
  | .owOmxacc region site => Sys2Proof.Machine.execOwOmxacc region site s
  | .owOread region site => Sys2Proof.Machine.execOwOread region site s
  | .owCompletion region site => Sys2Proof.Machine.execOwCompletion region site s
  | .brEreq region site => Sys2Proof.Machine.execBrEreq region site s
  | .brEresp region site => Sys2Proof.Machine.execBrEresp region site s
  | .brRload region site => Sys2Proof.Machine.execBrRload region site s
  | .brRstore region site => Sys2Proof.Machine.execBrRstore region site s
  | .brRatom region site => Sys2Proof.Machine.execBrRatom region site s

end Sys2Proof.Machine
end

