-- ==== Sys2Proof/Machine/Outside.lean ====
section
/-! DEFINITION. What the outside does to the device (R102, R338, R340, R404): the acts that no instruction or event of the
opcode table stands for. -/

namespace Sys2Proof.Machine

/-- Bytes cut at the granule borders of an address: the address and bytes of each piece. -/
def cutGranules : Nat → Nat → List Byte → List (Nat × List Byte)
  | 0, _, _ => []
  | n + 1, a, bs =>
    let room := 64 - a % 64
    if bs.isEmpty then [] else (a, bs.take room) :: cutGranules n (a + room) (bs.drop room)

/-- The text of an RDMA payload (R131): for a keyed address space under AES-256-GCM with its key KP, and none where the tag
fails (log entry 51). -/
def State.rdmaText (s : State) (asid : Nat) (bs iv tag : List Byte) : Option (List Byte) :=
  if s.isKeyed asid then
    match s.aspace? asid with
    | some a => aesGcmOpen (beBytes 32 a.kp.toNat) iv [] bs tag
    | none => none
  else some bs

/-- A store that arrives over RDMA through an address space (R102): one that faults or that presence refuses is dropped. -/
def rdmaPiece (asid : Nat) (s : State) (q : Nat × List Byte) : State :=
  match s.translate asid q.1 .write with
  | (s1, .ok p sa) =>
    match s1.storeAt asid p sa q.2 false with
    | .ok s2 => s2
    | .presence _ => s1
  | (s1, _) => s1

/-- A store that arrives from another member (R118, R339): a fill, with the launch mark it leaves, or a store of ordinary
memory; the save store refuses it (R416). What a keyed address space wrote arrives encrypted and sets the key bit (R131). -/
def peerPiece (fill mark keyed : Bool) (s : State) (q : Nat × List Byte) : State :=
  let a := q.1 % 2 ^ 47
  if q.1 / 2 ^ 47 ≠ s.member ∨ saveStore ≤ a then s
  else
    match s.storeBy (fun s => if keyed then s.storeCipher (.hbm a) q.2 else s.storeBytes 0 (.hbm a) q.2) (.hbm a) fill mark with
    | .ok s1 => s1
    | .presence _ => s

/-- What reaches the package over its ports and links while it is powered; without power it serves nothing (R120). -/
def whilePowered (s t : State) : State := if s.power = .on then t else s

/-- An act of the outside. -/
def hostAct (a : HostAct) (s : State) : State :=
  match a with
  | .store asid va bs iv tag =>
    match s.rdmaText asid bs iv tag with
    | some x => whilePowered s ((cutGranules (x.length + 1) va x).foldl (rdmaPiece asid) s)
    | none => s
  | .peerStore gpa bs fill mark keyed => whilePowered s ((cutGranules (bs.length + 1) gpa bs).foldl (peerPiece fill mark keyed) s)
  | .hostWrite port off bs => { s with mem := s.mem.setBytes (.host port off) bs }
  | .advertise port w =>
    whilePowered s { s with disp := s.disp.setPort port { s.disp.port port with window := w } }
  | .strike p => { s with mem := { s.mem with ecc := if s.mem.ecc.contains p.granule then s.mem.ecc else s.mem.ecc ++ [p.granule] } }
  | .flash f => { s with flash := f }
  | .lotar l => { s with lotar := l }

end Sys2Proof.Machine
end

