-- ==== Sys2Proof/Machine/Cycle.lean ====
section
/-! DEFINITION. What moves in a step (log entry 1): the start-up of the device while power is off, the head of the agenda,
or the current core. -/

namespace Sys2Proof.Machine

/-- A fetched word is decoded and run; a word that is no instruction raises ILLEGAL (R68, R156). -/
def runWord (w : W32) (s : State) : Out :=
  match decode w with
  | .ok i => exec i s
  | .error _ => exec (.illegalInstruction w) s

/-- A turn of the current core (R156): it fetches a word and runs it; the word of an instruction that waits is not fetched
again. A fetch that fails raises FETCH; one that meets an EMPTY granule waits. -/
def coreTurn (s : State) : Out :=
  match s.me.fetched with
  | some w => runWord w s
  | none =>
    match s.fetchWord with
    | (s1, .ok w) => runWord w (s1.setMe { s1.me with fetched := some w })
    | (s1, .wait) => .next s1
    | (_, .trap _) => exec .fetch s
    | (s1, .fatal cls) => coreFatal s1 cls

/-- A core executes instructions (R162, R185, R186, R190). -/
def Core.canRun (c : Core) : Bool := c.run == .running

/-- A step with nothing on the agenda: an SC access the current core waits for is performed (R391); else the core runs; a
core that executes nothing leaves the device where it is. -/
def idleTurn (s : State) : Out :=
  if s.me.canRun then
    if s.me.wait = .scPosted then exec .scAccessPerform s else coreTurn s
  else .fault .idle

/-- What a step does with the head of the agenda, taken off it. -/
def takeTurn (t : Turn) (s : State) : Out :=
  match t with
  | .host a => .next (hostAct a s)
  | .event i => if (encode i).isSome then .next s else exec i s
  | .core c =>
    let s1 := { s with cur := c }
    if s1.me.canRun then coreTurn s1 else .next s1

/-- The turn of a device without power, or one that serves nothing (R119, R120): the outside can act on it, power can be
removed, and power applied starts it. -/
def darkTurn (s : State) : Out :=
  match s.agenda with
  | .host a :: rest => .next (hostAct a { s with agenda := rest })
  | .event .powerRemoval :: rest => exec .powerRemoval { s with agenda := rest }
  | t :: rest =>
    if s.power = .off then
      match t with
      | .event .powerOn => exec .powerOn { s with agenda := rest }
      | _ => exec .powerOn s
    else .next { s with agenda := rest }
  | [] => if s.power = .off then exec .powerOn s else .fault .idle

/-- One step of the device. -/
def turn (s : State) : Out :=
  if s.power = .on then
    match s.agenda with
    | [] => idleTurn s
    | t :: rest => takeTurn t { s with agenda := rest }
  else darkTurn s

/-- The PC from which the management core can fetch (R158). -/
def fetchable (pc : W64) : W64 := if pc.toNat < 0x200000 then pc else 0#64

/-- The management core made ready to fetch the bits of `w` next: they stand in its SRAM where it fetches, as the hardware
stores a word, and it is the core that moves (log entry 2). -/
def State.placeWord (s : State) (nbits w : Nat) : State :=
  let pc := fetchable s.mc.pc
  { s with
    power := .on, agenda := [], cur := .mc,
    mc := { s.mc with pc := pc, run := .running, wait := .none, fetched := none }
    mem := { s.mem with sram := Memory.writeAll s.mem.sram pc.toNat (leBytes 4 (w % 2 ^ nbits)) } }

end Sys2Proof.Machine
end

