-- ==== Sys2Proof/Safety.lean ====
section
/-! DEFINITION. What claims call a run without harm: the memories stay in their canonical form. -/

namespace Sys2Proof.Machine

/-- The memories of the device are in canonical form: addresses strictly rising, and no entry that equals what an unlisted
address reads as. -/
def State.memWf (s : State) : Bool := s.mem.wf

end Sys2Proof.Machine
end

