-- ==== Sys2Proof/Certificates/Slice0/Obligations.lean ====
section
/-! DEFINITION. What is claimed of the model: statements for the provers, and the words they are written in. -/

namespace Sys2Proof.Claims

open Sys2Proof.Machine

/-! ## The words of the statements -/

/-- From `s`, the operation or event `i` answers a next state, and that state meets `P`. -/
def Completes (i : Instr) (s : State) (P : State → Prop) : Prop := ∃ t, exec i s = .next t ∧ P t

/-- Nothing but the current core differs between the two states: every byte of memory, every presence state, every other
core, every element and the dispatcher are as before. -/
def OnlyCore (s t : State) : Prop := t = s.setMe t.me

/-- The current core's instruction has completed (R160, R164): the PC is `pc`, INSN_COUNT has gained 1, and no field of the
core but its registers and predicates differs otherwise. -/
def Completed (c c' : Core) (pc : W64) : Prop :=
  c' = { c with regs := c'.regs, preds := c'.preds, pc := pc, insnCount := c.insnCount + 1#64, wait := .none,
                fetched := none }

/-- The scalar registers after a write of sd: sd holds the value, a write of s0 is discarded, every other register is as
before (R154, R160). -/
def RegsAfter (c c' : Core) (d : SReg) (v : W64) : Prop :=
  ∀ e, c'.reg e = if e = d ∧ d ≠ 0#5 then v else c.reg e

/-- The predicates after a write of pd: pd holds the truth, a write of p0 is discarded, every other predicate is as before
(R154, R160). -/
def PredsAfter (c c' : Core) (p : PReg) (b : Bool) : Prop :=
  ∀ q, c'.pred q = if q = p ∧ p ≠ 0#3 then b else c.pred q

/-- The instruction completes and the next one follows it; it writes sd, and nothing else in the device differs. -/
def WritesReg (i : Instr) (s : State) (d : SReg) (v : W64) : Prop :=
  Completes i s fun t => OnlyCore s t ∧ Completed s.me t.me (s.me.pc + 4#64) ∧ RegsAfter s.me t.me d v ∧
    t.me.preds = s.me.preds

/-- The instruction completes and the next one follows it; it writes pd, and nothing else in the device differs. -/
def WritesPred (i : Instr) (s : State) (p : PReg) (b : Bool) : Prop :=
  Completes i s fun t => OnlyCore s t ∧ Completed s.me t.me (s.me.pc + 4#64) ∧ PredsAfter s.me t.me p b ∧
    t.me.regs = s.me.regs

/-- The instruction completes with the PC at `pc`; it changes no register, and nothing else in the device differs. -/
def Goes (i : Instr) (s : State) (pc : W64) : Prop :=
  Completes i s fun t => OnlyCore s t ∧ Completed s.me t.me pc ∧ t.me.regs = s.me.regs ∧ t.me.preds = s.me.preds

/-! ## Integer, bitfield and predicate instructions -/

/-- The word of an ALU function on registers (R168). -/
def aluWord (d a b : SReg) (fn : Nat) : W32 :=
  BitVec.ofNat 32 (0x04000000 + d.toNat * 2 ^ 21 + a.toNat * 2 ^ 16 + b.toNat * 2 ^ 11 + fn)

/-- The word of a wide immediate (R171). -/
def wideWord (d : SReg) (hw : BitVec 2) (fn : Nat) (imm : BitVec 16) : W32 :=
  BitVec.ofNat 32 (0x24000000 + d.toNat * 2 ^ 21 + hw.toNat * 2 ^ 19 + fn * 2 ^ 17 + imm.toNat)

end Sys2Proof.Claims

open Sys2Proof Sys2Proof.Machine Sys2Proof.Claims

/-- R168, R169: the sums, differences, products, quotients and remainders of the ALU, each as the integer the rule names cut
to 64 bits, with the borders of a zero divisor; and that nothing else changes. -/
def Sys2Proof.Claims.AluArithmetic : Prop :=
  ∀ (s : State) (d a b : SReg),
    let x := s.me.reg a
    let y := s.me.reg b
    WritesReg (.add d a b) s d (BitVec.ofNat 64 (x.toNat + y.toNat)) ∧
    WritesReg (.sub d a b) s d (BitVec.ofInt 64 (x.toInt - y.toInt)) ∧
    WritesReg (.mul d a b) s d (BitVec.ofNat 64 (x.toNat * y.toNat)) ∧
    WritesReg (.mulh d a b) s d ((BitVec.ofInt 128 (x.toInt * y.toInt)).extractLsb' 64 64) ∧
    WritesReg (.mulhn d a b) s d ((BitVec.ofNat 128 (x.toNat * y.toNat)).extractLsb' 64 64) ∧
    WritesReg (.div d a b) s d
      (if y = 0#64 then 0xFFFFFFFFFFFFFFFF#64 else BitVec.ofInt 64 (x.toInt.tdiv y.toInt)) ∧
    WritesReg (.divn d a b) s d
      (if y = 0#64 then 0xFFFFFFFFFFFFFFFF#64 else BitVec.ofNat 64 (x.toNat / y.toNat)) ∧
    WritesReg (.rem d a b) s d (if y = 0#64 then x else BitVec.ofInt 64 (x.toInt.tmod y.toInt)) ∧
    WritesReg (.remn d a b) s d (if y = 0#64 then x else BitVec.ofNat 64 (x.toNat % y.toNat)) ∧
    WritesReg (.sh1add d a b) s d (BitVec.ofNat 64 (2 * x.toNat + y.toNat)) ∧
    WritesReg (.sh2add d a b) s d (BitVec.ofNat 64 (4 * x.toNat + y.toNat)) ∧
    WritesReg (.sh3add d a b) s d (BitVec.ofNat 64 (8 * x.toNat + y.toNat))

/-- R168: logic, shifts by sb[5:0], signed and unsigned extremes, the bit count and the leading zero count. -/
def Sys2Proof.Claims.AluLogic : Prop :=
  ∀ (s : State) (d a b : SReg),
    let x := s.me.reg a
    let y := s.me.reg b
    let n := y.toNat % 64
    WritesReg (.and d a b) s d (x &&& y) ∧
    WritesReg (.or d a b) s d (x ||| y) ∧
    WritesReg (.xor d a b) s d (x ^^^ y) ∧
    WritesReg (.andn d a b) s d (x &&& ~~~y) ∧
    WritesReg (.sll d a b) s d (BitVec.ofNat 64 (x.toNat * 2 ^ n)) ∧
    WritesReg (.srl d a b) s d (BitVec.ofNat 64 (x.toNat / 2 ^ n)) ∧
    WritesReg (.sra d a b) s d (BitVec.ofInt 64 (x.toInt / 2 ^ n)) ∧
    WritesReg (.min d a b) s d (BitVec.ofInt 64 (min x.toInt y.toInt)) ∧
    WritesReg (.max d a b) s d (BitVec.ofInt 64 (max x.toInt y.toInt)) ∧
    WritesReg (.minn d a b) s d (BitVec.ofNat 64 (min x.toNat y.toNat)) ∧
    WritesReg (.maxn d a b) s d (BitVec.ofNat 64 (max x.toNat y.toNat)) ∧
    WritesReg (.popc d a) s d (BitVec.ofNat 64 (Finset.univ.filter (fun i : Fin 64 => x.getLsbD i)).card) ∧
    WritesReg (.clz d a) s d (BitVec.ofNat 64 (64 - Nat.size x.toNat))

/-- R170: the immediate forms; ADDI extends its immediate by sign, the logic forms by zeros. -/
def Sys2Proof.Claims.AluImmediate : Prop :=
  ∀ (s : State) (d a : SReg) (imm : BitVec 16) (n : BitVec 6),
    let x := s.me.reg a
    WritesReg (.addi d a imm) s d (BitVec.ofInt 64 (x.toInt + imm.toInt)) ∧
    WritesReg (.andi d a imm) s d (BitVec.ofNat 64 (x.toNat &&& imm.toNat)) ∧
    WritesReg (.ori d a imm) s d (BitVec.ofNat 64 (x.toNat ||| imm.toNat)) ∧
    WritesReg (.xori d a imm) s d (BitVec.ofNat 64 (x.toNat ^^^ imm.toNat)) ∧
    WritesReg (.slli d a n) s d (BitVec.ofNat 64 (x.toNat * 2 ^ n.toNat)) ∧
    WritesReg (.srli d a n) s d (BitVec.ofNat 64 (x.toNat / 2 ^ n.toNat)) ∧
    WritesReg (.srai d a n) s d (BitVec.ofInt 64 (x.toInt / 2 ^ n.toNat))

/-- R168: the words of the register forms. -/
def Sys2Proof.Claims.AluEncodings : Prop :=
  ∀ d a b : SReg,
    encode (.add d a b) = some (aluWord d a b 0x00) ∧
    encode (.sub d a b) = some (aluWord d a b 0x01) ∧
    encode (.mul d a b) = some (aluWord d a b 0x02) ∧
    encode (.mulh d a b) = some (aluWord d a b 0x03) ∧
    encode (.mulhn d a b) = some (aluWord d a b 0x04) ∧
    encode (.div d a b) = some (aluWord d a b 0x05) ∧
    encode (.divn d a b) = some (aluWord d a b 0x06) ∧
    encode (.rem d a b) = some (aluWord d a b 0x07) ∧
    encode (.remn d a b) = some (aluWord d a b 0x08) ∧
    encode (.and d a b) = some (aluWord d a b 0x09) ∧
    encode (.or d a b) = some (aluWord d a b 0x0A) ∧
    encode (.xor d a b) = some (aluWord d a b 0x0B) ∧
    encode (.andn d a b) = some (aluWord d a b 0x0C) ∧
    encode (.sll d a b) = some (aluWord d a b 0x0D) ∧
    encode (.srl d a b) = some (aluWord d a b 0x0E) ∧
    encode (.sra d a b) = some (aluWord d a b 0x0F) ∧
    encode (.min d a b) = some (aluWord d a b 0x10) ∧
    encode (.max d a b) = some (aluWord d a b 0x11) ∧
    encode (.minn d a b) = some (aluWord d a b 0x12) ∧
    encode (.maxn d a b) = some (aluWord d a b 0x13) ∧
    encode (.popc d a) = some (aluWord d a 0#5 0x14) ∧
    encode (.clz d a) = some (aluWord d a 0#5 0x15) ∧
    encode (.sh1add d a b) = some (aluWord d a b 0x16) ∧
    encode (.sh2add d a b) = some (aluWord d a b 0x17) ∧
    encode (.sh3add d a b) = some (aluWord d a b 0x18)

/-- R168 to R170: integer arithmetic and logic between registers and with immediates, and the words of the register forms. -/
def Obligations.IntegerArithmetic : Prop :=
  Claims.AluArithmetic ∧ Claims.AluLogic ∧ Claims.AluImmediate ∧ Claims.AluEncodings

/-- R171 and R172: the wide immediates halfword by halfword, and the bit fields bit by bit, for every field that ends at or
below bit 63. -/
def Sys2Proof.Claims.WideAndFields : Prop :=
  (∀ (s : State) (d : SReg) (hw : BitVec 2) (imm : BitVec 16), ∃ z n k : W64,
    WritesReg (.liz d hw imm) s d z ∧ WritesReg (.lin d hw imm) s d n ∧ WritesReg (.lik d hw imm) s d k ∧
    ∀ h : Fin 4,
      z.extractLsb' (16 * h) 16 = (if (h : Nat) = hw.toNat then imm else 0#16) ∧
      n.extractLsb' (16 * h) 16 = (if (h : Nat) = hw.toNat then imm else 0xFFFF#16) ∧
      k.extractLsb' (16 * h) 16 = (if (h : Nat) = hw.toNat then imm else (s.me.reg d).extractLsb' (16 * h) 16)) ∧
  ∀ (s : State) (d a : SReg) (pos lenm : BitVec 6), pos.toNat + lenm.toNat + 1 ≤ 64 →
    let x := s.me.reg a
    let len := lenm.toNat + 1
    ∃ u g v : W64,
      WritesReg (.ext d a pos lenm) s d u ∧ WritesReg (.exts d a pos lenm) s d g ∧ WritesReg (.ins d a pos lenm) s d v ∧
      ∀ i, i < 64 →
        u.getLsbD i = (decide (i < len) && x.getLsbD (pos.toNat + i)) ∧
        g.getLsbD i = x.getLsbD (pos.toNat + min i (len - 1)) ∧
        v.getLsbD i = (if pos.toNat ≤ i ∧ i < pos.toNat + len then x.getLsbD (i - pos.toNat)
          else (s.me.reg d).getLsbD i)

/-- R173 to R175: the truths the compares form, predicate logic by its truth table, and the select. -/
def Sys2Proof.Claims.ComparesAndPredicates : Prop :=
  (∀ (s : State) (p : PReg) (a b : SReg),
    let x := s.me.reg a
    let y := s.me.reg b
    WritesPred (.cmp p .eq a b) s p (decide (x = y)) ∧ WritesPred (.cmp p .ne a b) s p (decide (x ≠ y)) ∧
    WritesPred (.cmp p .lt a b) s p (decide (x.toInt < y.toInt)) ∧
    WritesPred (.cmp p .ge a b) s p (decide (y.toInt ≤ x.toInt)) ∧
    WritesPred (.cmp p .ltn a b) s p (decide (x.toNat < y.toNat)) ∧
    WritesPred (.cmp p .gen a b) s p (decide (y.toNat ≤ x.toNat)) ∧
    WritesPred (.cmp p .le a b) s p (decide (x.toInt ≤ y.toInt)) ∧
    WritesPred (.cmp p .gt a b) s p (decide (y.toInt < x.toInt)) ∧
    WritesPred (.cmp p .len a b) s p (decide (x.toNat ≤ y.toNat)) ∧
    WritesPred (.cmp p .gtn a b) s p (decide (y.toNat < x.toNat)) ∧
    WritesPred (.cmp p .tst a b) s p (decide (x &&& y ≠ 0#64)) ∧
    WritesPred (.cmp p .ntst a b) s p (decide (x &&& y = 0#64))) ∧
  (∀ (s : State) (p : PReg) (a : SReg) (imm : BitVec 14),
    let x := s.me.reg a
    let y : W64 := BitVec.ofInt 64 imm.toInt
    WritesPred (.cmpi p .eq a imm) s p (decide (x = y)) ∧ WritesPred (.cmpi p .ne a imm) s p (decide (x ≠ y)) ∧
    WritesPred (.cmpi p .lt a imm) s p (decide (x.toInt < imm.toInt)) ∧
    WritesPred (.cmpi p .ge a imm) s p (decide (imm.toInt ≤ x.toInt)) ∧
    WritesPred (.cmpi p .ltn a imm) s p (decide (x.toNat < y.toNat)) ∧
    WritesPred (.cmpi p .gen a imm) s p (decide (y.toNat ≤ x.toNat)) ∧
    WritesPred (.cmpi p .le a imm) s p (decide (x.toInt ≤ imm.toInt)) ∧
    WritesPred (.cmpi p .gt a imm) s p (decide (imm.toInt < x.toInt)) ∧
    WritesPred (.cmpi p .len a imm) s p (decide (x.toNat ≤ y.toNat)) ∧
    WritesPred (.cmpi p .gtn a imm) s p (decide (y.toNat < x.toNat)) ∧
    WritesPred (.cmpi p .tst a imm) s p (decide (x &&& y ≠ 0#64)) ∧
    WritesPred (.cmpi p .ntst a imm) s p (decide (x &&& y = 0#64))) ∧
  (∀ (s : State) (p q r : PReg) (tt : BitVec 4),
    WritesPred (.plog p q r tt) s p (tt.getLsbD (2 * (s.me.pred q).toNat + (s.me.pred r).toNat))) ∧
  ∀ (s : State) (d a b : SReg) (p : PReg),
    WritesReg (.sel d a b p) s d (if s.me.pred p then s.me.reg a else s.me.reg b)

/-- R171, R174, R175: the words of the wide immediates, of predicate logic and of the select. -/
def Sys2Proof.Claims.FieldEncodings : Prop :=
  (∀ (d : SReg) (hw : BitVec 2) (imm : BitVec 16),
    encode (.liz d hw imm) = some (wideWord d hw 0 imm) ∧ encode (.lin d hw imm) = some (wideWord d hw 1 imm) ∧
    encode (.lik d hw imm) = some (wideWord d hw 2 imm)) ∧
  (∀ (p q r : PReg) (tt : BitVec 4), encode (.plog p q r tt) =
    some (BitVec.ofNat 32 (0x34000000 + p.toNat * 2 ^ 23 + q.toNat * 2 ^ 20 + r.toNat * 2 ^ 17 + tt.toNat * 2 ^ 13))) ∧
  ∀ (d a b : SReg) (p : PReg), encode (.sel d a b p) =
    some (BitVec.ofNat 32 (0x38000000 + d.toNat * 2 ^ 21 + a.toNat * 2 ^ 16 + b.toNat * 2 ^ 11 + p.toNat * 2 ^ 8))

/-- R171 to R175: wide immediates, bit fields, compares, predicate logic and selection, and the words of the wide immediates, of PLOG and of SEL. -/
def Obligations.FieldsAndPredicates : Prop :=
  Claims.WideAndFields ∧ Claims.ComparesAndPredicates ∧ Claims.FieldEncodings

/-- R176 to R178: where the PC goes, and the link; the offset of a branch or a jump counts words. A JALR whose target is a
multiple of 4 jumps. The word of a JAL. -/
def Obligations.BranchesAndJumps : Prop :=
  (∀ (s : State) (p : PReg) (off : BitVec 22),
    Goes (.brc p off) s (if s.me.pred p then s.me.pc + BitVec.ofInt 64 (4 * off.toInt) else s.me.pc + 4#64) ∧
    Goes (.brcNot p off) s (if s.me.pred p then s.me.pc + 4#64 else s.me.pc + BitVec.ofInt 64 (4 * off.toInt))) ∧
  (∀ (s : State) (d : SReg) (off : BitVec 21), Completes (.jal d off) s fun t =>
    OnlyCore s t ∧ Completed s.me t.me (s.me.pc + BitVec.ofInt 64 (4 * off.toInt)) ∧
    RegsAfter s.me t.me d (s.me.pc + 4#64) ∧ t.me.preds = s.me.preds) ∧
  (∀ (d : SReg) (off : BitVec 21),
    encode (.jal d off) = some (BitVec.ofNat 32 (0x44000000 + d.toNat * 2 ^ 21 + off.toNat))) ∧
  ∀ (s : State) (d a : SReg) (imm : BitVec 16),
    let target := s.me.reg a + BitVec.ofInt 64 imm.toInt
    target.toNat % 4 = 0 → Completes (.jalr d a imm) s fun t =>
      OnlyCore s t ∧ Completed s.me t.me target ∧ RegsAfter s.me t.me d (s.me.pc + 4#64) ∧ t.me.preds = s.me.preds

namespace Sys2Proof.Claims

/-! ## Memory as a core reaches it -/

/-- The place lies among the `n` bytes from `p` on. -/
def Within (p : Place) (n : Nat) (q : Place) : Bool :=
  (match p, q with
    | .hbm _, .hbm _ => true
    | .bank _ _, .bank _ _ => true
    | .tile _ _ _, .tile _ _ _ => true
    | .sram _, .sram _ => true
    | .host x _, .host y _ => x == y
    | _, _ => false) && decide (p.key ≤ q.key ∧ q.key < p.key + n)

/-- The place is no byte of the pacing descriptors, whose V bit has an effect of its own when it is stored (R401). -/
def NotPacing : Place → Prop
  | .sram a => a + 8 ≤ 0x1FF000 ∨ 0x1FF800 ≤ a
  | _ => True

/-- An access of the current core at `ea` passes every check of its translation or bounds, meets no uncorrectable error,
and reaches the place `p`, of single-assignment memory when `sa` (R149, R159, R179). -/
def Reaches (s : State) (ea : W64) (acc : Acc) (s1 : State) (p : Place) (sa : Bool) : Prop :=
  s.coreResolve ea acc = (s1, .ok p sa) ∧ s1.coreEcc p = false

/-- The core's instruction completes and the next one follows it: it writes sd with `v`; no byte of memory and no presence
state changes, no predicate, no other register and no control or trap register of the core. -/
def Loads (i : Instr) (s : State) (d : SReg) (v : W64) : Prop :=
  Completes i s fun t => t.mem = s.mem ∧ Completed s.me t.me (s.me.pc + 4#64) ∧ RegsAfter s.me t.me d v ∧
    t.me.preds = s.me.preds

/-- A load of `n` bytes whose value is `ext` of its bytes (R179, R180, R371): on ordinary memory, and on a FULL
granule, it loads the bytes that stand there; on a granule it has waited at, the bytes of the fill that served it; on an
EMPTY granule it waits: the core is as before, and its read stands at the granule. -/
def LoadsFrom (i : Instr) (s : State) (ea : W64) (n : Nat) (acc : Acc) (d : SReg) (ext : Nat → W64) : Prop :=
  ∀ s1 p sa, ea.toNat % n = 0 → Reaches s ea acc s1 p sa →
    (sa = false ∨ s1.answerAt (.core s.cur) p = none ∧ s1.mem.gst p = .full →
      Loads i s d (ext (leNat (s1.loadBytes (s.coreAsid s.cur) p n)))) ∧
    (∀ b m, sa = true → s1.answerAt (.core s.cur) p = some (.filled b m) →
      Loads i s d (ext (b.toNat / 2 ^ (8 * p.offset) % 2 ^ (8 * n)))) ∧
    (sa = true → s1.answerAt (.core s.cur) p = none → s1.mem.gst p = .empty →
      Completes i s fun t => t.mem = s.mem ∧ t.me = s.me ∧
        ∃ rd ∈ t.ports.reads, rd.reader = .core s.cur ∧ rd.place = p.granule)

/-- The low `w` bits of a number read as a two's-complement value. -/
def signedOf (w : Nat) (x : Nat) : Int := (BitVec.ofNat w x).toInt

/-- Memory after the bytes `bs` are stored at `p` by an address space (R3, R131). For one without a key, and outside HBM,
exactly those bytes change. For one with a key, the unit that holds them is written encrypted, with its key bit, and no
other byte changes. -/
def Stored (s t : State) (asid : Nat) (p : Place) (bs : List Byte) : Prop :=
  match p, s.isKeyed asid with
  | .hbm a, true =>
    (∀ q, t.mem.byte q = if Within p.granule 64 q then
      (aesXts (s.xtsKey asid) (s.gpaOf a / 64) true
        ((s.unit asid p).take p.offset ++ bs ++ (s.unit asid p).drop (p.offset + bs.length))).getD
          (q.key - p.granule.key) 0#8 else s.mem.byte q) ∧ a / 64 ∈ t.mem.keyBits
  | _, _ => ∀ q, t.mem.byte q = if Within p bs.length q then bs.getD (q.key - p.key) 0#8 else s.mem.byte q

/-- A place of the memories whose granules have a presence state: HBM and the island banks. -/
def HasPresence : Place → Prop
  | .hbm _ => True
  | .bank _ _ => True
  | _ => False

/-- The presence states after the granule of `p` alone has become `g`. -/
def GranuleBecomes (s t : State) (p : Place) (g : Gst) : Prop :=
  t.mem.gst p = g ∧ ∀ q, Within p.granule 64 q = false → t.mem.gst q = s.mem.gst q

/-- A store of the low `n` bytes of `v` (R179, R180, R386): on ordinary memory, and on an EMPTY granule, which it makes
FULL, exactly the bytes it stores change; no register and no predicate of the core does. -/
def StoresTo (i : Instr) (s : State) (ea : W64) (n : Nat) (v : W64) : Prop :=
  ∀ s1 p sa, ea.toNat % n = 0 → Reaches s ea .write s1 p sa → s.mem.wf = true → NotPacing p →
    (sa = true → s1.mem.gst p = .empty) →
    Completes i s fun t => Completed s.me t.me (s.me.pc + 4#64) ∧ t.me.regs = s.me.regs ∧ t.me.preds = s.me.preds ∧
      Stored s1 t (s.coreAsid s.cur) p ((List.range n).map (fun k => v.extractLsb' (8 * k) 8)) ∧
      (if sa then GranuleBecomes s t p .full else t.mem.gstHbm = s.mem.gstHbm ∧ t.mem.gstBank = s.mem.gstBank)

/-- An atomic of `w` bits (R387), on ordinary memory that is not host memory: sd takes the old value, and the bytes at the
place become `f` of the old value and the operand; none leaves them as they are. -/
def Atomic (i : Instr) (s : State) (d a b : SReg) (n : Nat) (f : Nat → Nat → Option Nat) : Prop :=
  ∀ s1 p, (s.me.reg a).toNat % n = 0 → Reaches s (s.me.reg a) .write s1 p false → p.isHost = false →
    s.mem.wf = true → NotPacing p →
    let old := leNat (s1.loadBytes (s.coreAsid s.cur) p n)
    Completes i s fun t => Completed s.me t.me (s.me.pc + 4#64) ∧ RegsAfter s.me t.me d (BitVec.ofNat 64 old) ∧
      t.me.preds = s.me.preds ∧
      match f old ((s.me.reg b).toNat % 2 ^ (8 * n)) with
      | none => t.mem = s.mem
      | some v => Stored s1 t (s.coreAsid s.cur) p ((List.range n).map (fun k => BitVec.ofNat 8 (v / 2 ^ (8 * k))))

/-- The bytes of an access by its W bit (R385). -/
def wBytes : Width → Nat
  | .w32 => 4
  | .w64 => 8

end Sys2Proof.Claims

/-- R159, R140, R158, R389: where an effective address goes. On a sequencer whose cluster has a partition of `P` banks, an
address with 0xFFFF in its top half names the partition byte of the interleave, or is out of bounds; on the management core it
names a byte of its SRAM, or is out of bounds; R389 gives PERMISSION to a presence operation on a partition without PSA and in
the SRAM. -/
def Obligations.AddressesDirected : Prop :=
  (∀ (s : State) (r k o : Nat) (c : Cluster) (acc : Acc), s.cur = .seq r → s.clusterOf r = some k →
    s.cluster? k = some c → o < 2 ^ 48 →
    s.coreResolve (BitVec.ofNat 64 (0xFFFF * 2 ^ 48 + o)) acc =
      (s, if c.banks.length * 262144 ≤ o then .trap 0x09
          else if acc = .presence ∧ c.recd.psa = false then .trap 0x07
          else .ok (.bank (c.banks.getD (o / 4096 % c.banks.length) 0) (o / 4096 / c.banks.length * 4096 + o % 4096))
            c.recd.psa)) ∧
  ∀ (s : State) (o : Nat) (acc : Acc), s.cur = .mc → o < 2 ^ 48 →
    s.coreResolve (BitVec.ofNat 64 (0xFFFF * 2 ^ 48 + o)) acc =
      (s, if 0x200000 ≤ o then .trap 0x09 else if acc = .presence then .trap 0x07 else .ok (.sram o) false)

/-- R148, R149: the walk of an address space's tables. `e` gives the entries the walk meets at the four levels; it ends at
the first that is no table. An invalid entry is a TRANSLATION fault; a leaf below level 0 whose reserved bits are zero
gives the page of its level, 64 KiB, 32 MiB or 16 GiB. Where no entry is cached (R152), an access is translated through what the
walk finds. -/
def Obligations.WalkFollowsTables : Prop :=
  ∀ (s : State) (asid va : Nat) (x : Aspace) (e : Nat → Nat) (lvl : Nat), asid ≠ 0 → s.aspace? asid = some x → va < 2 ^ 52 →
    lvl < 4 →
    (∀ l, l ≤ lvl → leNat (s.mem.bytes (.hbm ((if l = 0 then x.root % 2 ^ 47 else bits (e (l - 1)) 46 12 * 4096) +
      8 * bits va (51 - 9 * l) (43 - 9 * l))) 8) = e l) →
    (∀ l, l < lvl → bits (e l) 5 0 = 1 ∧ bits (e l) 63 57 = 0 ∧ bits (e l) 11 6 = 0 ∧ bits (e l) 56 47 = s.member) →
    (e lvl % 2 = 0 → s.walkOf asid va = .error 1) ∧
    (e lvl % 4 = 3 → 0 < lvl → bits (e lvl) 63 57 = 0 → bits (e lvl) 11 6 = 0 → bits (e lvl) 5 4 ≤ 1 →
      bits (e lvl) (42 - 9 * lvl) 12 = 0 → (bits (e lvl) 5 4 = 0 → bits (e lvl) 56 47 ≤ 575) →
      ∃ l, s.walkOf asid va = .ok l ∧ l.size = 2 ^ (43 - 9 * lvl) ∧ l.base = va - va % l.size ∧
        l.phys = bits (e lvl) 56 (43 - 9 * lvl) * l.size ∧ l.kind = bits (e lvl) 5 4 ∧
        l.sa = decide (bits (e lvl) 3 3 = 1) ∧ l.w = decide (bits (e lvl) 2 2 = 1)) ∧
    (s.ports.tlb = [] → (s.leafOf asid va).2 = s.walkOf asid va)

/-- R179, R180, R371, R386, R389: what LD, LDA and LDF load, and that a load of an EMPTY granule waits. -/
def Obligations.LoadsComplete : Prop :=
  (∀ (s : State) (d a : SReg) (off : BitVec 12),
    let ea := s.me.reg a + BitVec.ofInt 64 off.toInt
    LoadsFrom (.ldI8 d a off) s ea 1 .read d (fun x => BitVec.ofInt 64 (signedOf 8 x)) ∧
    LoadsFrom (.ldI16 d a off) s ea 2 .read d (fun x => BitVec.ofInt 64 (signedOf 16 x)) ∧
    LoadsFrom (.ldI32 d a off) s ea 4 .read d (fun x => BitVec.ofInt 64 (signedOf 32 x)) ∧
    LoadsFrom (.ld64 d a off) s ea 8 .read d (fun x => BitVec.ofNat 64 x) ∧
    LoadsFrom (.ldN8 d a off) s ea 1 .read d (fun x => BitVec.ofNat 64 x) ∧
    LoadsFrom (.ldN16 d a off) s ea 2 .read d (fun x => BitVec.ofNat 64 x) ∧
    LoadsFrom (.ldN32 d a off) s ea 4 .read d (fun x => BitVec.ofNat 64 x)) ∧
  ∀ (s : State) (d a : SReg) (scope : Scope) (w : Width),
    LoadsFrom (.lda d a scope w) s (s.me.reg a) (wBytes w) .read d (fun x => BitVec.ofNat 64 x) ∧
    LoadsFrom (.ldf d a scope w) s (s.me.reg a) (wBytes w) .presence d (fun x => BitVec.ofNat 64 x)

/-- R179, R180, R386: what ST and STL store, and that a store into an EMPTY granule makes it FULL. -/
def Obligations.StoresComplete : Prop :=
  (∀ (s : State) (d a : SReg) (off : BitVec 12),
    let ea := s.me.reg a + BitVec.ofInt 64 off.toInt
    StoresTo (.st8 d a off) s ea 1 (s.me.reg d) ∧ StoresTo (.st16 d a off) s ea 2 (s.me.reg d) ∧
    StoresTo (.st32 d a off) s ea 4 (s.me.reg d) ∧ StoresTo (.st64 d a off) s ea 8 (s.me.reg d)) ∧
  ∀ (s : State) (a b : SReg) (scope : Scope) (w : Width), StoresTo (.stl a b scope w) s (s.me.reg a) (wBytes w) (s.me.reg b)

/-- R387: the atomics: the old value they return, zero-extended, and the value they leave, each at the width W gives. -/
def Obligations.AtomicsComplete : Prop :=
  ∀ (s : State) (d a b : SReg) (scope : Scope) (w : Width),
    let n := wBytes w
    let sg := signedOf (8 * n)
    Atomic (.aadd d a b scope w) s d a b n (fun x y => some ((x + y) % 2 ^ (8 * n))) ∧
    Atomic (.aand d a b scope w) s d a b n (fun x y => some (x &&& y)) ∧
    Atomic (.aor d a b scope w) s d a b n (fun x y => some (x ||| y)) ∧
    Atomic (.axor d a b scope w) s d a b n (fun x y => some (x ^^^ y)) ∧
    Atomic (.amin d a b scope w) s d a b n (fun x y => some (if sg x ≤ sg y then x else y)) ∧
    Atomic (.amax d a b scope w) s d a b n (fun x y => some (if sg x ≤ sg y then y else x)) ∧
    Atomic (.aminn d a b scope w) s d a b n (fun x y => some (min x y)) ∧
    Atomic (.amaxn d a b scope w) s d a b n (fun x y => some (max x y)) ∧
    Atomic (.aswp d a b scope w) s d a b n (fun _ y => some y) ∧
    Atomic (.acas d a b scope w) s d a b n (fun x y => if x = (s.me.reg d).toNat % 2 ^ (8 * n) then some y else none)

/-- R389: PCLR makes the granule EMPTY and leaves its bytes; PROBE reads its state, 0 EMPTY, 1 FULL, 2 VOID, and never
waits. Granules that have a presence state stand in HBM and in the banks (R180). -/
def Obligations.PresenceInstructions : Prop :=
  ∀ (s s1 : State) (d a : SReg) (p : Place) (sa : Bool), (s.me.reg a).toNat % 64 = 0 →
    s.coreResolve (s.me.reg a) .presence = (s1, .ok p sa) →
    (HasPresence p → Completes (.pclr a) s fun t => Completed s.me t.me (s.me.pc + 4#64) ∧ t.me.regs = s.me.regs ∧
      t.me.preds = s.me.preds ∧ GranuleBecomes s t p .empty ∧ ∀ q, t.mem.byte q = s.mem.byte q) ∧
    Loads (.probe d a) s d (match s1.mem.gst p with
      | .empty => 0#64
      | .full => 1#64
      | .void => 2#64)

/-- R391, R374: an SC access is posted to the ring and its core waits; the ring performs the oldest one as one event, a load
or a store of the 4 or 8 bytes of its aligned place; after that the instruction completes, SCLD with the bytes it loaded. -/
def Obligations.ScAccesses : Prop :=
  (∀ (s s1 : State) (d a b : SReg) (w : Width) (p : Place), s.me.wait = .none → (s.me.reg a).toNat % wBytes w = 0 →
    p.isLocal = true →
    (s.coreResolve (s.me.reg a) .read = (s1, .ok p false) → Completes (.scld d a w) s fun t => t.mem = s.mem ∧
      t.me = { s.me with wait := .scPosted } ∧ ∃ x, t.ports.sc = s.ports.sc ++ [x] ∧ x.core = s.cur ∧ x.place = p ∧
        x.width = wBytes w ∧ x.store = none) ∧
    (s.coreResolve (s.me.reg a) .write = (s1, .ok p false) → Completes (.scst a b w) s fun t => t.mem = s.mem ∧
      t.me = { s.me with wait := .scPosted } ∧ ∃ x, t.ports.sc = s.ports.sc ++ [x] ∧ x.core = s.cur ∧ x.place = p ∧
        x.width = wBytes w ∧ x.store = some (s.me.reg b))) ∧
  (∀ (s : State) (x : ScAccess) (rest : List ScAccess), s.ports.sc = x :: rest → s.eccAt x.place = false →
    s.mem.wf = true → NotPacing x.place → (x.width = 4 ∨ x.width = 8) → x.place.key % x.width = 0 →
    Completes .scAccessPerform s fun t => t.ports.sc = rest ∧
      t.core x.core = { s.core x.core with
        wait := .scDone x.store.isSome (BitVec.ofNat 64 (leNat (s.loadBytes x.asid x.place x.width))) } ∧
      (∀ c, c ≠ x.core → t.core c = s.core c) ∧
      match x.store with
      | none => t.mem = s.mem
      | some v => Stored s t x.asid x.place ((List.range x.width).map (fun k => BitVec.ofNat 8 (v.toNat / 2 ^ (8 * k))))) ∧
  ∀ (s : State) (d a b : SReg) (w : Width) (st : Bool) (v : W64), s.me.wait = .scDone st v →
    Loads (.scld d a w) s d v ∧ Loads (.scst a b w) s 0#5 0#64

/-- R388, R189: a fence performs no access and completes; WFE completes when a selected event is pending or none is
selected, and otherwise waits, with nothing changed. -/
def Sys2Proof.Claims.FencesAndWaits : Prop :=
  ∀ (s : State) (scope : Scope),
    Goes (.fence scope) s (s.me.pc + 4#64) ∧ Goes (.fenceAcq scope) s (s.me.pc + 4#64) ∧
    Goes (.fenceRel scope) s (s.me.pc + 4#64) ∧
    (s.me.evtMask = 0#5 ∨ s.me.evtPend &&& s.me.evtMask ≠ 0#5 → Goes .wfe s (s.me.pc + 4#64)) ∧
    (s.me.evtMask ≠ 0#5 → s.me.evtPend &&& s.me.evtMask = 0#5 → exec .wfe s = .next s)

namespace Sys2Proof.Claims

/-! ## Traps, returns, stops and control registers -/

/-- The core after its instruction has completed, the next one to follow. -/
def retired (c : Core) : Core :=
  { c with pc := c.pc + 4#64, insnCount := c.insnCount + 1#64, wait := .none, fetched := none }

/-- Trap entry as R184 describes it: what the state is once the current core has raised a trap. A sequencer below
supervisor level, and a management core without INH, enter the handler; the saved registers hold the old level, the PC or for
TRAP the PC plus 4, the cause with the code, the address, the description and the word. A sequencer at supervisor level
is wedged (R185) and a management core under INH stops (R186); their trap registers stay as they are. No register, no
predicate and no byte of memory changes. -/
def Trapped (s t : State) (cause : Nat) (addr info : W64) (code : BitVec 12) (word : W32) : Prop :=
  t.mem = s.mem ∧ t.cur = s.cur ∧
  let saved (status : W64) : TrapRegs :=
    { status := status, pc := if cause = 0x0A then s.me.pc + 4#64 else s.me.pc,
      cause := BitVec.ofNat 64 (if cause = 0x0A then cause + 256 * code.toNat else cause), addr := addr, info := info,
      word := if cause = 0x04 then 0#64 else word.setWidth 64, scratch0 := s.me.trap.scratch0,
      scratch1 := s.me.trap.scratch1 }
  match s.cur with
  | .seq r =>
    if s.me.priv = .supervisor then
      t.me = { s.me with run := .wedged, wait := .none, fetched := none } ∧ .doubleFault r ∈ t.disp.notices ∧
        ∀ k, s.clusterOf r = some k → ∃ f ∈ t.disp.fatal, f.cluster = k ∧ f.cls = 0x12#8 ∧ f.region = r
    else t.me = { s.me with trap := saved (BitVec.ofNat 64 s.me.priv.code), priv := .supervisor, pc := 0#64,
                            wait := .none, fetched := none }
  | .mc =>
    if s.me.trap.status.getLsbD 2 then t.me = { s.me with run := .stopped } ∧ .mcStopped ∈ t.disp.notices
    else t.me = { s.me with trap := saved 6#64, pc := s.mcr.mtvec, wait := .none, fetched := none }

/-- The instruction raises a trap with its own word (R184). -/
def Raises (i : Instr) (s : State) (cause : Nat) (addr info : W64) : Prop :=
  ∃ w, encode i = some w ∧ Completes i s fun t => Trapped s t cause addr info 0#12 w

/-- TINFO of an access (R183): GSTATE, SPACE, PRES, WR and the logarithm of the width. -/
def infoOf (gstate space : Nat) (pres wr : Bool) (lgw : Nat) : W64 :=
  BitVec.ofNat 64 (256 * gstate + 64 * space + (if pres then 32 else 0) + (if wr then 16 else 0) + lgw)

/-- The code of the space an effective address names (R183): 0 translated, 1 island partition, 2 local SRAM. -/
def spaceCode (s : State) (ea : W64) : Nat :=
  if ea.extractLsb' 48 16 = 0xFFFF#16 then (if s.cur = .mc then 2 else 1) else 0

/-- TINFO of a FETCH trap whose fetch met a cause (R183): UCAUSE, the space and the width of a fetch. -/
def fetchInfo (ucause space : Nat) : W64 := BitVec.ofNat 64 (65536 * ucause + 64 * space + 2)

/-- A page of an ASID overlaps the range that MC_INVAL_BASE and a count name (R165), the ASID being set. -/
def Covers (s : State) (v : W64) (asid : Nat) (page : Nat × Nat) : Prop :=
  let b := s.mcr.invalBase
  let named := (b.extractLsb' 52 12).toNat
  let lo := if v = 0#64 then 0 else (b.extractLsb' 16 36).toNat * 65536
  let hi := if v = 0#64 then 2 ^ 52 else lo + v.toNat * 65536
  (named = 0 ∨ (s.aspace? named).isSome = true) ∧ asid = named ∧ page.1 < hi ∧ lo < page.1 + page.2

/-- Step 1 of R152 has been done for the range: the cached entries that overlap it are gone, and no other. -/
def Invalidated (s t : State) (v : W64) : Prop :=
  ∀ c, c ∈ t.ports.tlb ↔ c ∈ s.ports.tlb ∧ ¬Covers s v c.asid (c.base, c.size)

/-- Step 2 of R152 waits: an access translated through a page that overlaps the range has not been performed; a read that stands
deferred counts as performed. -/
def InvalWaits (s : State) (v : W64) : Prop :=
  (∃ a ∈ s.ports.pend, ∃ q, a.page = some q ∧ Covers s v a.asid q ∧ ∀ r ∈ s.ports.reads, r.reader ≠ a.reader) ∨
  ∃ a ∈ s.ports.sc, ∃ q, a.page = some q ∧ Covers s v a.asid q

/-- log2 of the bytes of an access by its W bit. -/
def wLog : Width → Nat
  | .w32 => 2
  | .w64 => 3

/-- The shapes of the scalar accesses of a core: loads, stores, atomics, presence instructions on a granule, SC accesses. -/
inductive AccessShape where
  | load | store | atomic | granule | sc

/-- What an instruction that accesses memory says of its access (R159, R179, R183, R385): its shape, the effective address,
log2 of its bytes, what translation it asks for, and the bits PRES and WR of TINFO. -/
structure ScalarAccess where
  shape : AccessShape
  ea : W64
  lg : Nat
  acc : Acc
  pres : Bool
  wr : Bool

/-- The access of each instruction that makes one. -/
def scalarAccess (s : State) : Instr → Option ScalarAccess
  | .ldI8 _ a off => some ⟨.load, s.me.reg a + BitVec.ofInt 64 off.toInt, 0, .read, false, false⟩
  | .ldI16 _ a off => some ⟨.load, s.me.reg a + BitVec.ofInt 64 off.toInt, 1, .read, false, false⟩
  | .ldI32 _ a off => some ⟨.load, s.me.reg a + BitVec.ofInt 64 off.toInt, 2, .read, false, false⟩
  | .ld64 _ a off => some ⟨.load, s.me.reg a + BitVec.ofInt 64 off.toInt, 3, .read, false, false⟩
  | .ldN8 _ a off => some ⟨.load, s.me.reg a + BitVec.ofInt 64 off.toInt, 0, .read, false, false⟩
  | .ldN16 _ a off => some ⟨.load, s.me.reg a + BitVec.ofInt 64 off.toInt, 1, .read, false, false⟩
  | .ldN32 _ a off => some ⟨.load, s.me.reg a + BitVec.ofInt 64 off.toInt, 2, .read, false, false⟩
  | .st8 _ a off => some ⟨.store, s.me.reg a + BitVec.ofInt 64 off.toInt, 0, .write, false, true⟩
  | .st16 _ a off => some ⟨.store, s.me.reg a + BitVec.ofInt 64 off.toInt, 1, .write, false, true⟩
  | .st32 _ a off => some ⟨.store, s.me.reg a + BitVec.ofInt 64 off.toInt, 2, .write, false, true⟩
  | .st64 _ a off => some ⟨.store, s.me.reg a + BitVec.ofInt 64 off.toInt, 3, .write, false, true⟩
  | .lda _ a _ w => some ⟨.load, s.me.reg a, wLog w, .read, false, false⟩
  | .ldf _ a _ w => some ⟨.load, s.me.reg a, wLog w, .presence, true, false⟩
  | .stl a _ _ w => some ⟨.store, s.me.reg a, wLog w, .write, false, true⟩
  | .aadd _ a _ _ w => some ⟨.atomic, s.me.reg a, wLog w, .write, false, true⟩
  | .aand _ a _ _ w => some ⟨.atomic, s.me.reg a, wLog w, .write, false, true⟩
  | .aor _ a _ _ w => some ⟨.atomic, s.me.reg a, wLog w, .write, false, true⟩
  | .axor _ a _ _ w => some ⟨.atomic, s.me.reg a, wLog w, .write, false, true⟩
  | .amin _ a _ _ w => some ⟨.atomic, s.me.reg a, wLog w, .write, false, true⟩
  | .amax _ a _ _ w => some ⟨.atomic, s.me.reg a, wLog w, .write, false, true⟩
  | .aminn _ a _ _ w => some ⟨.atomic, s.me.reg a, wLog w, .write, false, true⟩
  | .amaxn _ a _ _ w => some ⟨.atomic, s.me.reg a, wLog w, .write, false, true⟩
  | .aswp _ a _ _ w => some ⟨.atomic, s.me.reg a, wLog w, .write, false, true⟩
  | .acas _ a _ _ w => some ⟨.atomic, s.me.reg a, wLog w, .write, false, true⟩
  | .pclr a => some ⟨.granule, s.me.reg a, 6, .presence, true, true⟩
  | .probe _ a => some ⟨.granule, s.me.reg a, 6, .presence, true, false⟩
  | .scld _ a w => some ⟨.sc, s.me.reg a, wLog w, .read, false, false⟩
  | .scst a _ w => some ⟨.sc, s.me.reg a, wLog w, .write, false, true⟩
  | _ => none

/-- The access is one of a scalar instruction that begins: an SC access that has been posted is past its checks (R391). -/
def Begins (s : State) (i : Instr) (x : ScalarAccess) : Prop := scalarAccess s i = some x ∧ (x.shape = .sc → s.me.wait = .none)

/-- The address is a multiple of the width. -/
def ScalarAccess.isAligned (x : ScalarAccess) : Prop := x.ea.toNat % 2 ^ x.lg = 0

/-- The instruction raises a trap of its access, with the address and what TINFO says of it (R183). -/
def AccessRaises (i : Instr) (s : State) (x : ScalarAccess) (cause gstate : Nat) : Prop :=
  Raises i s cause x.ea (infoOf gstate (spaceCode s x.ea) x.pres x.wr x.lg)

/-- The state of a granule as GSTATE gives it (R183). -/
def gstCode : Gst → Nat
  | .empty => 0
  | .full => 1
  | .void => 2

/-- The instruction completes and nothing but the named core registers and CSRs differs. -/
def CoreBecomes (i : Instr) (s : State) (c : Core) : Prop := exec i s = .next (s.setMe (retired c))

end Sys2Proof.Claims

/-- R184 to R186, R188: TRAP with a code, a word that is no instruction, and a fetch that fails each take the trap entry that
R184 describes, at every level of both kinds of core. TRAP 0xFFF is such a trap on the management core alone. A fetch fails at a
PC beyond its space, and at graph level where its translation faults or its granule is VOID (R156 to R158), with the cause in
UCAUSE (R183); that TINFO is zero for a PC beyond the space, and GSTATE zero for a VOID granule, is the model's reading (log
entry 17). -/
def Obligations.TrapEntry : Prop :=
  (∀ (s : State) (code : BitVec 12), s.cur = .mc ∨ code ≠ 0xFFF#12 →
    Completes (.trap code) s fun t => Trapped s t 0x0A 0#64 0#64 code (BitVec.ofNat 32 (0xC4000000 + code.toNat))) ∧
  (∀ (s : State) (w : W32) (e : DecodeError), decode w = .error e →
    Completes (.illegalInstruction w) s fun t => Trapped s t 0x01 0#64 0#64 0#12 w) ∧
  (∀ (s : State), (s.cur = .mc → 0x200000 ≤ s.me.pc.toNat) →
    (∀ r, s.cur = .seq r → if s.me.priv = .graph then (s.program s.cur).2.toNat ≤ s.me.pc.toNat else 0x10000 ≤ s.me.pc.toNat) →
    Completes .fetch s fun t => Trapped s t 0x04 s.me.pc 0#64 0#12 0#32) ∧
  (∀ (s s1 : State) (r : Nat), s.cur = .seq r → s.me.priv = .graph → s.me.pc.toNat < (s.program s.cur).2.toNat →
    let va := ((s.program s.cur).1 + s.me.pc).toNat
    (∀ cls, s.translateRead (.fetch s.cur) (s.coreAsid s.cur) va .read = (s1, .fault cls) →
      Completes .fetch s fun t => Trapped s t 0x04 s.me.pc (fetchInfo (cls + 4) 0) 0#12 0#32) ∧
    ∀ p, s.translateRead (.fetch s.cur) (s.coreAsid s.cur) va .read = (s1, .ok p true) → s1.eccAt p = false →
      s1.answerAt (.fetch s.cur) p = none → s1.mem.gst p = .void →
      Completes .fetch s fun t => Trapped s t 0x04 s.me.pc (fetchInfo 8 0) 0#12 0#32) ∧
  ∀ (s : State) (r k : Nat) (c : Cluster), s.cur = .seq r → s.me.priv = .supervisor → s.clusterOf r = some k →
    s.cluster? k = some c → s.me.pc.toNat < 0x10000 → c.banks.length * 262144 ≤ s.me.pc.toNat →
    Completes .fetch s fun t => Trapped s t 0x04 s.me.pc (fetchInfo 9 1) 0#12 0#32

/-- R187, R188, R190: RTT goes back to TPC, a sequencer at graph level; HALT, and TRAP 0xFFF on a sequencer, complete and
halt a sequencer whose cluster has no BAR waiting; on the management core HALT stops it. RTT at graph level raises PRIVILEGE,
and outside a handler of the management core ILLEGAL. -/
def Sys2Proof.Claims.ReturnsAndStops : Prop :=
  (∀ (s : State) (r : Nat), s.cur = .seq r →
    (s.me.priv ≠ .graph → exec .rtt s = .next (s.setMe { retired s.me with pc := s.me.trap.pc, priv := .graph })) ∧
    (s.me.priv = .graph → Raises .rtt s 0x02 0#64 0#64) ∧
    ((∀ k c, s.clusterOf r = some k → s.cluster? k = some c → ∀ q ∈ c.regions, ∀ w, (s.core (.seq q)).wait ≠ .bar w) →
      s.me.atBarrier = false →
      exec .halt s = .next (s.setMe { retired s.me with run := .halted }) ∧
      exec (.trap 0xFFF#12) s = .next (s.setMe { retired s.me with run := .halted }))) ∧
  ∀ (s : State), s.cur = .mc →
    (s.me.trap.status.getLsbD 2 = true → exec .rtt s = .next (s.setMe { retired s.me with
      pc := s.me.trap.pc, trap := { s.me.trap with status := 0#64 } })) ∧
    (s.me.trap.status.getLsbD 2 = false → Raises .rtt s 0x01 0#64 0#64) ∧
    Completes .halt s fun t => t.mem = s.mem ∧ t.me = { retired s.me with run := .stopped } ∧ .mcStopped ∈ t.disp.notices

/-- Fences, waits, the return from a trap and the stop. -/
def Obligations.WaitingAndReturning : Prop :=
  Claims.FencesAndWaits ∧ Claims.ReturnsAndStops

/-- R178, R179, R385: a jump target that is no multiple of 4 and the address of any load, store, atomic, presence instruction or
SC access that is no multiple of its width raise MISALIGNED before any translation, with the address in TADDR; nothing is loaded
or stored. What TINFO describes of an access is log entry 17. -/
def Sys2Proof.Claims.MisalignedRaises : Prop :=
  (∀ (s : State) (d a : SReg) (imm : BitVec 16), (s.me.reg a + BitVec.ofInt 64 imm.toInt).toNat % 4 ≠ 0 →
    Raises (.jalr d a imm) s 0x03 (s.me.reg a + BitVec.ofInt 64 imm.toInt) 0#64) ∧
  ∀ (s : State) (i : Instr) (x : ScalarAccess), Begins s i x → ¬x.isAligned → AccessRaises i s x 0x03 0

/-- R149, R159, R140, R387, R389, R391: the traps of every load, store, atomic, presence instruction and SC access with an
aligned address. Through an address space with no cached entry: TRANSLATION or MALFORMED as the walk ends, PERMISSION for a
write through a leaf without W and a presence operation through one without SA. Untranslated: BOUNDS beyond the partition and
the local SRAM, PERMISSION for a presence operation on a partition without PSA and on the SRAM. PERMISSION for an atomic on
host memory, and for an SC access to anything but the package's banks and its own HBM. -/
def Sys2Proof.Claims.TranslationRaises : Prop :=
  ∀ (s : State) (i : Instr) (x : ScalarAccess), Begins s i x → x.isAligned →
    (x.ea.extractLsb' 48 16 ≠ 0xFFFF#16 → s.ports.tlb = [] → (∀ r ∈ s.ports.reads, r.reader ≠ .core s.cur) →
      (∀ c, s.walkOf (s.coreAsid s.cur) x.ea.toNat = .error c → AccessRaises i s x (c + 4) 0) ∧
      ∀ l, s.walkOf (s.coreAsid s.cur) x.ea.toNat = .ok l →
        (x.acc = .write → l.w = false → AccessRaises i s x 0x07 0) ∧
        (x.acc = .presence → l.sa = false → AccessRaises i s x 0x07 0)) ∧
    (∀ r k c, s.cur = .seq r → s.clusterOf r = some k → s.cluster? k = some c → x.ea.extractLsb' 48 16 = 0xFFFF#16 →
      let o := x.ea.toNat % 2 ^ 48
      (c.banks.length * 262144 ≤ o → AccessRaises i s x 0x09 0) ∧
      (o < c.banks.length * 262144 → x.acc = .presence → c.recd.psa = false → AccessRaises i s x 0x07 0)) ∧
    (s.cur = .mc → x.ea.extractLsb' 48 16 = 0xFFFF#16 →
      (0x200000 ≤ x.ea.toNat % 2 ^ 48 → AccessRaises i s x 0x09 0) ∧
      (x.ea.toNat % 2 ^ 48 < 0x200000 → x.acc = .presence ∨ x.shape = .sc → AccessRaises i s x 0x07 0)) ∧
    ∀ s1 p sa, s.coreResolve x.ea x.acc = (s1, .ok p sa) →
      (x.shape = .atomic → p.isHost = true → AccessRaises i s x 0x07 0) ∧
      (x.shape = .sc → p.isLocal = false → AccessRaises i s x 0x07 0)

/-- R180, R387, R389, R391: a load of a VOID granule, or of one that became VOID while it waited, a store into one that is not
EMPTY, and an atomic or an SC access on any single-assignment granule raise PRESENCE with the granule's state in TINFO;
nothing is stored. -/
def Sys2Proof.Claims.PresenceRaises : Prop :=
  ∀ (s s1 : State) (i : Instr) (x : ScalarAccess) (p : Place), Begins s i x → x.isAligned →
    (Reaches s x.ea x.acc s1 p true → x.shape = .load →
      (s1.answerAt (.core s.cur) p = none → s1.mem.gst p = .void → AccessRaises i s x 0x08 2) ∧
      (s1.answerAt (.core s.cur) p = some .voided → AccessRaises i s x 0x08 2)) ∧
    (Reaches s x.ea x.acc s1 p true → x.shape = .store → s1.mem.gst p ≠ .empty →
      AccessRaises i s x 0x08 (gstCode (s1.mem.gst p))) ∧
    (Reaches s x.ea x.acc s1 p true → x.shape = .atomic → p.isHost = false →
      AccessRaises i s x 0x08 (gstCode (s1.mem.gst p))) ∧
    (s.coreResolve x.ea x.acc = (s1, .ok p true) → x.shape = .sc → p.isLocal = true →
      AccessRaises i s x 0x08 (gstCode (s1.mem.gst p)))

/-- R149, R159, R178 to R180, R385, R387, R389, R391: where a core's accesses and jumps trap before they do anything. What TINFO describes of a misaligned access is log entry 17. -/
def Obligations.AccessTraps : Prop :=
  Claims.MisalignedRaises ∧ Claims.TranslationRaises ∧ Claims.PresenceRaises

/-- R164, R193: what CSRR reads, register by register, EVT_PEND, EVT_MASK, PREDS and INSN_COUNT on both kinds of core;
CFG_STATUS counts the committed and the LIVE instances and names the oldest and the youngest, and SENS_VAL the selected
sensor's reading and SUSPECT; the registers of level 1 need a supervisor, those of level 2 the management core; a core without
the register raises ILLEGAL. -/
def Sys2Proof.Claims.CsrReads : Prop :=
  (∀ (s : State) (d : SReg),
    WritesReg (.csrr d 0x008) s d (s.me.evtPend.setWidth 64) ∧ WritesReg (.csrr d 0x009) s d (s.me.evtMask.setWidth 64) ∧
    WritesReg (.csrr d 0x00A) s d ((s.me.preds ||| 1#8).setWidth 64) ∧ WritesReg (.csrr d 0x00C) s d s.me.insnCount) ∧
  (∀ (s : State) (d : SReg) (r : Nat), s.cur = .seq r →
    let x := s.region r
    let com := x.cache.filter (fun e => e.state == .staged || e.state == .live)
    let word (head tail : Nat) : W64 := BitVec.ofNat 64 (com.length + 16 * (com.filter (fun e => e.state == .live)).length +
      2 ^ 8 * x.core.cfgErr.toNat + 2 ^ 11 * x.core.ucause.toNat + 2 ^ 16 * (if x.core.disc then 1 else 0) +
      2 ^ 17 * x.core.ltag.toNat + 2 ^ 32 * tail + 2 ^ 48 * head)
    (com = [] → WritesReg (.csrr d 0x011) s d (word 0 0)) ∧
    ∀ h u, h ∈ com → u ∈ com → (∀ e ∈ com, e ≠ h → h.cseq < e.cseq) → (∀ e ∈ com, e ≠ u → e.cseq < u.cseq) →
      WritesReg (.csrr d 0x011) s d (word h.cfgid u.cfgid)) ∧
  (∀ (s : State) (d : SReg) (r : Nat), s.cur = .seq r →
    WritesReg (.csrr d 0x00B) s d s.me.iter ∧ WritesReg (.csrr d 0x010) s d s.me.cfgReject ∧
    WritesReg (.csrr d 0x012) s d s.me.exitLast ∧
    (∀ k c, s.clusterOf r = some k → s.cluster? k = some c →
      (∀ n, indexOf? c.regions r = some n → WritesReg (.csrr d 0x000) s d (BitVec.ofNat 64 n)) ∧
      WritesReg (.csrr d 0x001) s d (BitVec.ofNat 64 c.regions.length) ∧
      WritesReg (.csrr d 0x002) s d (BitVec.ofNat 64 c.asid) ∧
      WritesReg (.csrr d 0x003) s d ((c.recd.part.extractLsb' 0 11).setWidth 64) ∧
      WritesReg (.csrr d 0x004) s d (c.recd.args.getD 0 0#64) ∧ WritesReg (.csrr d 0x005) s d (c.recd.args.getD 1 0#64) ∧
      WritesReg (.csrr d 0x006) s d (c.recd.args.getD 2 0#64) ∧ WritesReg (.csrr d 0x007) s d (c.recd.args.getD 3 0#64) ∧
      WritesReg (.csrr d 0x018) s d (BitVec.ofNat 64 (c.energy.toNat / 1000)) ∧
      WritesReg (.csrr d 0x019) s d (c.snapCount.setWidth 64)) ∧
    (s.me.priv = .graph → Raises (.csrr d 0x400) s 0x02 0#64 0#64) ∧
    Raises (.csrr d 0x800) s 0x01 0#64 0#64) ∧
  (∀ (s : State) (d : SReg), s.me.priv ≠ .graph →
    WritesReg (.csrr d 0x400) s d s.me.trap.status ∧ WritesReg (.csrr d 0x401) s d s.me.trap.pc ∧
    WritesReg (.csrr d 0x402) s d s.me.trap.cause ∧ WritesReg (.csrr d 0x403) s d s.me.trap.addr ∧
    WritesReg (.csrr d 0x404) s d s.me.trap.word ∧ WritesReg (.csrr d 0x405) s d s.me.trap.info ∧
    WritesReg (.csrr d 0x406) s d s.me.trap.scratch0 ∧ WritesReg (.csrr d 0x407) s d s.me.trap.scratch1) ∧
  ∀ (s : State) (d : SReg), s.cur = .mc → s.me.priv = .management →
    WritesReg (.csrr d 0x800) s d s.mcr.mtvec ∧ WritesReg (.csrr d 0x801) s d (s.mcr.member.setWidth 64) ∧
    WritesReg (.csrr d 0x802) s d s.mcr.invalBase ∧ WritesReg (.csrr d 0x803) s d 0#64 ∧
    WritesReg (.csrr d 0x804) s d (s.mcr.sensSel.setWidth 64) ∧ WritesReg (.csrr d 0x806) s d (s.mcr.meterSel.setWidth 64) ∧
    (let x := s.sensor s.mcr.sensSel.toNat
     WritesReg (.csrr d 0x805) s d ((BitVec.ofInt 16 x.pub).setWidth 64 + (if x.suspect then 65536#64 else 0#64))) ∧
    WritesReg (.csrr d 0x807) s d ((s.meter s.mcr.meterSel.toNat).mc.setWidth 64) ∧
    WritesReg (.csrr d 0x808) s d (BitVec.ofNat 64 s.mcr.budget) ∧
    WritesReg (.csrr d 0x809) s d (s.mcr.alertPend.setWidth 64) ∧ Raises (.csrr d 0x000) s 0x01 0#64 0#64

/-- R166, R191: what CSRW and CSRX write: a value in range replaces the register, a bit written to EVT_PEND or ALERT_PEND
clears it; one out of range, or one to a register that is read only, raises ILLEGAL and changes nothing. CSRX returns the old
value. A write of MC_ASINVAL discards the cached entries of its range and completes once the accesses translated there have
been performed (R152, R165). -/
def Sys2Proof.Claims.CsrWrites : Prop :=
  (∀ (s : State) (a : SReg),
    let v := s.me.reg a
    (v.toNat < 32 → CoreBecomes (.csrw a 0x008) s { s.me with evtPend := s.me.evtPend &&& ~~~(v.setWidth 5) } ∧
      CoreBecomes (.csrw a 0x009) s { s.me with evtMask := v.setWidth 5 }) ∧
    (32 ≤ v.toNat → Raises (.csrw a 0x008) s 0x01 0#64 0#64 ∧ Raises (.csrw a 0x009) s 0x01 0#64 0#64) ∧
    (v.toNat < 256 → Completes (.csrw a 0x00A) s fun t => OnlyCore s t ∧ Completed s.me t.me (s.me.pc + 4#64) ∧
      t.me.regs = s.me.regs ∧ ∀ p : PReg, p ≠ 0#3 → t.me.pred p = v.getLsbD p.toNat) ∧
    (256 ≤ v.toNat → Raises (.csrw a 0x00A) s 0x01 0#64 0#64) ∧ Raises (.csrw a 0x00C) s 0x01 0#64 0#64) ∧
  (∀ (s : State) (d a : SReg) (r : Nat), s.cur = .seq r →
    let v := s.me.reg a
    CoreBecomes (.csrw a 0x00B) s { s.me with iter := v } ∧
    CoreBecomes (.csrx d a 0x00B) s ({ s.me with iter := v }.setReg d s.me.iter) ∧
    Raises (.csrw a 0x000) s 0x01 0#64 0#64 ∧ Raises (.csrw a 0x011) s 0x01 0#64 0#64 ∧
    (s.me.priv = .graph → Raises (.csrw a 0x401) s 0x02 0#64 0#64 ∧ Raises (.csrx d a 0x406) s 0x02 0#64 0#64)) ∧
  (∀ (s : State) (d a : SReg), s.me.priv ≠ .graph →
    let v := s.me.reg a
    (v.toNat % 4 = 0 → CoreBecomes (.csrw a 0x401) s { s.me with trap := { s.me.trap with pc := v } }) ∧
    (v.toNat % 4 ≠ 0 → Raises (.csrw a 0x401) s 0x01 0#64 0#64) ∧
    CoreBecomes (.csrx d a 0x406) s ({ s.me with trap := { s.me.trap with scratch0 := v } }.setReg d s.me.trap.scratch0) ∧
    CoreBecomes (.csrw a 0x407) s { s.me with trap := { s.me.trap with scratch1 := v } }) ∧
  ∀ (s : State) (a : SReg), s.cur = .mc → s.me.priv = .management →
    let v := s.me.reg a
    let s' := s.setMe (retired s.me)
    (v.toNat % 4 = 0 → v.toNat < 0x200000 →
      exec (.csrw a 0x800) s = .next { s' with mcr := { s'.mcr with mtvec := v } }) ∧
    (v.toNat < 576 → exec (.csrw a 0x801) s = .next
      { s' with mcr := { s'.mcr with member := v.setWidth 10 }, ports := { s'.ports with tlb := [] } }) ∧
    (576 ≤ v.toNat → Raises (.csrw a 0x801) s 0x01 0#64 0#64) ∧
    (664 ≤ v.toNat → Raises (.csrw a 0x804) s 0x01 0#64 0#64) ∧ Raises (.csrw a 0x805) s 0x01 0#64 0#64 ∧
    (16 ≤ v.toNat → Raises (.csrw a 0x807) s 0x01 0#64 0#64 ∧ Raises (.csrw a 0x809) s 0x01 0#64 0#64) ∧
    (v.toNat < 664 → exec (.csrw a 0x804) s = .next { s' with mcr := { s'.mcr with sensSel := v.setWidth 10 } }) ∧
    (v.toNat < 16 → exec (.csrw a 0x809) s = .next
      { s' with mcr := { s'.mcr with alertPend := s'.mcr.alertPend &&& ~~~(v.setWidth 4) } }) ∧
    (v.toNat % 65536 = 0 → exec (.csrw a 0x802) s = .next { s' with mcr := { s'.mcr with invalBase := v } }) ∧
    (v.toNat % 65536 ≠ 0 → Raises (.csrw a 0x802) s 0x01 0#64 0#64) ∧
    (v.toNat < 512 → exec (.csrw a 0x806) s = .next { s' with mcr := { s'.mcr with meterSel := v.setWidth 9 } }) ∧
    (512 ≤ v.toNat → Raises (.csrw a 0x806) s 0x01 0#64 0#64) ∧
    (v.toNat < 16 → Completes (.csrw a 0x807) s fun t => t.me = retired s.me ∧ t.mem = s.mem ∧
      t.meter s.mcr.meterSel.toNat = { s.meter s.mcr.meterSel.toNat with mc := v.setWidth 4 }) ∧
    (¬InvalWaits s v → Completes (.csrw a 0x803) s fun t =>
      t = { s' with ports := { s'.ports with tlb := t.ports.tlb } } ∧ Invalidated s t v) ∧
    (InvalWaits s v → Completes (.csrw a 0x803) s fun t =>
      t = { s with ports := { s.ports with tlb := t.ports.tlb } } ∧ Invalidated s t v)

/-- R165, R166, R440, R447: the writes of CSRs as events of the device: pending events and alerts written as 1 are cleared,
MC_ASINVAL discards the cached translations that overlap its range and no other, and stands on the agenda again while an
access translated there waits, METER_STEP sets the request of the selected quadrant alone, MEMBER discards every cached
translation. A value out of the register's range changes nothing. A core that does not run makes no such write, and a
management core that mc_stop has halted does none of it (R185, R186). That the event stands on the agenda again is the model's
way to wait (log entry 7). -/
def Sys2Proof.Claims.CsrEvents : Prop :=
  (∀ (s : State) (v : W64),
    (s.me.run = .running → v.toNat < 32 →
      exec (.evtPend v) s = .next (s.setMe { s.me with evtPend := s.me.evtPend &&& ~~~(v.setWidth 5) })) ∧
    (s.me.run ≠ .running ∨ 32 ≤ v.toNat → exec (.evtPend v) s = .next s)) ∧
  (∀ (s : State) (v : W64), s.mc.run ≠ .stopped →
    (v.toNat < 16 → exec (.alertPend v) s =
      .next { s with mcr := { s.mcr with alertPend := s.mcr.alertPend &&& ~~~(v.setWidth 4) } }) ∧
    (16 ≤ v.toNat → exec (.alertPend v) s = .next s ∧ exec (.meterStep v) s = .next s) ∧
    (576 ≤ v.toNat → exec (.member v) s = .next s)) ∧
  (∀ (s : State) (v : W64), s.mc.run ≠ .stopped →
    (¬InvalWaits s v → Completes (.mcAsinval v) s fun t =>
      t = { s with ports := { s.ports with tlb := t.ports.tlb } } ∧ Invalidated s t v) ∧
    (InvalWaits s v → Completes (.mcAsinval v) s fun t =>
      t = { s with agenda := s.agenda ++ [.event (.mcAsinval v)], ports := { s.ports with tlb := t.ports.tlb } } ∧
      Invalidated s t v)) ∧
  (∀ (s : State) (v : W64), s.mc.run = .stopped → exec (.alertPend v) s = .next s ∧ exec (.mcAsinval v) s = .next s ∧
    exec (.meterStep v) s = .next s ∧ exec (.member v) s = .next s) ∧
  (∀ (s : State) (v : W64) (q : Nat), s.mc.run ≠ .stopped → v.toNat < 16 → s.mcr.meterSel.toNat = q →
    Completes (.meterStep v) s fun t =>
    t.meter q = { s.meter q with mc := v.setWidth 4 } ∧ (∀ j, j ≠ q → t.meter j = s.meter j) ∧
      t = { s with regions := t.regions } ∧ ∀ r, (t.region r).core = (s.region r).core ∧ (t.region r).sites = (s.region r).sites) ∧
  (∀ (s : State) (v : W64), s.mc.run ≠ .stopped → v.toNat < 576 → exec (.member v) s =
    .next { s with mcr := { s.mcr with member := BitVec.ofNat 10 v.toNat }, ports := { s.ports with tlb := [] } }) ∧
  (∀ (s : State) (v : W64) (n : BitVec 12), s.me.run ≠ .running → exec (.csrWrite n v) s = .next s) ∧
  ∀ (s : State) (v : W64) (r : Nat), s.cur = .seq r → s.me.run = .running →
    exec (.csrWrite 0x00B v) s = .next (s.setMe { s.me with iter := v }) ∧
    (v.toNat < 32 → exec (.csrWrite 0x009 v) s = .next (s.setMe { s.me with evtMask := v.setWidth 5 })) ∧
    (s.me.priv ≠ .graph → exec (.csrWrite 0x407 v) s =
      .next (s.setMe { s.me with trap := { s.me.trap with scratch1 := v } }))

/-- R67, R164 to R167, R191: the CSRs, read, written and changed by events. -/
def Obligations.ControlRegisters : Prop :=
  Claims.CsrReads ∧ Claims.CsrWrites ∧ Claims.CsrEvents

namespace Sys2Proof.Claims

/-! ## Synchronisation, engines and the sequencer's hand on the fabric -/

/-- The current core after a completed instruction, its registers apart, `regs` of which are given by a write of sd; and
memory as it was. -/
def Retires (s t : State) (d : SReg) (v : W64) : Prop :=
  t.mem = s.mem ∧ t.cur = s.cur ∧ t.me = retired (s.me.setReg d v)

/-- The current core waits: it is as before but for what it has already done, and so is memory. -/
def WaitsWith (s t : State) (w : CoreWait) : Prop := t.mem = s.mem ∧ t.me = { s.me with wait := w }

/-- The instruction raises CONFIG, with the reason in CFG_STATUS.ERR (R193). -/
def ConfigTrap (i : Instr) (s : State) (err : Nat) : Prop :=
  ∃ w, encode i = some w ∧ Completes i s fun t =>
    Trapped (s.setMe { s.me with cfgErr := BitVec.ofNat 3 err }) t 0x10 0#64 0#64 0#12 w

/-- The committed instances of a region, whatever their order (R192). -/
def committedOf (x : Region) : List Entry := x.cache.filter (fun e => e.state == .staged || e.state == .live)

/-- An entry counts as FETCHED: its instance is not committed (R192). -/
def Uncommitted (e : Entry) : Prop := e.state = .fetched ∨ e.state = .rejected

end Sys2Proof.Claims

/-- R107, R108, R381: SEMA takes a free semaphore, and waits for one another core holds; SEMR frees a semaphore that nobody
waits for, and otherwise grants it; a SEMA of a semaphore the core holds, and a SEMR of one it does not, raise SYNC. A semaphore
that a saved cluster holds (R382) is held by no core. -/
def Sys2Proof.Claims.Semaphores : Prop :=
  ∀ (s : State) (n : BitVec 6),
    let own := coreHolder s.cur
    let x := s.sem n.toNat
    s.me.wait = .none →
    (x.holder = 0x1FF → x.kept = none → own ≠ 0x1FF → Completes (.sema n) s fun t => Retires s t 0#5 0#64 ∧
      (t.sem n.toNat).holder = own ∧ ∀ m, m ≠ n.toNat → t.sem m = s.sem m) ∧
    (x.holder ≠ 0x1FF → x.heldBy own = false → Completes (.sema n) s fun t => WaitsWith s t (.sema n.toNat) ∧
      (t.sem n.toNat).holder = x.holder ∧ (t.sem n.toNat).waiters = x.waiters ++ [own]) ∧
    (x.holder ≠ 0x1FF → x.heldBy own = true → Raises (.sema n) s 0x14 0#64 0#64) ∧
    (x.heldBy own = true → x.waiters = [] → Completes (.semr n) s fun t => Retires s t 0#5 0#64 ∧
      (t.sem n.toNat).holder = 0x1FF ∧ ∀ m, m ≠ n.toNat → t.sem m = s.sem m) ∧
    (∀ w, x.heldBy own = true → x.waiters = [w] → w < 0x100 → (.seq w) ≠ s.cur → Completes (.semr n) s fun t =>
      Retires s t 0#5 0#64 ∧ (t.sem n.toNat).holder = w ∧ (t.sem n.toNat).waiters = [] ∧
        t.core (.seq w) = retired (s.core (.seq w))) ∧
    (x.heldBy own = false → Raises (.semr n) s 0x14 0#64 0#64)

/-- R383, R384: BAR arrives and waits; the last arrival completes every waiting BAR of the cluster in one event, clears the
arrivals and advances the generation; a scope below CLUSTER, or a region of the cluster that has halted, raises SYNC. -/
def Sys2Proof.Claims.Barriers : Prop :=
  ∀ (s : State) (r k : Nat) (c : Cluster) (scope : Scope), s.cur = .seq r → s.clusterOf r = some k →
    s.cluster? k = some c → s.me.wait = .none →
    let arrived := c.barArrived ||| (1#128 <<< c.indexOf r)
    (scope ≠ .tile → scope ≠ .region → (∀ q ∈ c.regions, (s.core (.seq q)).run ≠ .halted) →
      ((∀ x, x < c.regions.length → arrived.getLsbD x = true) → Completes (.bar scope) s fun t =>
        Retires s t 0#5 0#64 ∧ t.cluster? k = some { c with barArrived := 0#128, barGen := c.barGen + 1#32 } ∧
        ∀ q ∈ c.regions, q ≠ r → t.core (.seq q) =
          (if (s.core (.seq q)).atBarrier then retired (s.core (.seq q)) else s.core (.seq q))) ∧
      ((∃ x, x < c.regions.length ∧ arrived.getLsbD x = false) → Completes (.bar scope) s fun t =>
        ∃ w, WaitsWith s t (.bar w) ∧ t.cluster? k = some { c with barArrived := arrived })) ∧
    (scope = .tile ∨ scope = .region → Raises (.bar scope) s 0x14 0#64 0#64) ∧
    ((∃ q ∈ c.regions, (s.core (.seq q)).run = .halted) → Raises (.bar scope) s 0x14 0#64 0#64)

/-- The semaphores and barriers of the sequencers. -/
def Obligations.CoreSynchronisation : Prop :=
  Claims.Semaphores ∧ Claims.Barriers

/-- R117, R118: LAUNCH copies the record into an EMPTY cell, granule 1 and then granule 0, which it marks, makes both
granules FULL, and gives NEXT in sd; in a keyed address space both are stored encrypted. -/
def Obligations.LaunchWritesRecord : Prop :=
  ∀ (s s1 s2 s3 : State) (d a b : SReg) (bs : List Byte) (x y : Nat) (u v : Bool),
    let sa := s.me.reg a
    let sb := s.me.reg b
    sa.toNat % 64 = 0 → sb.toNat % 128 = 0 → s.bulkLoad sa 2 [] = (s1, .ok bs) →
    s1.launchCell sb.toNat = (s2, .ok (.hbm x) u) → s2.launchCell (sb + 64#64).toNat = (s3, .ok (.hbm y) v) →
    s3.coreEcc (.hbm x) = false → s3.coreEcc (.hbm y) = false → x % 64 = 0 → y % 64 = 0 → x ≠ y → bs.length = 128 →
    s3.mem.gst (.hbm x) = .empty → s3.mem.gst (.hbm y) = .empty → s.mem.wf = true →
    Completes (.launch d a b) s fun t =>
      t.me = retired (s.me.setReg d (BitVec.ofNat 64 (leNat ((bs.drop 8).take 8)))) ∧
      t.mem.gst (.hbm x) = .full ∧ t.mem.gst (.hbm y) = .full ∧ t.mem.mark (.hbm x) = true ∧ t.mem.mark (.hbm y) = false ∧
      (∃ u, Stored s3 u (s.coreAsid s.cur) (.hbm y) (bs.drop 64) ∧ Stored u t (s.coreAsid s.cur) (.hbm x) (bs.take 64) ∧
        u.isKeyed (s.coreAsid s.cur) = s.isKeyed (s.coreAsid s.cur) ∧
        u.xtsKey (s.coreAsid s.cur) = s.xtsKey (s.coreAsid s.cur)) ∧
      (s.isKeyed (s.coreAsid s.cur) = false → ∀ q, t.mem.byte q = if Within (.hbm x) 64 q then bs.getD (q.key - x) 0#8
        else if Within (.hbm y) 64 q then bs.getD (64 + (q.key - y)) 0#8 else s.mem.byte q)

/-- R342, R346: COPY, CONV and COLL enqueue a command whose block passes the checks on an engine of their class that has
room, and give its ticket; EWAIT completes when the engine holds no command of this core up to the ticket's number, and
otherwise waits. -/
def Obligations.EngineInstructions : Prop :=
  (∀ (s s1 : State) (d a : SReg) (e : BitVec 5) (raw : List Byte),
    let n := s.me.issued e.toNat + 1#32
    let ok (i : Instr) : Prop := Completes i s fun t => t.mem = s.mem ∧
      t.me = retired ((s.me.setIssued e.toNat n).setReg d (BitVec.ofNat 64 (32 * n.toNat + e.toNat))) ∧
      (∃ c, t.queueOf e.toNat = s.queueOf e.toNat ++ [c] ∧ c.issuer = .core s.cur ∧ c.n = n ∧ c.blk = cmdBlock raw ∧
        c.asid = s.coreAsid s.cur ∧ c.cluster = s.coreCluster s.cur) ∧ ∀ f, f ≠ e.toNat → t.queueOf f = s.queueOf f
    (s.me.reg a).toNat % 64 = 0 → s.bulkLoad (s.me.reg a) 1 [] = (s1, .ok raw) → (s.queueOf e.toNat).length < 64 →
    (e.toNat < 16 → blockFails .te (coreIsMc s.cur) raw = false → ok (.copy d a e)) ∧
    (16 ≤ e.toNat → e.toNat < 20 → blockFails .cv (coreIsMc s.cur) raw = false → ok (.conv d a e)) ∧
    (20 ≤ e.toNat → blockFails .cl (coreIsMc s.cur) raw = false → ∀ s2 s3 head table,
      (cmdBlock raw).aux % 64 = 0 → (cmdBlock raw).aux < 2 ^ 52 →
      s1.bulkLoad (BitVec.ofNat 64 (cmdBlock raw).aux) 1 [] = (s2, .ok head) → groupSizeBad (fieldLe head 0 2) = false →
      { s2 with disp := s1.disp }.bulkLoad (BitVec.ofNat 64 (cmdBlock raw).aux) (groupGranules (fieldLe head 0 2)) [] =
        (s3, .ok table) →
      groupFails s.member (cmdBlock raw) (groupMembers table) = false → ok (.coll d a e))) ∧
  ∀ (s : State) (a : SReg),
    let v := (s.me.reg a).toNat
    let t : W32 := BitVec.ofNat 32 (v / 32)
    let due (c : Cmd) : Prop := c.issuer = .core s.cur ∧ (t - c.n).toNat < 2 ^ 31
    v < 2 ^ 37 → v % 32 ≤ 23 → (s.me.issued (v % 32) - t).toNat < 2 ^ 31 →
    ((∀ c ∈ s.queueOf (v % 32), ¬due c) → Goes (.ewait a) s (s.me.pc + 4#64)) ∧
    ((∃ c ∈ s.queueOf (v % 32), due c) → exec (.ewait a) s = .next s)

/-- R192 to R196: PREF begins the fetch of an identifier that the cache can take; CFG commits a FETCHED entry, the words of an
entry already committed, in a FREE entry or that of the FETCHED entry fetched longest ago, or the image that the directory
names, as a STAGED entry at the end of commit order; a zero identifier and a full commit queue raise CONFIG. -/
def Obligations.Staging : Prop :=
  ∀ (s : State) (r : Nat) (a : SReg), s.cur = .seq r →
    let v := (s.me.reg a).toNat
    let x := s.region r
    (v ≠ 0 → v < 65536 → (∀ e ∈ x.cache, e.cfgid = v → e.state = .rejected) → (committedOf x).length < 8 →
      Completes (.pref a) s fun t => Retires s t 0#5 0#64 ∧ (t.region r).prefetch = x.prefetch ++ [v] ∧
        (t.region r).cache = x.cache) ∧
    (v = 0 ∨ 65535 < v → Completes (.pref a) s fun t => Retires s t 0#5 0#64 ∧ (t.region r).prefetch = x.prefetch) ∧
    ∀ (k : Nat) (c : Cluster), s.clusterOf r = some k → s.cluster? k = some c →
      (v = 0 ∨ 65535 < v → ConfigTrap (.cfg a) s 1) ∧
      (∀ e, 0 < v → v < 65536 → (committedOf x).length < 8 →
        x.cache.find? (fun e => e.cfgid == v && e.state == .fetched) = some e → Completes (.cfg a) s fun t =>
          Retires s t 0#5 0#64 ∧ ∃ n, (t.region r).cache = x.cache.erase e ++ [n] ∧ n.state = .staged ∧ n.cfgid = v ∧
            n.cfg = e.cfg ∧ n.exits = e.exits ∧ n.cseq = x.nextCseq ∧ (t.region r).nextCseq = x.nextCseq + 1) ∧
      (∀ e, 0 < v → v < 65536 → (committedOf x).length < 8 → (∀ y ∈ x.cache, y.cfgid = v → y.state ≠ .fetched) →
        x.cache.find? (fun y => y.cfgid == v && y.state != .rejected) = some e → Completes (.cfg a) s fun t =>
          Retires s t 0#5 0#64 ∧ (t.region r).nextCseq = x.nextCseq + 1 ∧ ∃ n kept, (t.region r).cache = kept ++ [n] ∧
            n.state = .staged ∧ n.cfgid = v ∧ n.cfg = e.cfg ∧ n.exits = e.exits ∧ n.cseq = x.nextCseq ∧
            (x.cache.length < 8 → kept = x.cache) ∧
            (8 ≤ x.cache.length → ∃ o ∈ x.cache, kept = x.cache.erase o ∧ Uncommitted o ∧
              ∀ y ∈ x.cache, Uncommitted y → o.age ≤ y.age)) ∧
      (0 < v → v < 65536 → 8 ≤ (committedOf x).length → (∃ e ∈ x.cache, e.cfgid = v) → ConfigTrap (.cfg a) s 2) ∧
      ∀ s1 s2 entry cfg exits, 0 < v → v < 65536 → (committedOf x).length < 8 → (∀ e ∈ x.cache, e.cfgid ≠ v) →
        s.dirEntry (.core (.seq r)) k c r v = (s1, .ok entry) → entry ≠ [] →
        s1.readImage (.core (.seq r)) k c r entry = (s2, .ok cfg exits) → s2.cur = s.cur → s2.me = s.me →
        s2.mem = s.mem → s2.region r = x →
        Completes (.cfg a) s fun t => Retires s t 0#5 0#64 ∧
          ∃ n, n ∈ (t.region r).cache ∧ n.state = .staged ∧ n.cfgid = v ∧ n.cfg = cfg ∧ n.exits = exits ∧
            n.cseq = x.nextCseq

/-- R197, R199: RUN makes the oldest STAGED instance LIVE and completes when every site has adopted it, and waits until
then; it raises CONFIG when an instance is LIVE or none is STAGED. SWO makes the oldest STAGED instance LIVE beside the
youngest LIVE one and gives its sources a SWITCHOVER with the new identifier. -/
def Sys2Proof.Claims.RunAndSwo : Prop :=
  ∀ (s : State) (r k : Nat) (c : Cluster) (a : SReg), s.cur = .seq r → s.clusterOf r = some k → s.cluster? k = some c →
    c.snap = none → s.me.wait = .none →
    let x := s.region r
    let live (e : Entry) : Entry := { e with state := .live }
    (∀ e, x.liveEntries = [] → x.oldestStaged = some e →
      ((x.goLive e.cseq).allAdopted e.cseq e.cfg = true → (x.goLive e.cseq).held e.cseq = some (live e) →
        Completes .run s fun t => Retires s t 0#5 0#64 ∧ (t.region r).held e.cseq = some (live e)) ∧
      ((x.goLive e.cseq).allAdopted e.cseq e.cfg = false → (x.goLive e.cseq).held e.cseq = some (live e) →
        Completes .run s fun t => WaitsWith s t (.run e.cseq) ∧ (t.region r).held e.cseq = some (live e))) ∧
    (x.liveEntries ≠ [] → ConfigTrap .run s 6) ∧
    (x.liveEntries = [] → x.oldestStaged = none → ConfigTrap .run s 5) ∧
    (x.youngestLive = none → ConfigTrap (.swo a) s 7) ∧
    (∀ o, x.youngestLive = some o → x.oldestStaged = none → ConfigTrap (.swo a) s 5) ∧
    ∀ o e, x.youngestLive = some o → x.oldestStaged = some e → (s.me.reg a).toNat = e.cfgid →
      (∀ n ∈ o.cfg.seqOut none, (x.goLive e.cseq).acceptsCtl o.cseq n = true) → Completes (.swo a) s fun t =>
        t.mem = s.mem ∧ t.region r = { ((x.goLive e.cseq).deliver o.cseq o.cfg (switchTok e.cfgid)).pushAll o.cseq
          (o.cfg.seqOut none) (switchTok e.cfgid) with core := t.me } ∧ t.me.pc = s.me.pc + 4#64 ∧ t.me.regs = s.me.regs

/-- R206, R207, R210: INJ puts its token on every arc of the output port once all of them have room, TAKE gives the token at
the head of the input port and its tag and waits where none stands, IMODE gives the mode word to the sources; a port without
an arc raises ARC. -/
def Sys2Proof.Claims.InjectTakeMode : Prop :=
  ∀ (s : State) (r : Nat) (d a b : SReg) (port : BitVec 4) (m : BitVec 8), s.cur = .seq r →
    let x := s.region r
    let outs (e : Entry) := e.cfg.seqOut (some port.toNat)
    let sends (i : Instr) (e : Entry) (l : List Nat) (y : Region) (tok : Token) : Prop := Completes i s fun t =>
      t.mem = s.mem ∧ t.region r = { y.pushAll e.cseq l tok with core := t.me } ∧
        t.me = retired (y.pushAll e.cseq l tok).core
    (∀ e, x.youngestLive = some e → outs e ≠ [] →
      ((∀ n ∈ outs e, x.acceptsData e.cseq n = true) →
        sends (.injData a b port) e (outs e) x
          { kind := .data, poison := false, err := false, payload := (0#384 ++ s.me.reg b ++ s.me.reg a).setWidth 512 } ∧
        sends (.injDataP a b port) e (outs e) x
          { kind := .data, poison := true, err := false, payload := (0#384 ++ s.me.reg b ++ s.me.reg a).setWidth 512 }) ∧
      ((s.me.reg a).toNat ≤ 7 → s.me.reg b = 0#64 → (∀ n ∈ outs e, x.acceptsCtl e.cseq n = true) →
        sends (.injStop a b port) e (outs e) x
          { kind := .stop, poison := false, err := false, payload := (s.me.reg a).setWidth 512 })) ∧
    (x.youngestLive = none ∨ (∃ e, x.youngestLive = some e ∧ outs e = []) →
      Raises (.injData a b port) s 0x12 0#64 0#64 ∧ Raises (.injDataP a b port) s 0x12 0#64 0#64) ∧
    (∀ p n tok, x.portAt port.toNat = some (p, n) → x.headOf p n = some tok → tok.kind = .data ∨ tok.kind = .stop →
      Completes (.take d port) s fun t => t.mem = s.mem ∧
        t.me = { retired (s.me.setReg d (tok.payload.setWidth 64)) with ltag := tok.tag } ∧
        t.region r = { (x.pop p n).portMove port.toNat 8 with core := t.me }) ∧
    (∀ p n, x.portAt port.toNat = some (p, n) → x.headOf p n = none → Completes (.take d port) s fun t =>
      t.mem = s.mem ∧ t.me = s.me ∧ t.region r = x) ∧
    (x.portAt port.toNat = none → Raises (.take d port) s 0x12 0#64 0#64) ∧
    ∀ e, x.youngestLive = some e → (∀ n ∈ e.cfg.seqOut none, x.acceptsCtl e.cseq n = true) →
      sends (.imode m) e (e.cfg.seqOut none) (x.deliver e.cseq e.cfg (modeTok m)) (modeTok m)

/-- Starting instances, and the sequencer's ports. -/
def Obligations.StartingAndPorts : Prop :=
  Claims.RunAndSwo ∧ Claims.InjectTakeMode

/-- R203 to R205, R208: WEX takes the exit of the oldest instance whose exit is not taken, with its token at port 15: sd and
EXIT_LAST hold the exit word, ITER gains 1, and the PC goes to the exit's target; a swept exit, or a target of all ones,
raises EXIT. It waits, with nothing changed, while no exit has arrived and while a debug halt keeps the token. -/
def Sys2Proof.Claims.WexTakesExit : Prop :=
  ∀ (s : State) (r : Nat) (d : SReg) (e : Entry) (n : Nat), s.cur = .seq r →
    let x := s.region r
    let target := e.exits.getD n 0xFFFFFFFF#32
    let word : W64 := BitVec.ofNat 64 (2 ^ 32 + 2 ^ 16 * e.cfgid + n)
    x.exitNext = some e → n < 8 → e.cfgid < 65536 →
    (e.exitSt = .arrived n → x.portHead 15 = none → exec (.wex d) s = .next s) ∧
    (e.exitSt = .arrived n → (x.portHead 15).isSome = true → target ≠ 0xFFFFFFFF#32 → Completes (.wex d) s fun t => t.mem = s.mem ∧
      t.me = { (retired (s.me.setReg d word)) with
        pc := target.setWidth 64, exitLast := word, iter := s.me.iter + 1#64 } ∧
      ∀ a, x.portAt 15 = some a → (t.region r).arcs = (x.pop a.1 a.2).arcs) ∧
    (e.exitSt = .arrived n → (x.portHead 15).isSome = true → target = 0xFFFFFFFF#32 →
      ∃ w, encode (.wex d) = some w ∧ Completes (.wex d) s fun t =>
      Trapped (s.setMe { s.me with exitLast := word, iter := s.me.iter + 1#64 }) t 0x11 0#64 0#64 0#12 w) ∧
    (e.exitSt = .swept → ∃ w, encode (.wex d) = some w ∧ Completes (.wex d) s fun t =>
      Trapped (s.setMe { s.me with exitLast := BitVec.ofNat 64 (2 ^ 33 + 2 ^ 32 + 2 ^ 16 * e.cfgid), iter := s.me.iter + 1#64 }) t
        0x11 0#64 0#64 0#12 w) ∧
    (e.exitSt = .unsent → exec (.wex d) s = .next s)

/-- R208, R209, R420: HALTA halts an arc of the youngest LIVE instance, at most sixteen at a time, and RELA releases it; no
other arc changes. HALTA of a halted arc, and RELA without a LIVE instance, only complete; HALTA without one raises ARC.
ICOMMA begins a snapshot of the cluster with the number in sa, and its sequencer freezes behind it. -/
def Sys2Proof.Claims.HaltsAndCommas : Prop :=
  (∀ (s : State) (r : Nat) (arc : BitVec 10) (e : Entry), s.cur = .seq r →
    let x := s.region r
    let same (y : Region) : Prop := ∀ k, k ≠ arcKey e.cseq arc.toNat → Table.find? y.arcs k = Table.find? x.arcs k
    x.youngestLive = some e →
    (arc.toNat < e.cfg.arcs.length → (x.arc e.cseq arc.toNat).halted = false → x.haltedArcs < 16 →
      Completes (.halta arc) s fun t => Retires s t 0#5 0#64 ∧ same (t.region r) ∧
        (t.region r).arc e.cseq arc.toNat = { x.arc e.cseq arc.toNat with halted := true }) ∧
    (e.cfg.arcs.length ≤ arc.toNat → Raises (.halta arc) s 0x12 0#64 0#64) ∧
    ((x.arc e.cseq arc.toNat).halted = false → arc.toNat < e.cfg.arcs.length → 16 ≤ x.haltedArcs →
      Raises (.halta arc) s 0x12 0#64 0#64) ∧
    ((x.arc e.cseq arc.toNat).halted = true → arc.toNat < e.cfg.arcs.length → Goes (.halta arc) s (s.me.pc + 4#64)) ∧
    Completes (.rela arc) s fun t => Retires s t 0#5 0#64 ∧ same (t.region r) ∧
      (t.region r).arc e.cseq arc.toNat = { x.arc e.cseq arc.toNat with halted := false }) ∧
  (∀ (s : State) (r : Nat) (arc : BitVec 10), s.cur = .seq r → (s.region r).youngestLive = none →
    Raises (.halta arc) s 0x12 0#64 0#64 ∧ Goes (.rela arc) s (s.me.pc + 4#64)) ∧
  ∀ (s : State) (r k : Nat) (c : Cluster) (a : SReg), s.cur = .seq r → s.clusterOf r = some k → s.cluster? k = some c →
    c.snap = none → s.me.run = .running → s.me.wait = .none → Completes (.icomma a) s fun t =>
      t.mem = s.mem ∧ t.me.run = .frozen ∧ t.me.pc = s.me.pc + 4#64 ∧ t.me.regs = s.me.regs ∧
      ∃ c', t.cluster? k = some c' ∧ c'.snap = some { preempt := none, number := (s.me.reg a).setWidth 32 }

/-- Exits, halted arcs and COMMA. -/
def Obligations.FabricControl : Prop :=
  Claims.WexTakesExit ∧ Claims.HaltsAndCommas

namespace Sys2Proof.Claims

/-! ## The control ports, the security block and the read-back plane -/

/-- The cell at an address of address space 0 is an EMPTY single-assignment granule at `a` of the package's HBM. -/
def FreeCell (s : State) (va : W64) (a : Nat) : Prop :=
  va.toNat % 64 = 0 ∧ s.as0Place va.toNat = some (.hbm a, true) ∧ s.mem.gst (.hbm a) = .empty

/-- The granule at `a` has been filled with `bs`, the rest of it zero. -/
def FilledWith (t : State) (a : Nat) (bs : List Byte) : Prop :=
  t.mem.gst (.hbm a) = .full ∧ t.mem.bytes (.hbm a) 64 = bs ++ List.replicate (64 - bs.length) 0#8

/-- A port's command is answered (R103, R106): the reply cell holds the status, the rest of it zero, and the chain waits on the
next cell, or has stopped when NEXT is no cell of address space 0. The other port's chain is served next (R30). -/
def Answered (s t : State) (p : PortId) (c : Command) (status : Nat) : Prop :=
  (∀ a, FreeCell s c.reply a → FilledWith t a (leBytes 8 status)) ∧
  ((t.port p).cmd = if c.next.toNat % 64 = 0 ∧ s.as0Cell c.next.toNat then some c.next else none) ∧
  t.disp.cmdTurn = otherPort p

/-- The port's chain stands at a sound command of an opcode, and it is its turn or the other chain has none (R30). Its operand
bytes from `off` on, `n` of them, are zero; memory is in canonical form and address space 0 has no key. -/
def CommandStands (s : State) (p : PortId) (c : Command) (opc : Nat) : Prop :=
  s.commandAt p = some c ∧ (s.disp.cmdTurn = p ∨ s.commandAt (otherPort p) = none) ∧ c.sound = true ∧ c.opc = opc ∧
  s.mem.wf = true ∧ s.isKeyed 0 = false

/-- The little-endian operand of a command. -/
def arg (c : Command) (off n : Nat) : Nat := leNat ((c.args.drop off).take n)

/-- The operand bytes that the command does not name are zero. -/
def ZeroArgs (c : Command) (off n : Nat) : Prop := ∀ b ∈ (c.args.drop off).take n, b = 0#8

/-- A cached translation lies in an address range of an ASID (R152). -/
def InRange (asid lo hi : Nat) (x : Cached) : Prop := x.asid = asid ∧ x.base < hi ∧ lo < x.base + x.size

end Sys2Proof.Claims

/-- R104, R106 to R109: SEM_ACQ of a free semaphore and SEM_REL of one nobody waits for are answered OK; an acquire of a
semaphore another holds waits without a reply; PORT_RESET leaves the port without a semaphore and without a session. Each
refusal is answered with its status and changes no semaphore. A command of any kind waits while it is the other chain's turn
and a command stands there (R30). -/
def Sys2Proof.Claims.SemaphoreCommands : Prop :=
  ∀ (s : State) (p : PortId) (c : Command),
    let own := portHolder p
    let x := s.sem c.sem
    (CommandStands s p c 1 → ZeroArgs c 0 40 → c.sem < 64 →
      (x.holder = 0x1FF → x.heldBy own = false → Completes (.semAcq p) s fun t => Answered s t p c 0 ∧ (t.sem c.sem).holder = own ∧
        ∀ m, m ≠ c.sem → t.sem m = s.sem m) ∧
      (x.holder ≠ 0x1FF → x.heldBy own = false → Completes (.semAcq p) s fun t => t.mem = s.mem ∧
        (t.port p).acq = some { sem := c.sem, reply := c.reply, next := c.next } ∧
        (t.sem c.sem).holder = x.holder ∧ (t.sem c.sem).waiters = x.waiters ++ [own] ∧ t.disp.cmdTurn = otherPort p) ∧
      (x.heldBy own = true → Completes (.semAcq p) s fun t => Answered s t p c 2 ∧ ∀ m, t.sem m = s.sem m)) ∧
    (s.disp.cmdTurn = otherPort p → (s.commandAt (otherPort p)).isSome = true →
      ∀ i ∈ [Instr.semAcq p, .semRel p, .carReg p, .carUnreg p, .asSetSet p, .asSetRemove p, .asSetInval p, .resSet p, .portReset p,
        .cellClr p], exec i s = .next s) ∧
    (CommandStands s p c 2 → ZeroArgs c 0 40 → c.sem < 64 →
      (x.heldBy own = true → x.waiters = [] → Completes (.semRel p) s fun t => Answered s t p c 0 ∧
        (t.sem c.sem).holder = 0x1FF ∧ ∀ m, m ≠ c.sem → t.sem m = s.sem m) ∧
      (x.heldBy own = false → Completes (.semRel p) s fun t => Answered s t p c 1 ∧ ∀ m, t.sem m = s.sem m)) ∧
    (CommandStands s p c 7 → ZeroArgs c 0 40 → c.sem < 64 → (∀ e ∈ s.disp.sems, e.2.waiters = []) →
      Completes (.portReset p) s fun t => Answered s t p c 0 ∧ (∀ m, (t.sem m).heldBy own = false) ∧
        (∀ m, (∀ e ∈ s.disp.sems, e.1 = m → e.2.heldBy own = false) → t.sem m = s.sem m) ∧
        ∀ n a, s.aspace? n = some a → a.session = some p → ∃ b, t.aspace? n = some b ∧ b.session = none)

/-- R104, R106, R110, R138: CAR_REG registers a caravan, which then waits on its first cell; CAR_UNREG removes it; RES_SET sets
and clears the caravan a region is reserved to. Each is refused without the semaphore that guards its table. -/
def Sys2Proof.Claims.TableCommands : Prop :=
  ∀ (s : State) (p : PortId) (c : Command), c.sem < 64 →
    (∀ s1, CommandStands s p c 3 → ZeroArgs c 5 3 → ZeroArgs c 16 24 → arg c 4 1 ≤ 7 → arg c 8 8 % 128 = 0 → arg c 0 2 ≤ 191 →
      arg c 2 2 ≠ 0 → (s.aspace? (arg c 2 2)).isSome = true → s.askHead (arg c 0 2) (arg c 2 2) (arg c 8 8) = (s1, true) →
      ((s.sem 1).heldBy (portHolder p) = true → (s.caravan (arg c 0 2)).state = .unreg → Completes (.carReg p) s fun t =>
        Answered s t p c 0 ∧ t.caravan (arg c 0 2) = { Caravan.init with
          state := .waiting, asid := arg c 2 2, pfloor := arg c 4 1, head := BitVec.ofNat 64 (arg c 8 8) } ∧
        ∀ m, m ≠ arg c 0 2 → t.caravan m = s.caravan m) ∧
      ((s.sem 1).heldBy (portHolder p) = true → (s.caravan (arg c 0 2)).state ≠ .unreg → Completes (.carReg p) s fun t =>
        Answered s t p c 5 ∧ ∀ m, t.caravan m = s.caravan m) ∧
      ((s.sem 1).heldBy (portHolder p) = false → Completes (.carReg p) s fun t =>
        Answered s t p c 1 ∧ ∀ m, t.caravan m = s.caravan m)) ∧
    (CommandStands s p c 4 → ZeroArgs c 2 38 → arg c 0 2 ≤ 191 → (s.sem 1).heldBy (portHolder p) = false →
      Completes (.carUnreg p) s fun t => Answered s t p c 1 ∧ ∀ m, t.caravan m = s.caravan m) ∧
    (CommandStands s p c 4 → ZeroArgs c 2 38 → arg c 0 2 ≤ 191 → (s.sem 1).heldBy (portHolder p) = true →
      (∀ v ∈ s.disp.saved, v.cluster.caravan ≠ arg c 0 2) →
      ((s.caravan (arg c 0 2)).state ≠ .ready → Completes (.carUnreg p) s fun t =>
        Answered s t p c 0 ∧ t.caravan (arg c 0 2) = Caravan.init ∧ ∀ m, m ≠ arg c 0 2 → t.caravan m = s.caravan m) ∧
      ((s.caravan (arg c 0 2)).state = .ready → Completes (.carUnreg p) s fun t =>
        Answered s t p c 5 ∧ ∀ m, t.caravan m = s.caravan m)) ∧
    (CommandStands s p c 6 → ZeroArgs c 1 1 → ZeroArgs c 4 36 → arg c 0 1 ≤ 127 → arg c 2 2 ≤ 191 ∨ arg c 2 2 = 0xFFFF →
      ((s.sem 2).heldBy (portHolder p) = true → Completes (.resSet p) s fun t => Answered s t p c 0 ∧
        Table.find? t.disp.reserved (arg c 0 1) = (if arg c 2 2 = 0xFFFF then none else some (arg c 2 2)) ∧
        ∀ r, r ≠ arg c 0 1 → Table.find? t.disp.reserved r = Table.find? s.disp.reserved r) ∧
      ((s.sem 2).heldBy (portHolder p) = false → Completes (.resSet p) s fun t => Answered s t p c 1 ∧
        t.disp.reserved = s.disp.reserved))

/-- The commands of the control ports on semaphores and tables. -/
def Obligations.PortCommands : Prop :=
  Claims.SemaphoreCommands ∧ Claims.TableCommands

/-- R104, R146, R147, R152: AS_SET creates an address space, or gives one that is set a new root and fault queue and keeps its
log and keys; REMOVE erases it; SET of one that is set, and INVAL, discard the cached translations of their range and no
others. They complete once the accesses translated there have been performed, as a read that stands deferred counts (R152). -/
def Sys2Proof.Claims.AddressSpaceCommands : Prop :=
  ∀ (s : State) (p : PortId) (c : Command),
    let asid := arg c 0 2
    let x := arg c 8 8
    let y := arg c 16 8
    let rest (s t : State) : Prop := ∀ m, m ≠ asid → t.aspace? m = s.aspace? m
    CommandStands s p c 5 → ZeroArgs c 3 5 → ZeroArgs c 24 16 → 0 < asid → asid ≤ 4095 → c.sem < 64 →
    (s.sem 0).heldBy (portHolder p) = true →
    (∀ a ∈ s.ports.pend, a.asid ≠ asid ∨ a.page = none ∨ ∃ r ∈ s.ports.reads, r.reader = a.reader) →
    (∀ a ∈ s.ports.sc, a.asid ≠ asid ∨ a.page = none) →
    (arg c 2 1 = 0 → x % 4096 = 0 → x / 2 ^ 47 = s.member → y % 64 = 0 → s.aspace? asid = none →
      Completes (.asSetSet p) s fun t => Answered s t p c 0 ∧ rest s t ∧ ∃ a, t.aspace? asid = some a ∧ a.root = x ∧
        a.fqNext = y ∧ a.winPort = p ∧ a.logh = 0#384 ∧ a.logn = 0#32 ∧ a.kbind = 0#384 ∧ a.session = none) ∧
    (∀ o, arg c 2 1 = 0 → x % 4096 = 0 → x / 2 ^ 47 = s.member → y % 64 = 0 → s.aspace? asid = some o →
      Completes (.asSetSet p) s fun t => Answered s t p c 0 ∧ rest s t ∧
        t.aspace? asid = some { o with root := x, winPort := p, fqNext := y, fqStuck := false } ∧
        ∀ e, e ∈ t.ports.tlb ↔ e ∈ s.ports.tlb ∧ ¬InRange asid 0 (2 ^ 52) e) ∧
    (arg c 2 1 = 1 → (∀ e ∈ s.disp.caravans, e.2.asid ≠ asid) → (∀ e ∈ s.disp.clusters, e.2.asid ≠ asid) →
      (∀ v ∈ s.disp.saved, v.cluster.asid ≠ asid) →
      Completes (.asSetRemove p) s fun t => Answered s t p c 0 ∧ rest s t ∧ t.aspace? asid = none) ∧
    (arg c 2 1 = 2 → x % 65536 = 0 → Completes (.asSetInval p) s fun t => Answered s t p c 0 ∧
      (∀ m, t.aspace? m = s.aspace? m) ∧ ∀ e, e ∈ t.ports.tlb ↔ e ∈ s.ports.tlb ∧
        ¬(if y = 0 then InRange asid 0 (2 ^ 52) e else InRange asid x (x + 65536 * y) e))

/-- R105: CELL_CLR makes every granule it names EMPTY with zero bytes and no mark, and changes no other granule but its
reply's; with a granule that a chain has not moved past, its own command's among them, it clears nothing and answers IN_USE;
with a granule outside the pages it may name, or a count out of range, it clears nothing and answers BAD_FIELD. -/
def Sys2Proof.Claims.CellClear : Prop :=
  ∀ (s : State) (p : PortId) (c : Command),
    let va := arg c 0 8
    let n := arg c 8 2
    let mine (g : Nat) : Prop := ∃ i a, i < n ∧ s.as0Place (va + 64 * i) = some (.hbm a, true) ∧ g = a / 64
    CommandStands s p c 8 → ZeroArgs c 10 30 → c.sem < 64 →
    (va % 64 = 0 → 0 < n → n ≤ 1024 → (∀ i, i < n → clearable (va + 64 * i) = true) →
      (∀ r ∈ s.ports.reads, ∀ a, r.place = .hbm a → ¬mine (a / 64)) →
      (∀ a, s.as0Place c.reply.toNat = some (.hbm a, true) → ¬mine (a / 64)) →
      Completes (.cellClr p) s fun t => Answered s t p c 0 ∧
        (∀ a, mine (a / 64) → t.mem.gst (.hbm a) = .empty ∧ t.mem.mark (.hbm a) = false ∧ t.mem.byte (.hbm a) = 0#8) ∧
        ∀ a, ¬mine (a / 64) → (∀ b, s.as0Place c.reply.toNat = some (.hbm b, true) → b / 64 ≠ a / 64) →
          t.mem.gst (.hbm a) = s.mem.gst (.hbm a) ∧ t.mem.byte (.hbm a) = s.mem.byte (.hbm a)) ∧
    (va % 64 = 0 → 0 < n → n ≤ 1024 → (∀ i, i < n → clearable (va + 64 * i) = true) →
      (∃ r ∈ s.ports.reads, ∃ i a, i < n ∧ s.as0Place (va + 64 * i) = some (.hbm a, true) ∧
        r.place = (Place.hbm a).granule ∧ r.reader.isChain = true) →
      Completes (.cellClr p) s fun t => Answered s t p c 5 ∧
        ∀ a, (∀ b, s.as0Place c.reply.toNat = some (.hbm b, true) → b / 64 ≠ a / 64) →
          t.mem.gst (.hbm a) = s.mem.gst (.hbm a) ∧ t.mem.byte (.hbm a) = s.mem.byte (.hbm a)) ∧
    (va % 64 ≠ 0 ∨ n = 0 ∨ 1024 < n ∨ (∃ i, i < n ∧ clearable (va + 64 * i) = false) →
      Completes (.cellClr p) s fun t => Answered s t p c 4 ∧
        ∀ a, (∀ b, s.as0Place c.reply.toNat = some (.hbm b, true) → b / 64 ≠ a / 64) →
          t.mem.gst (.hbm a) = s.mem.gst (.hbm a) ∧ t.mem.byte (.hbm a) = s.mem.byte (.hbm a))

/-- The commands of the control ports on address spaces, and the clearing of a cell. -/
def Obligations.AddressSpaceAndCells : Prop :=
  Claims.AddressSpaceCommands ∧ Claims.CellClear

namespace Sys2Proof.Claims

/-- A port's security request stands at the head of its chain and is served next; it is sound, memory is in canonical form
and address space 0 has no key. -/
def RequestStands (s : State) (p : PortId) (q : Request) (opc : Nat) : Prop :=
  s.servable p = some q ∧ q.sound = true ∧ q.opc = opc ∧ s.mem.wf = true ∧ s.isKeyed 0 = false

/-- A security request is answered (R124, R125): the status cell holds the status and the length of the body, the rest zero;
the chain goes on, and the other port's chain is served next. -/
def Served (s t : State) (p : PortId) (q : Request) (status len : Nat) : Prop :=
  (∀ a, FreeCell s q.status a → FilledWith t a (leBytes 8 status ++ leBytes 8 len)) ∧
  t.sec.turn = otherPort p ∧
  (t.port p).sec = if q.next.toNat % 128 = 0 ∧ s.as0Cell q.next.toNat then some q.next else none

end Sys2Proof.Claims

/-- R125, R129: GET_CERT gives the certificate chain, ATTEST a report on the nonce with its signature and the peer table; the
body stands in the request's buffer and its length in the status cell. The signature itself is made with a free nonce
(log entry 10). -/
def Sys2Proof.Claims.CertificatesAndReports : Prop :=
  ∀ (s : State) (p : PortId) (q : Request) (a : Nat), s.as0Place q.body = some (.hbm a, false) → bodyOk q.body = true →
    (RequestStands s p q 1 → (∀ b ∈ q.args, b = 0#8) → Completes (.getCert p) s fun t =>
      let chain := Config.certificateChain.take 4096
      Served s t p q 0 chain.length ∧ t.mem.bytes (.hbm a) chain.length = chain) ∧
    (RequestStands s p q 2 → (∀ b ∈ q.args.drop 50, b = 0#8) →
      let asid := leNat ((q.args.drop 48).take 2)
      (asid = 0xFFFF ∨ (s.aspace? asid).isSome = true → Completes (.attest p) s fun t =>
        let head := leBytes 4 0x45524741 ++ leBytes 2 1 ++ leBytes 2 asid ++ leBytes 1 (if s.sec.debug then 1 else 0) ++
          List.replicate 7 0#8 ++ q.args.take 48 ++ bytes384 s.sec.fwm
        ∃ n, Served s t p q 0 n ∧ 384 ≤ n ∧ t.mem.bytes (.hbm a) head.length = head ∧
          (t.mem.bytes (.hbm a) n).drop 384 = s.peerTable) ∧
      (asid ≠ 0xFFFF → s.aspace? asid = none → Completes (.attest p) s fun t => Served s t p q 2 0))

/-- R130, R134: KEY_AGREE binds an address space without a key to the tenant's key; SESSION_OPEN with a good tag and a
counter above the last gives the port the session; SESSION_CLOSE ends it. Requests for an unset ASID, a bound or an unbound
one, and a bad tag are refused with their status. -/
def Sys2Proof.Claims.KeysAndSessions : Prop :=
  ∀ (s : State) (p : PortId) (q : Request),
    let asid := leNat (q.args.take 2)
    let zero (off n : Nat) : Prop := ∀ b ∈ (q.args.drop off).take n, b = 0#8
    (∀ a o, RequestStands s p q 3 → asid ≠ 0 → zero 2 94 → s.as0Place q.body = some (.hbm a, false) → s.aspace? asid = some o →
      let qt := s.mem.bytes (.hbm a) 96
      (o.kbind = 0#384 → onCurve (beNat (qt.take 48)) (beNat (qt.drop 48)) = true → Completes (.keyAgree p) s fun t =>
        (∃ n, Served s t p q 0 n) ∧ ∃ b, t.aspace? asid = some b ∧ b.kbind = vec384 (sha384 qt) ∧ b.root = o.root ∧
          b.logh = o.logh ∧ b.session = o.session) ∧
      (o.kbind ≠ 0#384 → Completes (.keyAgree p) s fun t => Served s t p q 3 0 ∧ t.aspace? asid = some o) ∧
      (o.kbind = 0#384 → onCurve (beNat (qt.take 48)) (beNat (qt.drop 48)) = false → Completes (.keyAgree p) s fun t =>
        Served s t p q 6 0 ∧ t.aspace? asid = some o)) ∧
    (∀ o, RequestStands s p q 4 → zero 2 6 → zero 64 32 → s.aspace? asid = some o → o.kbind ≠ 0#384 →
      let counter := leNat ((q.args.drop 8).take 8)
      let fresh : Prop := ∀ k, o.counter = some k → k.toNat < counter
      let tag := hmac384 (bytes384 o.ks) (asciiBytes "open" ++ beBytes 1 (portNum p) ++ beBytes 8 counter)
      (fresh → (q.args.drop 16).take 48 = tag → Completes (.sessionOpen p) s fun t => Served s t p q 0 0 ∧
        t.aspace? asid = some { o with session := some p, counter := some (BitVec.ofNat 64 counter), rbctr := 0#64 }) ∧
      (¬fresh ∨ slice q.args 16 48 ≠ tag → Completes (.sessionOpen p) s fun t => Served s t p q 5 0 ∧
        t.aspace? asid = some o)) ∧
    (∀ o, RequestStands s p q 5 → zero 2 94 → s.aspace? asid = some o → o.kbind ≠ 0#384 →
      Completes (.sessionClose p) s fun t => Served s t p q 0 0 ∧ t.aspace? asid = some { o with session := none }) ∧
    (RequestStands s p q 5 → zero 2 94 → s.aspace? asid = none → Completes (.sessionClose p) s fun t => Served s t p q 2 0)

/-- The commands of the security block. The byte order of what is hashed is log entry 11, the answers to commands that name nothing that stands are log entry 42. -/
def Obligations.SecurityCommands : Prop :=
  Claims.CertificatesAndReports ∧ Claims.KeysAndSessions

/-- R433 to R435: READ serves the request at the head of a chain, fills the result granule behind it, and the next chain in
turn is served after it. A scalar register of a region without a cluster reads as the register's value, and a selector that
names nothing as BAD_ITEM. Which selectors name
an item is log entry 30. -/
def Obligations.ReadBack : Prop :=
  ∀ (s : State) (ch : ChainId) (cell : W64) (req : List Byte) (a : Nat),
    s.readAt ch = some (cell, req) → s.readTurn ch = true → s.mem.wf = true → s.isKeyed 0 = false →
    FreeCell s (cell + 64#64) a → req.length = 64 →
    let f (off n : Nat) : Nat := leNat ((req.drop off).take n)
    f 0 1 = 1 → f 1 7 = 0 → f 8 8 % 128 = 0 → f 40 24 = 0 →
    (∀ r n, r < 128 → n < 32 → f 16 8 = 3 * 2 ^ 56 + r * 2 ^ 48 + n → f 24 8 = 0 → s.clusterOf r = none →
      Completes (.read ch) s fun t =>
        FilledWith t a (leBytes 8 ((s.core (.seq r)).reg (BitVec.ofNat 5 n)).toNat ++ List.replicate 40 0#8 ++
          leBytes 4 0 ++ leBytes 4 0 ++ leBytes 8 8) ∧
        t.disp.turn = nextChain ch ∧ ((t.disp.chain ch).capture.map Capture.bytes) =
          some (leBytes 8 ((s.core (.seq r)).reg (BitVec.ofNat 5 n)).toNat)) ∧
    (f 16 8 / 2 ^ 56 = 0 → f 24 8 = 0 → Completes (.read ch) s fun t =>
      FilledWith t a (List.replicate 48 0#8 ++ leBytes 4 2 ++ leBytes 4 0 ++ leBytes 8 0) ∧ t.disp.turn = nextChain ch)

namespace Sys2Proof.Claims

/-! ## Elements: the vector element -/

/-- The region of the element `c` once an event has left the element as `d` says: nothing in it differs but the arcs, the
sequencer's ports and its pending events, the injection meters, and the sites of the element and its copies; and at its own
site nothing but what `d` names and the stall counters. -/
def InRegion (t : State) (c d : Ctx) : Prop :=
  t.region c.r = { d.x with sites := (t.region c.r).sites } ∧
  (t.region c.r).site c.site = { d.st with
    stalls := ((t.region c.r).site c.site).stalls, stalled := ((t.region c.r).site c.site).stalled } ∧
  ∀ n, n ≠ c.site → (∀ k, k < c.recd.copies → n ≠ c.copySite k) → (t.region c.r).site n = c.x.site n

/-- An event of the element `c` has happened and leaves it as `d` says; nothing outside its region differs. -/
def Moved (s t : State) (c d : Ctx) : Prop := t = s.setRegion c.r (t.region c.r) ∧ InRegion t c d

/-- An event of the element `c` that also reads memory has happened and leaves the element as `d` says: no byte of memory and
no other region differs. -/
def MovedReading (s t : State) (c d : Ctx) : Prop :=
  t.mem = s.mem ∧ (∀ q, q ≠ c.r → t.region q = s.region q) ∧ InRegion t c d

/-- The element after a firing: the next one is on the next copy (R229). -/
def nextFiring (d : Ctx) : Ctx := { d with st := { d.st with fired := d.st.fired + 1 } }

/-- The element at a site can act, and its record names an operation of a kind. -/
def Stands (s : State) (r site : Nat) (k : EKind) (opc : Nat) (c : Ctx) : Prop :=
  ctxOf s r site = some c ∧ c.recd.isOp k opc = true

/-- The event is a firing that leaves the element as `d` says. -/
def Fires (i : Instr) (s : State) (c d : Ctx) : Prop := Completes i s fun t => Moved s t c (nextFiring d)

/-- A lane-wise operation can fire (R214): DATA tokens `ts` head every port the record names, output 0 has room, and the copy
whose turn it is has adopted. -/
def LanesReady (s : State) (r site opc : Nat) (c : Ctx) (ts : List Token) : Prop :=
  Stands s r site .ve opc c ∧ c.ports.map c.dataAt = ts.map some ∧ c.room 0 = true ∧ c.copyReady = true

/-- The firing consumes every operand and emits one token on output 0; it leaves the copy's LFSR at `l`. -/
def Emits (i : Instr) (s : State) (c : Ctx) (tok : Token) (l : W32) : Prop :=
  Fires i s c (((c.setLfsr l).takeAll c.ports).emit 0 tok)

/-- The firing of a lane-wise operation: `f` gives the payload, the events and the LFSR; poison and the error record follow
R22 and R48. -/
def LaneFires (i : Nat → Nat → Instr) (opc : Nat) (f : Ctx → List Token → W32 → Beat × Ev × W32) : Prop :=
  ∀ (s : State) (r site : Nat) (c : Ctx) (ts : List Token), LanesReady s r site opc c ts →
    let o := f c ts c.lfsr
    Emits (i r site) s c (resultTok ts (pvSelects c.recd.pv o.2.1) o.1) o.2.2

/-- Lane `k` of operand `n` as a number of an integer type (R38). -/
def laneInt (ty : Nat) (ts : List Token) (n k : Nat) : Int :=
  let w := laneWidth ty
  let x := ((ts.map Token.payload).getD n 0).toNat / 2 ^ (w * k) % 2 ^ w
  if isSigned ty = true ∧ 2 ^ (w - 1) ≤ x then (x : Int) - 2 ^ w else x

/-- An operation on integer lanes (R38, R243): lane by lane the exact integer `v`, saturated when SAT is set and otherwise
wrapped; PV selects the overflow event; the LFSR does not step. -/
def IntLanes (i : Nat → Nat → Instr) (opc arity : Nat) (v : (Nat → Int) → Int) : Prop :=
  ∀ (s : State) (r site : Nat) (c : Ctx) (ts : List Token), LanesReady s r site opc c ts → inI (c.outTy 0) = true →
    arity ≤ ts.length →
    let ty := c.outTy 0
    let lo := (intRange ty).1
    let hi := (intRange ty).2
    let x (k : Nat) : Int := v (fun n => laneInt ty ts n k)
    let ovf := (List.range (laneCount ty)).any (fun k => decide (x k < lo ∨ hi < x k))
    ∃ p : Beat, Emits (i r site) s c (resultTok ts (c.recd.pv / 2 % 2 == 1 && ovf) p) c.lfsr ∧
      ∀ k, k < laneCount ty → laneAt p (laneWidth ty) k =
        ((if c.recd.sat then max lo (min hi (x k)) else x k) % 2 ^ laneWidth ty).toNat

/-- An operation without events or rounding whose lanes are given by number: `f` takes the element, the operands and the
lane. -/
def PatternLanes (i : Nat → Nat → Instr) (opc : Nat) (f : Ctx → List Token → Nat → Nat) : Prop :=
  ∀ (s : State) (r site : Nat) (c : Ctx) (ts : List Token), LanesReady s r site opc c ts →
    ∃ p : Beat, Emits (i r site) s c (resultTok ts false p) c.lfsr ∧
      ∀ k, k < laneCount (c.outTy 0) → laneAt p (laneWidth (c.outTy 0)) k = f c ts k

/-- Lane `k` of operand `n` as a pattern of the output's lane width. -/
def lanePat (c : Ctx) (ts : List Token) (n k : Nat) : Nat :=
  laneAt ((ts.map Token.payload).getD n 0) (laneWidth (c.outTy 0)) k

/-- The amount of a shift (R251). -/
def shiftBy (c : Ctx) (ts : List Token) (k : Nat) : Nat := if c.recd.md % 2 = 1 then c.recd.e 0 % 64 else lanePat c ts 1 k

/-- A bitwise operation on the used bits of the beats (R251). -/
def BitLanes (i : Nat → Nat → Instr) (opc : Nat) (f : Bool → Bool → Bool) : Prop :=
  ∀ (s : State) (r site : Nat) (c : Ctx) (ts : List Token), LanesReady s r site opc c ts →
    ∃ p : Beat, Emits (i r site) s c (resultTok ts false p) c.lfsr ∧
      ∀ k, k < 512 → p.getLsbD k = (decide (k < laneWidth (c.outTy 0) * laneCount (c.outTy 0)) &&
        f (((ts.map Token.payload).getD 0 0).getLsbD k) (((ts.map Token.payload).getD 1 0).getLsbD k))

end Sys2Proof.Claims

/-- R214, R22, R48: the lane-wise operations fire once every operand and the output are ready: they consume each operand,
emit one token on output 0, and change nothing else; the payload is the operation's exact value rounded lane by lane (R243 to
R246, R249 to R255; the special functions R54 and R55, by the enclosure of log entry 9; the lanes that step the LFSR by log
entry 20), the poison and error record those of the operands and the events. -/
def Obligations.VectorLanesFire : Prop :=
  LaneFires .veAdd 0x01 (arith (fun rm xs => (valAt xs 0).add rm (valAt xs 1))) ∧
  LaneFires .veSub 0x02 (arith (fun rm xs => (valAt xs 0).add rm (valAt xs 1).negate)) ∧
  LaneFires .veMul 0x03 (arith (fun _ xs => (valAt xs 0).mul (valAt xs 1))) ∧
  LaneFires .veFma 0x04 (arith (fun rm xs => ((valAt xs 0).mul (valAt xs 1)).add rm (valAt xs 2))) ∧
  LaneFires .veFms 0x05 (arith (fun rm xs => ((valAt xs 0).mul (valAt xs 1)).add rm (valAt xs 2).negate)) ∧
  LaneFires .veNeg 0x06 (exactOp (fun xs => (valAt xs 0).negate)) ∧
  LaneFires .veAbs 0x07 (exactOp (fun xs => (valAt xs 0).abs)) ∧
  LaneFires .veMin 0x08 (exactOp (fun xs => (valAt xs 0).min2 (valAt xs 1))) ∧
  LaneFires .veMax 0x09 (exactOp (fun xs => (valAt xs 0).max2 (valAt xs 1))) ∧
  LaneFires .veClamp 0x0A (exactOp (fun xs => unlessNan xs (((valAt xs 0).max2 (valAt xs 1)).min2 (valAt xs 2)))) ∧
  LaneFires .veCmp 0x0B (fun c ts l => (compareBeat c ts, Ev.none, l)) ∧
  LaneFires .veRint 0x11 (laneOp rintLane) ∧ LaneFires .veScale 0x12 (laneOp scaleLane) ∧
  LaneFires .veExp2 0x20 (specialOp .exp2) ∧ LaneFires .veLog2 0x21 (specialOp .log2) ∧
  LaneFires .veRcp 0x22 (specialOp .rcp) ∧ LaneFires .veRsqrt 0x23 (specialOp .rsqrt) ∧
  LaneFires .veSqrt 0x24 (specialOp .sqrt) ∧ LaneFires .veTanh 0x25 (specialOp .tanh) ∧
  LaneFires .veLogistic 0x26 (specialOp .logistic) ∧
  LaneFires .veRsum 0x2B (sumOp (sumTree 7) (fun l => [l.foldl (fun s x => s + x) 0])) ∧
  LaneFires .veRmax 0x2C (extremeOp Val.max2) ∧ LaneFires .veRmin 0x2D (extremeOp Val.min2) ∧
  LaneFires .vePsum 0x2E (fun c => sumOp
    (prefixTree ([1, 2, 4, 8, 16, 32, 64].filter (fun d => decide (d < laneCount (c.outTy 0))))) (exactPrefix 0) c)

/-- R38, R243 to R246: on integer types the arithmetic, sign and ordering operations give the exact integer, saturated or
wrapped, with the overflow event; CMP gives bit k the truth of lane k. -/
def Sys2Proof.Claims.VectorIntegerLanes : Prop :=
  IntLanes .veAdd 0x01 2 (fun x => x 0 + x 1) ∧ IntLanes .veSub 0x02 2 (fun x => x 0 - x 1) ∧
  IntLanes .veMul 0x03 2 (fun x => x 0 * x 1) ∧ IntLanes .veFma 0x04 3 (fun x => x 0 * x 1 + x 2) ∧
  IntLanes .veFms 0x05 3 (fun x => x 0 * x 1 - x 2) ∧ IntLanes .veNeg 0x06 1 (fun x => -x 0) ∧
  IntLanes .veAbs 0x07 1 (fun x => |x 0|) ∧ IntLanes .veMin 0x08 2 (fun x => min (x 0) (x 1)) ∧
  IntLanes .veMax 0x09 2 (fun x => max (x 0) (x 1)) ∧ IntLanes .veClamp 0x0A 3 (fun x => min (max (x 0) (x 1)) (x 2)) ∧
  ∀ (s : State) (r site : Nat) (c : Ctx) (ts : List Token), LanesReady s r site 0x0B c ts → inI (c.inTy 0) = true →
    c.recd.e 0 % 16 < 8 →
    let x (k : Nat) : Int := laneInt (c.inTy 0) ts 0 k
    let y (k : Nat) : Int := laneInt (c.inTy 0) ts 1 k
    ∃ p : Beat, Emits (.veCmp r site) s c (resultTok ts false p) c.lfsr ∧
      ∀ k, k < 512 → (p.getLsbD k = true ↔ k < laneCount (c.inTy 0) ∧ ((c.recd.e 0 % 16 = 0 ∧ x k = y k) ∨
        (c.recd.e 0 % 16 = 1 ∧ x k ≠ y k) ∨ (c.recd.e 0 % 16 = 2 ∧ x k < y k) ∨ (c.recd.e 0 % 16 = 3 ∧ x k ≤ y k) ∨
        (c.recd.e 0 % 16 = 4 ∧ y k < x k) ∨ (c.recd.e 0 % 16 = 5 ∧ y k ≤ x k) ∨ c.recd.e 0 % 16 = 7))

/-- R251, R253: shifts, logic and lane moves, lane by lane and bit by bit; a shift of the lane width or more gives zeros or
copies of the sign bit, and no operation raises an event. A NaN lane that is moved becomes the canonical NaN (R37; log
entry 21). -/
def Sys2Proof.Claims.VectorPatternLanes : Prop :=
  PatternLanes .veShl 0x18 (fun c ts k => lanePat c ts 0 k * 2 ^ shiftBy c ts k % 2 ^ laneWidth (c.outTy 0)) ∧
  PatternLanes .veShr 0x19 (fun c ts k => lanePat c ts 0 k / 2 ^ shiftBy c ts k) ∧
  PatternLanes .veSar 0x1A (fun c ts k => ((signedOf (laneWidth (c.outTy 0)) (lanePat c ts 0 k) / 2 ^ shiftBy c ts k) %
    2 ^ laneWidth (c.outTy 0)).toNat) ∧
  PatternLanes .veBcast 0x28 (fun c ts _ => canonLane (c.outTy 0) (lanePat c ts 0 (c.recd.e 0 % 128 % laneCount (c.outTy 0)))) ∧
  PatternLanes .veRot 0x2A (fun c ts k =>
    canonLane (c.outTy 0) (lanePat c ts 0 ((k + c.recd.e 0 % 128) % laneCount (c.outTy 0)))) ∧
  PatternLanes .vePerm 0x29 (fun c ts k => canonLane (c.outTy 0) (lanePat c ts 0 (permIndex c ts k % laneCount (c.outTy 0)))) ∧
  BitLanes .veAnd 0x1B (fun a b => a && b) ∧ BitLanes .veOr 0x1C (fun a b => a || b) ∧
  BitLanes .veXor 0x1D (fun a b => a != b) ∧ BitLanes .veNot 0x1E (fun a _ => !a) ∧ BitLanes .veAndn 0x1F (fun a b => a && !b)

/-- The vector elements' integer and bit pattern operations, lane by lane. Which NaN patterns pass through is log entry 21. -/
def Obligations.VectorIntegers : Prop :=
  Claims.VectorIntegerLanes ∧ Claims.VectorPatternLanes

/-- R247, R248, R256 to R258: the operations that hold lanes: CVT one token to one, part-built and held; TACC adds until STOP,
in FP32 with one rounding or exactly in integers, then gives the sum and passes the STOP; MXPACK fills a group of 2,048
values, closes it, with the poison of its tokens and of its selected events, and emits its beats; a STOP or MODE closes a part
group; MXUNPACK takes a scale beat, then gives the output beats of each element beat. -/
def Obligations.VectorHoldingOperations : Prop :=
  (∀ (s : State) (r site : Nat) (c : Ctx) (v : CvtState) (t : Token), Stands s r site .ve 0x10 c → c.st.op = .cvt v →
    let ls := laneCount (c.inTy 0)
    let ld := laneCount (c.outTy 0)
    (c.dataAt 0 = some t →
      let lanes := (convertAll c t c.lfsr (List.range ls)).1
      let took := (c.setLfsr (convertAll c t c.lfsr (List.range ls)).2).take 0
      let held : CvtState := { lanes := v.lanes ++ lanes, poison := v.poison || t.poison, recd := keepRec v.recd t }
      (ls = ld → c.ports = [0] → c.room 0 = true → c.copyReady = true → Emits (.veCvt r site) s c
        (resultTok [t] (pvSelects c.recd.pv (lanes.foldl (fun e x => e.or x.2) Ev.none))
          (packLanes (laneWidth (c.outTy 0)) (lanes.map (fun x => x.1.toNat)))) (convertAll c t c.lfsr (List.range ls)).2) ∧
      (ls < ld → held.lanes.length < ld → Fires (.veCvt r site) s c (took.setOp (.cvt held))) ∧
      (ls < ld → ld ≤ held.lanes.length → c.room 0 = true → Fires (.veCvt r site) s c
        ((took.emit 0 (cvtBeat c held held.lanes)).setOp (.cvt { lanes := [], poison := false, recd := none }))) ∧
      (ld < ls → v.lanes = [] → c.room 0 = true → Fires (.veCvt r site) s c
        ((took.emit 0 (cvtBeat c held (lanes.take ld))).setOp (.cvt { held with lanes := lanes.drop ld })))) ∧
    (v.lanes ≠ [] → c.room 0 = true →
      (ld < ls → ld < v.lanes.length → Fires (.veCvtEmit r site) s c
        ((c.emit 0 (cvtBeat c v (v.lanes.take ld))).setOp (.cvt { v with lanes := v.lanes.drop ld }))) ∧
      (ls ≤ ld → c.headKind 0 = some .stop ∨ c.headKind 0 = some .mode → Fires (.veCvtEmit r site) s c
        ((c.emit 0 (cvtBeat c v v.lanes)).setOp (.cvt { lanes := [], poison := false, recd := none }))))) ∧
  (∀ (s : State) (r site : Nat) (c : Ctx) (v : TaccState) (t : Token), Stands s r site .ve 0x30 c → c.st.op = .tacc v →
    (c.dataAt 0 = some t → v.closing = false → ∃ u : TaccState, Fires (.veTacc r site) s c ((c.take 0).setOp (.tacc u)) ∧
      u.poison = (v.poison || t.poison) ∧ u.recd = keepRec v.recd t ∧ u.closing = false ∧
      (inI (c.inTy 0) = true → u.ev = v.ev ∧
        ∀ k, k < laneCount (c.inTy 0) → u.acc.getD k 0#64 = v.acc.getD k 0#64 + BitVec.ofInt 64 (laneInt (c.inTy 0) [t] 0 k)) ∧
      (inI (c.inTy 0) = false →
        let x (k : Nat) : Val := laneValue (c.inTy 0) c.fzi (laneAt t.payload (laneWidth (c.inTy 0)) k)
        let y (k : Nat) : Val × Ev := add32 (laneValue tyFp32 false (v.acc.getD k 0#64).toNat) (x k)
        (∀ k, k < laneCount (c.inTy 0) → u.acc.getD k 0#64 = BitVec.ofNat 64 (fp32Bits (y k).1)) ∧
        (u.ev.overflow = true ↔ v.ev.overflow = true ∨ ∃ k, k < laneCount (c.inTy 0) ∧ (y k).2.overflow = true) ∧
        (u.ev.invalid = true ↔ v.ev.invalid = true ∨ ∃ k, k < laneCount (c.inTy 0) ∧ (y k).2.invalid = true))) ∧
    (c.head 0 = some t → t.kind = .stop → v.closing = false → c.room 0 = true → Fires (.veTaccClose r site) s c
      (((c.setLfsr (taccResult c v).2).emit 0 (taccResult c v).1).setOp (.tacc { v with closing := true }))) ∧
    (c.head 0 = some t → t.kind = .stop → v.closing = true → c.roomAll = true → Completes (.veTaccClose r site) s fun t' =>
      Moved s t' c (((c.take 0).emitAll (stopTok t.depth)).setOp
        (.tacc { acc := [], ev := Ev.none, poison := false, recd := none, closing := false })))) ∧
  (∀ (s : State) (r site : Nat) (c : Ctx) (v : MxpackState) (t : Token), Stands s r site .ve 0x31 c → c.st.op = .mxpack v →
    let vals := v.vals ++ fp32Lanes c t
    (c.dataAt 0 = some t → v.emit = [] →
      (vals.length < 2048 → Fires (.veMxpack r site) s c ((c.take 0).setOp (.mxpack { v with
        vals := vals, poison := v.poison || t.poison, recd := keepRec v.recd t }))) ∧
      (2048 ≤ vals.length →
        let o := mxpackBeats (c.take 0) vals
        Fires (.veMxpack r site) s c (((c.take 0).setLfsr o.2.2).setOp (.mxpack { v with
          vals := [], poison := v.poison || t.poison, recd := keepRec v.recd t, emit := o.1,
          emitPoison := v.poison || t.poison || pvSelects c.recd.pv o.2.1 })))) ∧
    (v.emit = [] → v.vals ≠ [] → c.headKind 0 = some .stop ∨ c.headKind 0 = some .mode →
      let o := mxpackBeats c v.vals
      ∀ b rest, o.1 = b :: rest → rest ≠ [] → (c.setLfsr o.2.2).room 0 = true →
        Fires (.veMxpackEmit r site) s c (((c.setLfsr o.2.2).emit 0 (poisonTok (v.poison || pvSelects c.recd.pv o.2.1) v.recd b)).setOp
          (.mxpack { v with vals := [], emit := rest, emitPoison := v.poison || pvSelects c.recd.pv o.2.1 }))) ∧
    ∀ b rest, v.emit = b :: rest → c.room 0 = true → Fires (.veMxpackEmit r site) s c
      ((c.emit 0 (poisonTok v.emitPoison v.recd b)).setOp (.mxpack (if rest.isEmpty then
        { vals := [], poison := false, recd := none, emit := [], emitPoison := false } else { v with emit := rest })))) ∧
  ∀ (s : State) (r site : Nat) (c : Ctx) (v : MxunpackState) (t : Token), Stands s r site .ve 0x32 c → c.st.op = .mxunpack v →
    let n := unpackCount c
    (c.dataAt 0 = some t → v.held = none → v.scale = none → Fires (.veMxunpack r site) s c
      ((c.take 0).setOp (.mxunpack { scale := some t, beats := 0, held := none, sent := 0 }))) ∧
    (∀ sc, c.dataAt 0 = some t → v.held = none → v.scale = some sc → c.room 0 = true → (c.take 0).room 0 = true → 1 < n →
      let o := unpackBeat (c.take 0) sc t v.beats 0
      Fires (.veMxunpack r site) s c ((((c.take 0).setLfsr o.2).emit 0 o.1).setOp
        (.mxunpack { v with beats := v.beats + 1, held := some t, sent := 1 }))) ∧
    ∀ sc e, v.held = some e → v.scale = some sc → c.room 0 = true →
      let o := unpackBeat c sc e (v.beats - 1) v.sent
      (v.sent + 1 < n → Fires (.veMxunpackEmit r site) s c (((c.setLfsr o.2).emit 0 o.1).setOp
        (.mxunpack { v with sent := v.sent + 1 }))) ∧
      (n ≤ v.sent + 1 → v.beats < groupBeats (c.inTy 0) → Fires (.veMxunpackEmit r site) s c
        (((c.setLfsr o.2).emit 0 o.1).setOp (.mxunpack { v with held := none, sent := 0 })))

/-- R232 to R237, R259, R260: the operators that choose: SELECT and AMASK lane by lane, STEER and MERGE by the truth at C,
CARRY and INV by their phase, FORK, SINK, and CONST as a source and with a trigger. A NaN lane becomes canonical (R37; log
entry 21). -/
def Obligations.VectorChoices : Prop :=
  (∀ (s : State) (r site : Nat) (c : Ctx) (x a b : Token), LanesReady s r site 0x0C c [x, a, b] →
    let n := laneCount (c.outTy 0)
    ∃ p : Beat, (∀ k, k < n → laneAt p (laneWidth (c.outTy 0)) k = canonLane (c.outTy 0)
        (laneAt (if x.payload.getLsbD k then a else b).payload (laneWidth (c.outTy 0)) k)) ∧
      Emits (.veSelect r site) s c (resultTok ([x] ++ (if ∃ k, k < n ∧ x.payload.getLsbD k = true then [a] else []) ++
        (if ∃ k, k < n ∧ x.payload.getLsbD k = false then [b] else [])) false p) c.lfsr) ∧
  (∀ (s : State) (r site : Nat) (c : Ctx) (d m : Token), LanesReady s r site 0x33 c [d, m] →
    let n := laneCount (c.outTy 0)
    ∃ p : Beat, (∀ k, k < n → laneAt p (laneWidth (c.outTy 0)) k =
        if m.payload.getLsbD k then canonLane (c.outTy 0) (laneAt d.payload (laneWidth (c.outTy 0)) k)
        else (fmtOf (c.outTy 0)).infPattern true % 2 ^ laneWidth (c.outTy 0)) ∧
      Emits (.veAmask r site) s c
        (resultTok ([m] ++ (if ∃ k, k < n ∧ m.payload.getLsbD k = true then [d] else [])) false p) c.lfsr) ∧
  (∀ (s : State) (r site : Nat) (c : Ctx), Stands s r site .ve 0x3E c →
    (c.recd.inMask = 0 → c.st.op = .const 0 → c.room 0 = true →
      Fires (.veConst r site) s c ((c.emit 0 (dataTok (constBeat c))).setOp (.const 1))) ∧
    (c.recd.inMask = 0 → c.st.op = .const 1 → c.roomAll = true →
      Fires (.veConst r site) s c
        (let d := (c.emitAll (stopTok 0)).setOp (.const 2); { d with st := { d.st with srcEnd := true } })) ∧
    (∀ t, c.recd.inMask ≠ 0 → c.dataAt 0 = some t → c.room 0 = true →
      Fires (.veConst r site) s c ((c.take 0).emit 0 (dataTok (constBeat c))))) ∧
  (∀ (s : State) (r site : Nat) (c : Ctx) (d x : Token), Stands s r site .ve 0x38 c → c.dataAt 0 = some d → c.dataAt 1 = some x →
    let took := c.takeAll [0, 1]
    let p := if x.truth then 0 else 1
    (x.poison = false → c.room p = true → Fires (.veSteer r site) s c (took.emit p d)) ∧
    (x.poison = true → c.room 0 = true → c.room 1 = true →
      Fires (.veSteer r site) s c ((took.emit 0 (poisonedBy x d)).emit 1 (poisonedBy x d)))) ∧
  (∀ (s : State) (r site : Nat) (c : Ctx) (x : Token), Stands s r site .ve 0x39 c → c.dataAt 0 = some x → c.room 0 = true →
    let q := if x.truth then 1 else 2
    (∀ a, x.poison = false → c.dataAt q = some a → Fires (.veMerge r site) s c ((c.takeAll [0, q]).emit 0 a)) ∧
    (∀ a b, x.poison = true → c.dataAt 1 = some a → c.dataAt 2 = some b → Fires (.veMerge r site) s c
      ((c.takeAll [0, 1, 2]).emit 0 (resultTok [x, a, b] true (if x.truth then a else b).payload)))) ∧
  (∀ (s : State) (r site : Nat) (c : Ctx) (t : Token), Stands s r site .ve 0x3A c →
    (c.st.op = .carry false → c.dataAt 0 = some t → c.room 0 = true →
      Fires (.veCarry r site) s c (((c.take 0).emit 0 t).setOp (.carry true))) ∧
    (∀ v, c.st.op = .carry true → c.dataAt 2 = some t → t.poison = false → t.truth = true → c.dataAt 1 = some v →
      c.room 0 = true → Fires (.veCarry r site) s c ((c.takeAll [1, 2]).emit 0 v)) ∧
    (c.st.op = .carry true → c.dataAt 2 = some t → t.poison = true ∨ t.truth = false →
      Fires (.veCarry r site) s c ((c.take 2).setOp (.carry false)))) ∧
  (∀ (s : State) (r site : Nat) (c : Ctx) (v x : Token), Stands s r site .ve 0x3B c → c.dataAt 1 = some x → c.room 0 = true →
    let ends (took : Ctx) : Prop :=
      (x.poison = true → Fires (.veInv r site) s c ((took.emit 0 (poisonedBy x v)).setOp (.inv none))) ∧
      (x.poison = false → x.truth = true → Fires (.veInv r site) s c ((took.emit 0 v).setOp (.inv (some v)))) ∧
      (x.poison = false → x.truth = false → Fires (.veInv r site) s c (took.setOp (.inv none)))
    (c.st.op = .inv none → c.dataAt 0 = some v → ends (c.takeAll [0, 1])) ∧ (c.st.op = .inv (some v) → ends (c.take 1))) ∧
  (∀ (s : State) (r site : Nat) (c : Ctx) (t : Token), Stands s r site .ve 0x3C c → c.dataAt 0 = some t → c.room 0 = true →
    c.room 1 = true → Fires (.veFork r site) s c (((c.take 0).emit 0 t).emit 1 t)) ∧
  ∀ (s : State) (r site : Nat) (c : Ctx) (t : Token), Stands s r site .ve 0x3D c → c.dataAt 0 = some t →
    Fires (.veSink r site) s c (c.take 0)

namespace Sys2Proof.Claims

/-! ## The stream sequencer -/

/-- A run that a token starts (R266, R267). -/
def newRun (start stop : Int) (t : Token) (single : Bool) : LoopRun :=
  { start := start, stop := stop, j := 0, poison := t.poison, err := t.err, recd := t.record, single := single }

/-- What a firing of an open run does (R266): below its end it emits the next index in lane 0 and its number in lane 1, with
the poison and record of the run; at its end it emits STOP(0) and the run is closed. -/
def RunGoesOn (i : Instr) (s : State) (c : Ctx) (q : LoopRun) (step : Int) : Prop :=
  let v : Int := q.start + q.j * step
  (((0 < step → v < q.stop) ∧ (step < 0 → q.stop < v)) → c.room 0 = true → Fires i s c
    ((c.emit 0 (poisonTok q.poison (if q.err then some q.recd else none)
      (BitVec.ofNat 512 ((v % 2 ^ 32).toNat + 2 ^ 32 * (q.j % 2 ^ 32))))).setOp (.loop (some { q with j := q.j + 1 }) true))) ∧
  ((0 < step ∧ q.stop ≤ v ∨ step < 0 ∧ v ≤ q.stop) → c.roomAll = true → Fires i s c
    (let d := (c.emitAll (stopTok 0)).setOp (.loop none true); { d with st := { d.st with srcEnd := c.recd.inMask == 0 } }))

/-- A controller of permit depth `D` (R269). -/
def Controls (i : Nat → Nat → Instr) (opc : Nat) (D : Ctx → Nat) : Prop :=
  ∀ (s : State) (r site : Nat) (c : Ctx) (out : W32) (drain : Bool) (t : Token), Stands s r site .sq opc c →
    c.st.op = .ctl out drain →
    (c.dataAt 1 = some t → out ≠ 0#32 → c.room 1 = true →
      Fires (i r site) s c (((c.take 1).emit 1 t).setOp (.ctl (out - 1#32) drain))) ∧
    (c.dataAt 1 = some t → out = 0#32 → c.room 1 = true → Fires (i r site) s c (c.drop 1)) ∧
    (c.dataAt 1 = none → drain = false → c.dataAt 0 = some t → out.toNat < D c → c.room 0 = true →
      Fires (i r site) s c (((c.take 0).emit 0 t).setOp (.ctl (out + 1#32) false))) ∧
    (c.dataAt 1 = none → drain = false → c.head 0 = some t → t.kind = .stop → c.roomCtl 0 = true →
      Fires (i r site) s c (((c.take 0).emit 0 t).setOp (.ctl out true))) ∧
    (c.head 1 = some t → t.kind = .stop → drain = false → c.headKind 0 ≠ some .stop → (c.dataAt 0 = none ∨ D c ≤ out.toNat) →
      Fires (i r site) s c (c.drop 1)) ∧
    (c.head 1 = some t → t.kind = .stop → drain = true → c.roomCtl 1 = true → Fires (i r site) s c
      ((((c.take 1).discard (if out = 0#32 then 0 else 1)).emit 1 t).setOp (.ctl 0#32 false)))

end Sys2Proof.Claims

/-- R266, R267: LOOPA and LOOPT: a run begins at adoption, at a trigger or at a bound token; while it is open it emits its
indices and then STOP(0), every value exact; a poisoned bound gives one token of zeros and STOP(0). -/
def Sys2Proof.Claims.LoopGenerators : Prop :=
  (∀ (s : State) (r site : Nat) (c : Ctx), Stands s r site .sq 0x01 c →
    let e (n : Nat) : Int := signedOf 32 (c.recd.e n)
    (∀ q b, c.st.op = .loop (some q) b → q.single = false → RunGoesOn (.sqLoopa r site) s c q (e 2)) ∧
    (c.recd.inMask = 0 → c.st.op = .loop none false → RunGoesOn (.sqLoopa r site) s c
      { start := e 0, stop := e 1, j := 0, poison := false, err := false, recd := 0#32, single := false } (e 2)) ∧
    ∀ t b, c.recd.inMask ≠ 0 → c.st.op = .loop none b → c.dataAt 0 = some t → Fires (.sqLoopa r site) s c
      ((c.take 0).setOp (.loop (some (newRun (e 0) (e 1) t false)) true))) ∧
  ∀ (s : State) (r site : Nat) (c : Ctx), Stands s r site .sq 0x02 c →
    (∀ q b, c.st.op = .loop (some q) b → q.single = false → RunGoesOn (.sqLoopt r site) s c q (signedOf 32 (c.recd.e 0))) ∧
    (∀ q b, c.st.op = .loop (some q) b → q.single = true →
      (q.j = 0 → c.room 0 = true → Fires (.sqLoopt r site) s c
        ((c.emit 0 (poisonTok q.poison (if q.err then some q.recd else none) 0)).setOp
          (.loop (some { q with j := 1 }) true))) ∧
      (1 ≤ q.j → c.roomAll = true → Fires (.sqLoopt r site) s c
        (let d := (c.emitAll (stopTok 0)).setOp (.loop none true)
         { d with st := { d.st with srcEnd := c.recd.inMask == 0 } }))) ∧
    ∀ t b, c.st.op = .loop none b → c.dataAt 0 = some t → Fires (.sqLoopt r site) s c
      ((c.take 0).setOp (.loop (some
        (newRun (signedOf 32 t.payload.toNat) (signedOf 32 (t.payload.toNat / 2 ^ 32)) t t.poison)) true))

/-- R268: MXCMD gives a command token for each trigger: the template, or for an i32 trigger the template with its lanes 0, 1
and 2 as M, N and K; a lane out of range is written as zero and poisons the command. -/
def Sys2Proof.Claims.MatrixCommands : Prop :=
  ∀ (s : State) (r site : Nat) (c : Ctx) (t : Token), Stands s r site .sq 0x03 c → c.dataAt 0 = some t → c.room 0 = true →
    let w := c.recd.e 0
    let lane (n : Nat) : Int := signedOf 32 (t.payload.toNat / 2 ^ (32 * n))
    let fits (n limit : Nat) : Bool := decide (0 ≤ lane n ∧ lane n ≤ limit)
    let field (n limit : Nat) : Nat := if fits n limit then (lane n).toNat else 0
    (c.inTy 0 ≠ 14 → Fires (.sqMxcmd r site) s c ((c.take 0).emit 0 (resultTok [t] false (BitVec.ofNat 512 w)))) ∧
    (c.inTy 0 = 14 → Fires (.sqMxcmd r site) s c ((c.take 0).emit 0
      (resultTok [t] (!(fits 0 32 && fits 1 32 && fits 2 255))
        (BitVec.ofNat 512 (w % 8 + 8 * field 0 32 + 512 * field 1 32 + 32768 * field 2 255 + w / 2 ^ 23 * 2 ^ 23)))))

/-- The sequence elements that generate loops and matrix commands. -/
def Obligations.SequenceGenerators : Prop :=
  Claims.LoopGenerators ∧ Claims.MatrixCommands

/-- R269: the controllers SEQ, PIPE and STREAM: a done passes up and frees a permit, a go becomes a permit while fewer than
the depth are out, STOP drains, and the STOP at port 1 ends the drain. Of the firings whose heads stand, the first in the
rule's order is the one that happens (log entry 24). -/
def Sys2Proof.Claims.Controllers : Prop :=
  Controls .sqSeq 0x08 (fun _ => 1) ∧ Controls .sqPipe 0x09 (fun c => c.recd.e 0 % 256) ∧
  Controls .sqStream 0x0A (fun _ => 0xFFFFFFFF)

/-- R270 to R273: PERMIT emits its permits and then STOP(0); DONE counts tokens and ends of runs and gives its done token;
COUNT numbers tokens and wraps at its limit; EXIT sends its exit token at the first STOP and discards what follows. -/
def Sys2Proof.Claims.PermitsAndCounts : Prop :=
  (∀ (s : State) (r site k : Nat) (c : Ctx), Stands s r site .sq 0x10 c → c.st.op = .permit k false →
    (k < c.recd.e 0 % 256 → c.room 0 = true → Fires (.sqPermit r site) s c
      ((c.emit 0 (dataTok (BitVec.ofNat 512 k))).setOp (.permit (k + 1) false))) ∧
    (c.recd.e 0 % 256 ≤ k → c.roomAll = true → Fires (.sqPermit r site) s c
      (let d := (c.emitAll (stopTok 0)).setOp (.permit k true); { d with st := { d.st with srcEnd := true } }))) ∧
  (∀ (s : State) (r site : Nat) (c : Ctx) (v : DoneState), Stands s r site .sq 0x11 c → c.st.op = .done v →
    let tok (v : DoneState) : Token :=
      poisonTok v.poison v.recd (BitVec.ofNat 512 (v.collected.toNat + 2 ^ 32 * v.count.toNat))
    let zero : DoneState := { collected := 0#32, count := 0#32, poison := false, recd := none }
    let up : DoneState := { v with collected := v.collected + 1#32 }
    let tops : Prop := ∀ q ∈ c.ports, ∃ t, c.head q = some t ∧ t.kind = .stop
    (∀ q t, q ∈ c.ports → (∀ p, p ∈ c.ports → p < q → c.dataAt p = none) → c.dataAt q = some t →
      Fires (.sqDone r site) s c ((c.take q).setOp
        (.done { v with count := v.count + 1#32, poison := v.poison || t.poison, recd := keepRec v.recd t }))) ∧
    (tops → (∀ q ∈ c.ports, ∀ t, c.head q = some t → t.depth = 0) → c.room 0 = true →
      (up.collected.toNat = c.recd.e 0 % 65536 →
        Fires (.sqDone r site) s c (((c.takeAll c.ports).emit 0 (tok up)).setOp (.done zero))) ∧
      (up.collected.toNat ≠ c.recd.e 0 % 65536 → Fires (.sqDone r site) s c ((c.takeAll c.ports).setOp (.done up)))) ∧
    (tops → (∃ q ∈ c.ports, ∃ t, c.head q = some t ∧ t.depth ≠ 0) → v.collected ≠ 0#32 → c.room 0 = true →
      Fires (.sqDone r site) s c ((c.emit 0 (tok v)).setOp (.done zero)))) ∧
  (∀ (s : State) (r site : Nat) (c : Ctx) (n : W32) (t : Token), Stands s r site .sq 0x12 c → c.st.op = .count n →
    c.dataAt 0 = some t → c.room 0 = true →
    let d := (c.take 0).emit 0 (poisonTok t.poison (if t.err then some t.record else none) (n.setWidth 512))
    (c.recd.e 0 = 0 ∨ (n + 1#32).toNat ≠ c.recd.e 0 → Fires (.sqCount r site) s c (d.setOp (.count (n + 1#32)))) ∧
    (c.recd.e 0 ≠ 0 → (n + 1#32).toNat = c.recd.e 0 → c.room 1 = true → Fires (.sqCount r site) s c
      ((d.emit 1 (poisonTok t.poison (if t.err then some t.record else none) (BitVec.ofNat 512 (c.recd.e 0)))).setOp
        (.count 0#32)))) ∧
  ∀ (s : State) (r site : Nat) (c : Ctx), Stands s r site .sq 0x13 c →
    (c.st.op = .exit false → c.headKind 0 = some .data → Fires (.sqExit r site) s c (c.take 0)) ∧
    (c.st.op = .exit false → c.headKind 0 = some .stop → c.room 0 = true → Fires (.sqExit r site) s c
      (((c.take 0).emit 0 (dataTok (BitVec.ofNat 512 (c.recd.e 0 % 8 + 65536 * c.cfgid)))).setOp (.exit true))) ∧
    (c.st.op = .exit true → c.headKind 0 = some .data ∨ c.headKind 0 = some .stop → Fires (.sqExit r site) s c (c.drop 0))

/-- The sequence elements that control streams. The order in which their firings are tried is log entry 24. -/
def Obligations.SequenceControllers : Prop :=
  Claims.Controllers ∧ Claims.PermitsAndCounts

namespace Sys2Proof.Claims

/-! ## The matrix element -/

/-- The matrix element at a site can act, with progress `m` (R274). -/
def MxStands (s : State) (r site : Nat) (c : Ctx) (m : MxState) : Prop :=
  ctxOf s r site = some c ∧ c.recd.kind = .mx ∧ c.st.op = .mx m

/-- A well-formed command of the record heads port 0, and no command is open (R277, R278). -/
def MxAsked (s : State) (r site : Nat) (c : Ctx) (m : MxState) (t : Token) (op : Nat) : Prop :=
  MxStands s r site c m ∧ m.cmd = none ∧ m.boundary = none ∧ c.dataAt 0 = some t ∧ commandOk c t = true ∧
  t.payload.toNat % 8 = op

/-- The command's word, and the command as it is opened (R279). -/
def mxOpened (t : Token) : MxCmd :=
  { word := t.payload.setWidth 32, steps := 0, bBeats := 0, drained := 0, loaded := 0, cut := false }

/-- A command of steps is opened (R279): without ACC the active register is zeroed first; the command's own poison falls on
it. -/
def MxOpens (i : Nat → Nat → Instr) (op : Nat) : Prop :=
  ∀ (s : State) (r site : Nat) (c : Ctx) (m : MxState) (t : Token), MxAsked s r site c m t op →
    let f := mxFields (t.payload.setWidth 32)
    0 < f.m → 0 < f.n → 0 < f.k → Fires (i r site) s c (((c.take 0).setRegs
      ((if f.acc then c.regs else c.regs.clear c.regs.act).taint t)).setOp (.mx { m with cmd := some (mxOpened t) }))

/-- The command after a step of one B beat (R279, R280): it is over after its last step when nothing is to be drained. -/
def mxStepped (k : MxCmd) : Option MxCmd :=
  if (mxFields k.word).k ≤ k.steps + 1 ∧ (mxFields k.word).dr = false then none
  else some { k with steps := k.steps + 1, bBeats := k.bBeats + 1 }

/-- Element (i, j) of a tile register. -/
def tileAt (g : MxRegs) (one : Bool) (i j : Nat) : W32 := (g.tile one).toArray.getD (32 * i + j) 0#32

/-- A step of a command is due: its operands are not cut short, no boundary waits, and steps are left (R279). -/
def MxDue (s : State) (r site : Nat) (c : Ctx) (m : MxState) (k : MxCmd) (op : Nat) : Prop :=
  MxStands s r site c m ∧ m.cmd = some k ∧ m.boundary = none ∧ k.cut = false ∧ (mxFields k.word).op = op ∧
  k.steps < (mxFields k.word).k

/-- The active register after a step: one step more is counted, the other register is as before, and element (i, j) below M
and N is what `f` makes of it. -/
def TileStep (g g' : MxRegs) (f : MxFields) (e : Nat → Nat → W32 → W32) : Prop :=
  g'.steps = g.steps + 1#64 ∧ g'.act = g.act ∧ g'.tile (!g.act) = g.tile (!g.act) ∧
  ∀ i j, i < 32 → j < 32 → tileAt g' g.act i j = if i < f.m ∧ j < f.n then e i j (tileAt g g.act i j) else tileAt g g.act i j

/-- The value of lane `n` of an operand beat at a port, times its scale where the type has one (R38, R39, R40). -/
def operandAtLane (c : Ctx) (q : Nat) (fr : MxFrame) (t : Token) (n : Nat) : Val :=
  operandVal (c.inTy q) (operandLane c q fr t n)

end Sys2Proof.Claims

/-- R278, R279, R285: what each matrix command does when it is consumed: MMA, MMT and MRES open a command of steps, DRAIN and
LDACC one of beats; TXCH exchanges the registers and ZERO clears the active one at once; a command with an error record, or
a malformed one, poisons the active register and is discarded. -/
def Sys2Proof.Claims.MatrixElementCommands : Prop :=
  MxOpens .mxMma 1 ∧ MxOpens .mxMmt 2 ∧ MxOpens .mxMres 3 ∧
  (∀ (s : State) (r site : Nat) (c : Ctx) (m : MxState) (t : Token),
    let g := c.regs
    let took (g : MxRegs) : Ctx := (c.take 0).setRegs g
    (MxAsked s r site c m t 4 → Fires (.mxTxch r site) s c (took (({ g with act := !g.act }).taint t))) ∧
    (MxAsked s r site c m t 5 → Fires (.mxDrain r site) s c ((took (g.taint t)).setOp (.mx { m with cmd := some (mxOpened t) }))) ∧
    (MxAsked s r site c m t 6 → Fires (.mxLdacc r site) s c ((took (g.taint t)).setOp
      (.mx { m with cmd := some (mxOpened t), ldPoison := false, ldRec := none }))) ∧
    (MxAsked s r site c m t 7 → ∃ g', Fires (.mxZero r site) s c (took g') ∧ g'.act = g.act ∧
      (∀ i j, i < 32 → j < 32 → tileAt g' g.act i j = 0#32) ∧ g'.tile (!g.act) = g.tile (!g.act) ∧
      (g'.flag g.act).1 = t.poison) ∧
    (MxStands s r site c m → m.cmd = none → m.boundary = none → c.dataAt 0 = some t → commandOk c t = false →
      (t.err = true → Fires (.mxErrorCommand r site) s c (took (g.poison (some t.record)))) ∧
      (t.err = false → Fires (.mxErrorCommand r site) s c ((took (g.poison none)).discard 1))))

/-- R56, R57, R280 to R285, R287: a step of an MMA adds the products of its K offsets to every element of the active register
below M and N, in integers or in FP32 with one rounding, with the B operand of its beat or of the window; a structured term
takes its B beats once its A beat and its index beat stand at their ports, and its step adds the products of its valid slots;
a step of a residual the entries of its beat, one after another; a beat of
LDACC loads sixteen elements of the other register; a drain emits its beats and
then STOP(0); a STOP at the commands is a boundary for every port and passes one deeper. -/
def Sys2Proof.Claims.MatrixElementSteps : Prop :=
  (∀ (s : State) (r site : Nat) (c : Ctx) (m : MxState) (k : MxCmd) (a b : Token), MxStands s r site c m → m.cmd = some k →
    m.boundary = none → m.aFrame.scale = none → m.bFrame.scale = none → c.recd.consumes 1 = true →
    c.inTy 1 ∈ [15, 16, 18] → c.inTy 2 ∈ [15, 16, 18] → laneCount (c.inTy 1) = laneCount (c.inTy 2) →
    c.dataAt 1 = some a → c.dataAt 2 = some b →
    let f := mxFields k.word
    let g := c.regs
    let kb := laneCount (c.inTy 1) / 32
    f.op = 1 → f.bk = false → k.cut = false → k.steps < f.k → k.bBeats = k.steps →
    ∃ g' : MxRegs, Fires (.mxStep r site) s c (((c.takeAll [1, 2]).setRegs g').setOp (.mx { m with cmd := mxStepped k })) ∧
      g'.steps = g.steps + 1#64 ∧ g'.act = g.act ∧ g'.tile (!g.act) = g.tile (!g.act) ∧
      ∀ i j, i < 32 → j < 32 → tileAt g' g.act i j =
        if i < f.m ∧ j < f.n then tileAt g g.act i j + BitVec.ofInt 32 (((List.range kb).map (fun t =>
          laneInt (c.inTy 1) [a] 0 (32 * t + i) * laneInt (c.inTy 2) [b] 0 (32 * t + j))).sum)
        else tileAt g g.act i j) ∧
  (∀ (s : State) (r site : Nat) (c : Ctx) (m : MxState) (k : MxCmd) (a : Token), MxDue s r site c m k 1 →
    scaleDue c 1 m.aFrame = false → c.dataAt 1 = some a →
    let f := mxFields k.word
    let g := c.regs
    let kb := laneCount (c.inTy 1) / 32
    let k1 := { k with steps := k.steps + 1 }
    let av (i t : Nat) : Val := operandAtLane c 1 m.aFrame a (32 * t + i)
    (f.bk = true → ∃ g' : MxRegs, Fires (.mxStep r site) s c
        (((c.take 1).setRegs g').progress { m with aFrame := m.aFrame.next (c.inTy 1) } k1) ∧
      TileStep g g' f (fun i j acc => accumulate (mxInteger c) acc
        ((List.range kb).map (fun t => (av i t).mul (g.windowVal (k.steps * kb + t) j))))) ∧
    (∀ b, f.bk = false → scaleDue c 2 m.bFrame = false → c.dataAt 2 = some b → c.inTy 2 < 32 → k.bBeats = k.steps →
      ∃ g' : MxRegs, Fires (.mxStep r site) s c (((c.takeAll [1, 2]).setRegs g').progress
          { m with aFrame := m.aFrame.next (c.inTy 1), bFrame := m.bFrame.next (c.inTy 2) } { k1 with bBeats := k.bBeats + 1 }) ∧
        TileStep g g' f (fun i j acc => accumulate (mxInteger c) acc
          ((List.range kb).map (fun t => (av i t).mul (operandAtLane c 2 m.bFrame b (32 * t + j))))))) ∧
  (∀ (s : State) (r site : Nat) (c : Ctx) (m : MxState) (k : MxCmd) (a x : Token), MxDue s r site c m k 2 →
    c.dataAt 1 = some a → c.dataAt 3 = some x →
    let f := mxFields k.word
    let g := c.regs
    let kb := laneCount (c.inTy 1) / 32
    let e (i t : Nat) : Nat := laneAt x.payload 4 (32 * t + i)
    f.bk = true ∨ termBeats c k.steps ≤ k.bBeats →
    ∃ g' : MxRegs, Fires (.mxStep r site) s c
        (((c.takeAll [1, 3]).setRegs g').progress m { k with steps := k.steps + 1 }) ∧
      TileStep g g' f (fun i j acc => accumulate (mxInteger c) acc
        (((List.range kb).filter (fun t => decide (8 ≤ e i t ∧ e i t % 8 < (termShape c).2))).map (fun t =>
          (operandAtLane c 1 { scale := none, beats := 0 } a (32 * t + i)).mul
            (g.windowVal ((k.steps * kb + t) / (termShape c).1 * (termShape c).2 + e i t % 8) j)))) ∧
      ((g'.flag g.act).1 = true ↔ (g.flag g.act).1 = true ∨ a.poison = true ∨ x.poison = true ∨
        ∃ i t, i < f.m ∧ t < kb ∧ 8 ≤ e i t ∧ (termShape c).2 ≤ e i t % 8)) ∧
  (∀ (s : State) (r site : Nat) (c : Ctx) (m : MxState) (k : MxCmd) (a x b : Token), MxDue s r site c m k 2 →
    scaleDue c 2 m.bFrame = false → c.dataAt 1 = some a → c.dataAt 3 = some x → c.dataAt 2 = some b → c.inTy 2 < 32 →
    (mxFields k.word).bk = false → k.bBeats < termBeats c k.steps →
    let g := c.regs
    ∃ g' : MxRegs, Fires (.mxStep r site) s c (((c.take 2).setRegs g').progress { m with bFrame := m.bFrame.next (c.inTy 2) }
        { k with bBeats := k.bBeats + 1 }) ∧
      g'.act = g.act ∧ g'.steps = g.steps ∧ (∀ one, g'.tile one = g.tile one) ∧
      ((g'.flag g.act).1 = true ↔ (g.flag g.act).1 = true ∨ b.poison = true)) ∧
  (∀ (s : State) (r site : Nat) (c : Ctx) (m : MxState) (k : MxCmd) (x : Token), MxDue s r site c m k 3 →
    c.dataAt 3 = some x →
    let f := mxFields k.word
    let g := c.regs
    let e (l : Nat) : Nat := laneAt x.payload 64 l
    let v (l : Nat) : Val := if mxInteger c then Val.ofInt (signedOf 32 (e l)) else laneValue 1 false (e l % 2 ^ 32)
    ∃ g' : MxRegs, Fires (.mxStep r site) s c (((c.take 3).setRegs g').progress m { k with steps := k.steps + 1 }) ∧
      TileStep g g' f (fun i j acc => (List.range 8).foldl (fun acc l =>
        if bits (e l) 63 63 = 1 ∧ bits (e l) 62 43 = 0 ∧ bits (e l) 42 38 = i then
          accumulate (mxInteger c) acc [(v l).mul (g.windowVal (bits (e l) 37 32) j)]
        else acc) acc) ∧
      ((g'.flag g.act).1 = true ↔ (g.flag g.act).1 = true ∨ x.poison = true ∨ ∃ l, l < 8 ∧ bits (e l) 62 43 ≠ 0)) ∧
  (∀ (s : State) (r site : Nat) (c : Ctx) (m : MxState) (k : MxCmd) (x : Token), MxStands s r site c m → m.cmd = some k →
    (mxFields k.word).op = 6 → c.dataAt 3 = some x → x.poison = false → k.loaded + 1 < 64 →
    let g := c.regs
    ∃ g' : MxRegs, Fires (.mxLdaccBeat r site) s c (((c.take 3).setRegs g').setOp
        (.mx { m with cmd := some { k with loaded := k.loaded + 1 } })) ∧ g'.tile g.act = g.tile g.act ∧ g'.act = g.act ∧
      ∀ e, e < 1024 → (g'.tile (!g.act)).toArray.getD e 0#32 =
        if 16 * k.loaded ≤ e ∧ e < 16 * k.loaded + 16 then x.payload.extractLsb' (32 * (e - 16 * k.loaded)) 32
        else (g.tile (!g.act)).toArray.getD e 0#32) ∧
  (∀ (s : State) (r site : Nat) (c : Ctx) (m : MxState) (k : MxCmd), MxStands s r site c m → m.cmd = some k →
    let f := mxFields k.word
    let g := c.regs
    f.op ≠ 6 → f.op = 5 ∨ k.cut = true ∨ f.k ≤ k.steps →
    (k.drained < drainBeats c → c.room 0 = true →
      let o := drainBeat c f k.drained
      let dst := c.outTy 0
      let rm := rmOf c.st.mode (if f.ro = 0 then c.recd.ro else f.ro)
      let x (n : Nat) : W32 := (g.tile g.act).toArray.getD (k.drained * laneCount dst + n) 0#32
      Fires (.mxDrainBeat r site) s c
        (((c.setLfsr o.2).emit 0 o.1).setOp (.mx { m with cmd := some { k with drained := k.drained + 1 } })) ∧
      (dst = 14 → mxInteger c = true → g.flag g.act = (false, none) → o.1.poison = false ∧ ∀ n, n < 16 →
        o.1.payload.extractLsb' (32 * n) 32 = x n) ∧
      ((g.flag g.act).1 = false → (g.flag g.act).2 = none → (f.pv ||| c.recd.pv) = 0 → o.1.poison = false) ∧
      ((g.flag g.act).1 = true → o.1.poison = true) ∧
      (rm ≠ 4 → (g.flag g.act).2 = none → o.2 = c.lfsr ∧ ∀ n, n < laneCount dst → laneAt o.1.payload (laneWidth dst) n =
        (if mxInteger c then
          (if dst = 14 then (x n).toNat
            else (convertLane 14 dst rm (f.sat || c.recd.sat) c.fzo c.lfsr (laneValue 14 c.fzi (x n).toNat)).bits)
        else if dst = 1 then (exactLane 1 false c.fzo c.lfsr (laneValue 1 false (x n).toNat)).bits
        else (convertLane 1 dst rm (f.sat || c.recd.sat) c.fzo c.lfsr (laneValue 1 c.fzi (x n).toNat)).bits) %
          2 ^ laneWidth dst)) ∧
    (drainBeats c ≤ k.drained → c.roomCtl 0 = true → Fires (.mxDrainBeat r site) s c
      ((c.emit 0 (stopTok 0)).setOp (.mx { m with cmd := none })))) ∧
  ∀ (s : State) (r site : Nat) (c : Ctx) (m : MxState), MxStands s r site c m →
    let others := c.ports.filter (fun q => q != 0)
    let frame : MxFrame := { scale := none, beats := 0 }
    (∀ t, m.boundary = none → m.cmd = none → c.head 0 = some t → t.kind = .stop →
      Completes (.mxStopBoundary r site) s fun u => Moved s u c ((c.take 0).setOp (.mx { m with boundary := some t.depth }))) ∧
    ∀ d, m.boundary = some d → (∀ q ∈ others, c.headKind q = some .stop) → c.roomCtl 0 = true →
      Completes (.mxStopBoundary r site) s fun u => Moved s u c (((c.takeAll others).emit 0 (stopTok (min (d + 1) 7))).setOp
        (.mx { m with boundary := none, aFrame := frame, bFrame := frame }))

/-- The matrix element: its commands, and their steps. -/
def Obligations.MatrixElements : Prop :=
  Claims.MatrixElementCommands ∧ Claims.MatrixElementSteps

namespace Sys2Proof.Claims

/-! ## Address generators -/

/-- A copy of an element with a memory side can act, runs operation `opc`, and neither replays nor holds a token (R408). -/
def CopyStands (s : State) (r site : Nat) (kind : EKind) (opc : Nat) (c : Ctx) (k : Nat) : Prop :=
  copyCtx s r site = some (c, k) ∧ c.recd.isOp kind opc = true ∧ (c.agent k).park = .running ∧ (c.agent k).heldTok = none

/-- The copy issues one access (R306): it passes translation or its bounds and goes to its port; no byte of memory changes, and
of the arcs of its region only what it consumes. -/
def Issues (i : Instr) (s : State) (c : Ctx) (k : Nat) (kind : AccKind) (n : Nat) (at' : Cluster → Space × Nat) (data : Beat)
    (arcs : Table Arc) : Prop :=
  ∀ kn cl s1 p sa, c.cluster s = some (kn, cl) →
    s.resolveIn cl c.r (at' cl).1 (at' cl).2 kind.acc = (s1, .ok p sa) →
    Completes i s fun t => t.mem = s.mem ∧ (t.region c.r).arcs = arcs ∧ (∀ q, q ≠ c.r → t.region q = s.region q) ∧
      ∃ x, t.ports.pend = s.ports.pend ++ [x] ∧ x.region = c.r ∧ x.site = c.copySite k ∧ x.id = (c.agent k).nextId ∧
        x.kind = kind ∧ x.space = (at' cl).1 ∧ x.addr = (at' cl).2 ∧ x.data = data ∧ x.asid = cl.asid ∧ x.cluster = kn ∧
        x.sa = sa ∧ x.place = some (c.placed p (kind == .store) n)

/-- The space and address of a run's point (R299, R300). -/
def pointOf (c : Ctx) (a : AgState) (cl : Cluster) : Space × Nat := c.reach cl (c.desc.point a.off a.j).toNat

/-- A point's access need not wait for its line region; the first that the run makes is tested (R291). -/
def Clear (s : State) (c : Ctx) (a : AgState) (store : Bool) (n : Nat) : Prop :=
  ∀ kn cl, c.cluster s = some (kn, cl) →
    c.tileWaits (pointOf c a cl).1 (pointOf c a cl).2 store (!a.touched) n = false

/-- A run of loads or of fills is open at a copy, past no last point, its pattern not empty. -/
def RunOpen (c : Ctx) (k : Nat) : Prop :=
  (c.ag k).isOpen = true ∧ (c.ag k).past = false ∧ (c.ag k).bad = none ∧ c.desc.isEmpty = false ∧ (k = 0 → c.canBegin = false)

/-- What a loading run does at its next point (R300, R306): it issues a load of the point's beat. -/
def Loading (i : Nat → Nat → Instr) (opc : Nat) : Prop :=
  ∀ (s : State) (r site k : Nat) (c : Ctx), CopyStands s r site .ag opc c k → RunOpen c k → (c.agent k).beats < 16 →
    let n := (s.pendingOf c.r (c.copySite k)).length
    Clear s c (c.ag k) false n →
    Issues (i r site) s c k .load n (pointOf c (c.ag k)) 0#512 c.x.arcs

/-- What FILL and PCLEAR do (R309): a run begins at a trigger, or once as a source, and its points are stored or cleared. -/
def Filling (i : Nat → Nat → Instr) (opc : Nat) (kind : AccKind) (data : Ctx → Beat) : Prop :=
  ∀ (s : State) (r site k : Nat) (c : Ctx), CopyStands s r site .ag opc c k →
    (∀ t, k = 0 → c.canBegin = true → c.desc.isEmpty = false → c.recd.inMask ≠ 0 → c.dataAt 0 = some t → t.poison = false →
      Fires (i r site) s c ((c.take 0).beginRun c.desc.start false none none)) ∧
    (k = 0 → c.canBegin = true → c.desc.isEmpty = false → c.recd.inMask = 0 → (c.ag 0).runs = 0 →
      Completes (i r site) s fun t => Moved s t c (c.beginRun c.desc.start false none none)) ∧
    (RunOpen c k → (c.agent k).outst.length < 16 → Clear s c (c.ag k) true (c.agent k).outst.length →
      Issues (i r site) s c k kind (c.agent k).outst.length (pointOf c (c.ag k)) (data c) c.x.arcs)

/-- The dropped magnitude of a row of a tile (R333). -/
def rowDropped (d : Decomposed) (i : Nat) : Nat := ((d.gone.filter (fun v => v.i == i)).map SparseVal.mag).sum

/-- `v` comes before `w` in its group: larger in magnitude, or as large with a lower K index (R333). -/
def Ahead (v w : SparseVal) : Prop := w.mag < v.mag ∨ (w.mag = v.mag ∧ v.k < w.k)

/-- What the decomposition of R333 gives of the nonzero values of a tile, the shape being n:m with T terms: each term holds
the next n values of each group, the largest first, in ascending K index; what no term holds is the residual list, in
ascending order; when it is longer than 64, values are dropped, the smallest first, each while its row's dropped magnitude
stays within the bound, and never a NaN; the tile is dense when more than 64 are left. -/
def Decomposes (n m T : Nat) (bound : Val) (vals : List SparseVal) (d : Decomposed) : Prop :=
  let term (r i g : Nat) : List SparseVal := termOf n m d.vals r i g
  let left (v : SparseVal) : Prop := v ∈ d.res ∨ v ∈ d.gone
  d.vals = vals ∧
  (∀ r i g, (term r i g).length = min n ((vals.filter (fun v => v.i == i && v.k / m == g)).length - r * n) ∧
    (term r i g).Pairwise (fun v w => v.k < w.k) ∧ ∀ v ∈ term r i g, v ∈ vals ∧ v.i = i ∧ v.k / m = g) ∧
  (∀ v ∈ vals, (∃ r, r < T ∧ v ∈ term r v.i (v.k / m)) ↔ ¬ left v) ∧
  (∀ r i g v w, v ∈ term r i g → w ∈ vals → w.i = i → w.k / m = g → (∀ q, q ≤ r → w ∉ term q i g) → Ahead v w) ∧
  (∀ v, left v → v ∈ vals) ∧ (∀ v ∈ d.res, v ∉ d.gone) ∧
  d.res.Pairwise (fun v w => v.i < w.i ∨ (v.i = w.i ∧ v.k < w.k)) ∧
  (d.gone ≠ [] → 64 ≤ d.res.length) ∧
  (∀ v ∈ d.gone, v.mag ≠ magNan ∧ ∀ w ∈ d.res, v.i = w.i → v.mag < w.mag ∨ (v.mag = w.mag ∧ v.k < w.k)) ∧
  (bound ≠ .inf false → ∀ i, rowDropped d i ≤ magOf bound) ∧
  (d.dense = true ↔ 64 < d.res.length) ∧
  (d.dense = true → ∀ e ∈ d.res, e.mag = magNan ∨ (bound ≠ .inf false ∧ magOf bound < rowDropped d e.i + e.mag))

end Sys2Proof.Claims

/-- R302, R303, R306: ALOAD begins a run at a trigger, or once as a source, GATHER at an index; a run issues the load of its
next point; the token at the head of a copy's responses is emitted in run and point order. -/
def Obligations.LoadingGenerators : Prop :=
  Loading .agAload 1 ∧ Loading .agGather 3 ∧
  (∀ (s : State) (r site : Nat) (c : Ctx), CopyStands s r site .ag 1 c 0 → c.canBegin = true →
    (∀ t, c.recd.inMask ≠ 0 → c.dataAt 0 = some t → Fires (.agAload r site) s c
      ((c.take 0).beginRun c.desc.start t.poison (if t.err then some t.record else none) none)) ∧
    (c.recd.inMask = 0 → (c.ag 0).runs = 0 → Completes (.agAload r site) s fun u =>
      Moved s u c (c.beginRun c.desc.start false none none))) ∧
  (∀ (s : State) (r site : Nat) (c : Ctx) (t : Token), CopyStands s r site .ag 3 c 0 → c.canBegin = true → c.dataAt 0 = some t →
    let off := indexOfTok (c.inTy 0) t * c.desc.word15.toNat
    (t.poison = true → Fires (.agGather r site) s c ((c.take 0).beginRun off false none
      (some (poisonTok true (if t.err then some t.record else none) t.payload)))) ∧
    (t.poison = false → off % 64 = 0 → c.desc.inBounds off = true → Fires (.agGather r site) s c
      ((c.take 0).beginRun off false none none)) ∧
    (t.poison = false → off % 64 = 0 → c.desc.inBounds off = false → c.desc.isEmpty = false → Fires (.agGather r site) s c
      ((c.take 0).beginRun off false none (some (errTok (errRecord 5 (c.copySite c.nextRun)))))) ∧
    (t.poison = false → off % 64 ≠ 0 → c.desc.isEmpty = false → Fires (.agGather r site) s c
      ((c.take 0).beginRun off false none (some (errTok (errRecord 6 (c.copySite c.nextRun))))))) ∧
  ∀ (s : State) (r site : Nat) (c : Ctx) (tok : Token) (rest : List RespItem), ctxOf s r site = some c →
    c.recd.isOp .ag 1 = true ∨ c.recd.isOp .ag 3 = true →
    let k := c.emitting
    let sent := (c.emit 0 tok).setAgent k { c.agent k with resp := rest }
    (c.agent k).resp = .tok tok :: rest → (if tok.isControl then c.roomCtl 0 else c.room 0) = true →
    Completes (.agResponseEmit r site) s fun t => t.mem = s.mem ∧ t.ports = s.ports ∧ (t.region r).arcs = (c.emit 0 tok).x.arcs ∧
      (rest.head? ≠ some .endRun → Moved s t c sent)

/-- R307 to R310: ASTORE stores each beat at its run's next point, SCATTER at the points of the run its index begins; FILL and
PCLEAR write and clear theirs; a completion, once it and its STOP have room, counts what was written and what was not, and the
STOP follows. A stored beat has its NaNs canonical unless it is the scale beat of its group (R37, R40). -/
def Obligations.StoringGenerators : Prop :=
  Filling .agFill 7 .store fillBeat ∧ Filling .agPclear 6 .clear (fun _ => 0#512) ∧
  (∀ (s : State) (r site k : Nat) (c : Ctx) (t : Token), CopyStands s r site .ag 2 c k → (c.ag k).closing = none →
    c.dataAt 0 = some t → t.poison = false → c.desc.isEmpty = false → (c.agent k).outst.length < 16 →
    let n := (c.agent k).outst.length
    let stores (a : AgState) : Prop := Clear s c a true n →
      Issues (.agAstore r site) s c k .store n (pointOf c a) (memBeat (c.inTy 0) (c.placeIn 0 == 0) t.payload)
        (c.take 0).x.arcs
    ((c.ag k).isOpen = true → (c.ag k).past = false → (c.ag k).bad = none → stores (c.ag k)) ∧
    ((c.ag k).isOpen = false → k = c.nextRun →
      stores { c.ag k with off := c.desc.start, j := [0, 0, 0, 0, 0], touched := false })) ∧
  (∀ (s : State) (r site k : Nat) (c : Ctx) (t : Token), CopyStands s r site .ag 4 c k →
    let n := (c.agent k).outst.length
    let off := indexOfTok (c.inTy 0) t * c.desc.word15.toNat
    (k = 0 → c.openCopy = none → c.canBegin = true → (c.ag 0).closing = none → c.dataAt 0 = some t → t.poison = false →
      c.desc.isEmpty = false → off % 64 = 0 → c.desc.inBounds off = true →
      Fires (.agScatter r site) s c ((c.take 0).beginRun off false none none)) ∧
    (c.openCopy = some k → c.dataAt 1 = some t → t.poison = false → (c.ag k).bad = none → n < 16 →
      Clear s c (c.ag k) true n →
      Issues (.agScatter r site) s c k .store n (pointOf c (c.ag k)) (memBeat (c.inTy 1) (c.placeIn 1 == 0) t.payload)
        (c.take 1).x.arcs)) ∧
  ∀ (s : State) (r site : Nat) (c : Ctx), ctxOf s r site = some c → c.recd.kind = .ag → c.room 0 = true →
    (c.emit 0 (dataTok 0#512)).roomAll = true →
    let g := c.agent 0
    let done (w n : W32) (d : Nat) : Ctx := (c.emit 0 (poisonTok g.segPoison g.segErr (completionBeat w n))).emitAll (stopTok d)
    (∀ d, c.recd.opc = 2 ∨ c.recd.opc = 4 → (c.ag 0).closing = some d → c.stored = true →
      Completes (.agCompletion r site) s fun t => t.mem = s.mem ∧ t.ports = s.ports ∧
        (c.recd.copies = 1 → (t.region r).arcs = (done g.written g.notWritten d).x.arcs ∧
          ((t.region r).site site).agent.written = 0#32 ∧ ((t.region r).site site).agent.notWritten = 0#32)) ∧
    (c.recd.opc = 6 ∨ c.recd.opc = 7 → c.recd.copies = 1 → c.agIdle = false → (c.ag 0).isOpen = true → (c.ag 0).past = true →
      g.outst = [] → g.park = .running → g.heldTok = none → Completes (.agCompletion r site) s fun t =>
        t.mem = s.mem ∧ t.ports = s.ports ∧ (t.region r).arcs = (done g.written g.notWritten 0).x.arcs ∧
        ((t.region r).site site).agent.written = 0#32)

/-- R332 to R337: DLOAD loads the beats of its tile, decomposes the tile once they are all there and counts it, a VOID beat
as zeros that poison the tile; the decomposition is the one R333 writes; the emission gives a beat of A with its index beat,
or a residual beat, each with the tile's poison. -/
def Obligations.DecomposingLoad : Prop :=
  (∀ (s : State) (r site : Nat) (c : Ctx), CopyStands s r site .ag 5 c 0 → (c.ag 0).isOpen = true → (c.ag 0).past = false →
    c.canBegin = false →
    let n := (s.pendingOf c.r c.site).length
    n < 16 → Clear s c (c.ag 0) false n → Issues (.agDload r site) s c 0 .load n (pointOf c (c.ag 0)) 0#512 c.x.arcs) ∧
  (∀ (s : State) (r site : Nat) (c : Ctx) (toks : List Token), CopyStands s r site .ag 5 c 0 → c.canBegin = false →
    (c.ag 0).isOpen = true → (c.ag 0).past = true → (c.ag 0).dl = none → (c.agent 0).resp = toks.map RespItem.tok →
    let ty := c.outTy 0
    let kb := laneCount ty / 32
    let n := (termShape c).1
    let m := (termShape c).2
    let T := c.recd.e 0 / 65536 % 4 + 1
    let beats := (toks.map (fun t => if t.err then 0#512 else t.payload)).toArray
    let d := decompose n m T (laneValue tyFp32 false (c.recd.e 1)) (tileValues ty kb beats)
    Completes (.agDload r site) s fun t => t.mem = s.mem ∧ t.ports = s.ports ∧ (t.region c.r).arcs = c.x.arcs ∧
      ∃ a, ((t.region c.r).site c.site).op = .ag a ∧
        a.dl = some {
          beats := tileBeats ty kb n m T d (tileLane ty kb beats), poison := (c.ag 0).poison || toks.any Token.poison
          recd := if (c.ag 0).recd.isSome then (c.ag 0).recd else firstErr toks } ∧
        let old := c.st.kept
        let new := ((t.region c.r).site c.site).kept
        new.dlTiles = old.dlTiles + 1#64 ∧
        (d.dense = true → new.dlDense = old.dlDense + 1#64 ∧ new.dlTerms = old.dlTerms + BitVec.ofNat 64 (m / n) ∧
          new.dlResid = old.dlResid ∧ new.dlDrop = old.dlDrop) ∧
        (d.dense = false → new.dlDense = old.dlDense ∧ new.dlResid = old.dlResid + BitVec.ofNat 64 d.res.length ∧
          new.dlDrop = old.dlDrop + BitVec.ofNat 64 d.gone.length)) ∧
  (∀ (ty kb n m T : Nat) (beats : Array Beat) (bound : Val), (n, m) ∈ [(1, 4), (2, 4), (2, 8), (4, 8)] →
    Decomposes n m T bound (tileValues ty kb beats) (decompose n m T bound (tileValues ty kb beats))) ∧
  ∀ (s : State) (r site : Nat) (c : Ctx) (o : DloadOut) (x : Option Beat) (y : Beat) (rest : List (Option Beat × Beat)),
    Stands s r site .ag 5 c → (c.ag 0).dl = some o → o.beats = (x, y) :: rest → rest ≠ [] → c.room 1 = true →
    (x.isSome = true → c.room 0 = true) →
    let tok (b : Beat) : Token := poisonTok o.poison o.recd b
    let first : Ctx := match x with
      | some b => c.emit 0 (tok b)
      | none => c
    Completes (.agDloadEmit r site) s fun t => Moved s t c ((first.emit 1 (tok y)).setAg 0
      { c.ag 0 with dl := some { o with beats := rest } })

namespace Sys2Proof.Claims

/-! ## The header element -/

/-- Bit `i` is the lowest set bit of a beat, and `rest` is the beat without it. -/
def LowestBit (l rest : Beat) (i : Nat) : Prop :=
  l.getLsbD i = true ∧ (∀ j, j < i → l.getLsbD j = false) ∧ ∀ j, rest.getLsbD j = (l.getLsbD j && decide (j ≠ i))

/-- The counters of a pair's class (R329). -/
def classCounted (x : Kept) (cls skipl : Nat) : Kept :=
  if cls = 2 then { x with hdFull := x.hdFull + 1#64 }
  else if cls = 1 then { x with hdPartial := x.hdPartial + 1#64 }
  else { x with hdEmpty := x.hdEmpty + 1#64, hdSkipb := x.hdSkipb + BitVec.ofNat 64 (64 * skipl) }

/-- Lane `n` of a pair token (R327). -/
def pairOf (t : Token) (n : Nat) : Nat := t.payload.toNat / 2 ^ (32 * n) % 2 ^ 32

/-- A pair is well formed (R327): both intervals in order, every bound below 2^24. -/
def PairGood (t : Token) : Prop :=
  t.err = false ∧ pairOf t 0 ≤ pairOf t 1 ∧ pairOf t 2 ≤ pairOf t 3 ∧ pairOf t 1 < 2 ^ 24 ∧ pairOf t 3 < 2 ^ 24

end Sys2Proof.Claims

/-- R317 to R319: BVSCAN combines one beat of every port, BTSCAN takes a summary and then the leaf of its lowest set bit; an
emission gives the lowest set bit's position in lane 0 and its number in lane 1, or for a poisoned beat without a bit one
poisoned token that advances nothing. -/
def Sys2Proof.Claims.Scans : Prop :=
  (∀ (s : State) (r site : Nat) (c : Ctx) (b : ScanState) (ts : List Token), Stands s r site .hd 1 c → c.st.op = .scan b →
    b.cur = none → c.ports.map c.dataAt = ts.map some →
    ∃ v : Beat, (∀ i, i < 512 → v.getLsbD i = (if c.recd.md % 2 = 0 then ts.all (fun t => t.payload.getLsbD i)
        else ts.any (fun t => t.payload.getLsbD i))) ∧
      Fires (.hdBvscan r site) s c ((c.takeAll c.ports).setOp (.scan { b with nb := b.nb + 1#32, cur :=
        (if v = 0#512 ∧ ts.any Token.poison = false then none
         else some (v, ts.any Token.poison, firstErr ts, 512 * b.nb.toNat)) }))) ∧
  (∀ (s : State) (r site : Nat) (c : Ctx) (b : ScanState) (t : Token), Stands s r site .hd 2 c → c.st.op = .scan b →
    b.cur = none →
    let e : Option W32 := if t.err then some t.record else none
    (b.summary = none → c.dataAt 0 = some t → t.payload ≠ 0#512 → Fires (.hdBtscan r site) s c ((c.take 0).setOp (.scan
      { b with summary := some (t.payload, t.poison, e, 262144 * b.nb.toNat), yielded := false, nb := b.nb + 1#32 }))) ∧
    ∀ l p rec base i rest, b.summary = some (l, p, rec, base) → LowestBit l rest i → c.dataAt 1 = some t →
      t.payload ≠ 0#512 → Fires (.hdBtscan r site) s c ((c.take 1).setOp (.scan
        { b with cur := some (t.payload, p || t.poison, (if rec.isSome then rec else e), base + 512 * i),
                 summary := some (rest, p, rec, base) }))) ∧
  ∀ (s : State) (r site : Nat) (c : Ctx) (b : ScanState) (l : Beat) (p : Bool) (rec : Option W32) (base : Nat),
    Stands s r site .hd 1 c ∨ Stands s r site .hd 2 c → c.st.op = .scan b → b.cur = some (l, p, rec, base) →
    c.room 0 = true →
    let tok (p : Bool) (pos : Nat) : Token :=
      poisonTok p rec (BitVec.ofNat 512 (pos % 2 ^ 32 + 2 ^ 32 * b.ord.toNat))
    (∀ i rest, LowestBit l rest i → ∃ b' : ScanState, Fires (.hdScanEmit r site) s c
      ((c.emit 0 (tok p (base + i))).setOp (.scan b')) ∧ b'.ord = b.ord + 1#32 ∧ b'.nb = b.nb ∧ b'.yielded = true ∧
        b'.cur = (if rest = 0#512 then none else some (rest, p, rec, base))) ∧
    (l = 0#512 → ∃ b' : ScanState, Fires (.hdScanEmit r site) s c ((c.emit 0 (tok true base)).setOp (.scan b')) ∧
      b'.ord = b.ord ∧ b'.nb = b.nb ∧ b'.cur = none)

/-- R326: a program's class over a box is sound: every pair of a FULL box is allowed, and no pair of an EMPTY one, whatever
the run table. -/
def Obligations.MaskClassesSound : Prop :=
  ∀ (runs : List RunEntry) (prog : List Atom) (q0 q1 k0 k1 q k : Nat),
    (∀ a ∈ prog, 1 ≤ a.aop ∧ a.aop ≤ 6 ∧ (a.aop = 6 → 1 ≤ a.p)) → q0 ≤ q → q ≤ q1 → k0 ≤ k → k ≤ k1 →
    (pairClass runs prog q0 q1 k0 k1 = 2 → allowed runs prog q k = true) ∧
    (pairClass runs prog q0 q1 k0 k1 = 0 → allowed runs prog q k = false)

/-- R327 to R329: MCLASS gives a pair's class token, on port 1 too unless the pair is EMPTY and not poisoned, and counts the
class; PMASK takes a pair unless it is EMPTY and not poisoned, and then gives row by row the exact mask. A copy takes a pair
while it is not parked (R323; log entry 39). -/
def Sys2Proof.Claims.PairMasks : Prop :=
  (∀ (s s1 : State) (r site : Nat) (c : Ctx) (t : Token) (runs : List RunEntry), Stands s r site .hd 3 c →
    let k := c.copy
    let cls := pairClass runs c.program (pairOf t 0) (pairOf t 1) (pairOf t 2) (pairOf t 3)
    let u := (c.take 0).copyState k
    let took := (c.take 0).setCopy k { u with kept := classCounted u.kept cls (c.recd.e 0 / 65536) }
    let tok : Token := { dataTok (packLanes 32 [pairOf t 4, cls, pairOf t 0, pairOf t 1, pairOf t 2, pairOf t 3]) with
      poison := t.poison }
    c.hasCopy k = true → (c.agent k).park = .running → c.dataAt 0 = some t → PairGood t →
    c.readTable s k = (s1, .runs runs) → c.room 0 = true →
    (cls = 0 → t.poison = false → Completes (.hdMclass r site) s fun v =>
      MovedReading s v c (nextFiring (took.emit 0 tok))) ∧
    (cls ≠ 0 ∨ t.poison = true → c.room 1 = true → Completes (.hdMclass r site) s fun v =>
      MovedReading s v c (nextFiring ((took.emit 0 tok).emit 1 tok)))) ∧
  (∀ (s s1 : State) (r site : Nat) (c : Ctx) (p : PmaskState) (t : Token) (runs : List RunEntry), Stands s r site .hd 4 c →
    c.st.op = .pmask p → p.pair = none → (c.agent 0).park = .running → c.dataAt 0 = some t → PairGood t →
    pairOf t 3 - pairOf t 2 ≤ 511 → pairOf t 1 - pairOf t 0 ≤ 1023 → c.readTable s 0 = (s1, .runs runs) →
    let cls := pairClass runs c.program (pairOf t 0) (pairOf t 1) (pairOf t 2) (pairOf t 3)
    (cls = 0 → t.poison = false → Completes (.hdPmask r site) s fun v => MovedReading s v c (nextFiring (c.take 0))) ∧
    (cls ≠ 0 ∨ t.poison = true → Completes (.hdPmask r site) s fun v =>
      MovedReading s v c (nextFiring ((c.take 0).setOp (.pmask { pair := some t, cls := some cls, row := 0 }))))) ∧
  ∀ (s s1 : State) (r site : Nat) (c : Ctx) (p : PmaskState) (t : Token) (runs : List RunEntry), Stands s r site .hd 4 c →
    c.st.op = .pmask p → p.pair = some t → (c.agent 0).park = .running → (c.agent 0).heldTok = none →
    c.readTable s 0 = (s1, .runs runs) → c.room 0 = true →
    let q := pairOf t 0 + p.row
    ∃ m : Beat, (∀ i, i < 512 → m.getLsbD i =
        (decide (i ≤ pairOf t 3 - pairOf t 2) && allowed runs c.program q (pairOf t 2 + i))) ∧
      Completes (.hdPmaskRow r site) s fun v => MovedReading s v c (nextFiring ((c.emit 0
        { dataTok m with poison := t.poison }).setOp (.pmask
          (if pairOf t 1 ≤ q then { pair := none, cls := none, row := 0 } else { p with row := p.row + 1 }))))

/-- The scans of a head unit and its pair masks. That a parked head unit takes no new pair is log entry 39. -/
def Obligations.ScansAndMasks : Prop :=
  Claims.Scans ∧ Claims.PairMasks

namespace Sys2Proof.Claims

/-! ## The owner and the bridge -/

/-- The owner at a site can act on a new update: it runs operation `opc`, no copy is parked, nothing is at hand, and it is the
element's turn at the owner of the lines (R30, R395). -/
def OwnerReady (s : State) (r site opc : Nat) (c : Ctx) (ts : List Token) : Prop :=
  Stands s r site .ow opc c ∧ c.owReady = true ∧ c.room 0 = true ∧ owTurn s c = true ∧ c.ow.applying = false ∧ c.ow.skip = false ∧
  c.ports.map c.dataAt = ts.map some ∧ ∀ t ∈ ts, t.poison = false

/-- Byte `off` of the owned range is reached at the place `p` of the cluster's ordinary memory (R395, R400). -/
def LineReached (s : State) (c : Ctx) (off : Nat) (acc : Acc) (cl : Cluster) (p : Place) : Prop :=
  (∃ kn s1, c.cluster s = some (kn, cl) ∧
    s.resolveIn cl c.r (c.ownedAt off).1 (c.ownedAt off).2 acc = (s1, .ok p false)) ∧ s.eccAt p = false ∧
  (∀ t, (c.ownedAt off).1 = .tile t → c.x.tileReady t c.cseq = true) ∧ s.mem.wf = true

/-- The offset an address token names lies in the range and on a line (R400). -/
def OffsetGood (l : List W32) (off : Int) : Prop := 0 ≤ off ∧ off % 64 = 0 ∧ off + 64 ≤ rangeExtent l

/-- The offset of an address token (R396). -/
def offsetOf (ts : List Token) : Int := signedOf 64 ((ts.map Token.payload).getD 0 0).toNat

/-- Copy `k` of an element counts one operation more as written, or as not written, and no other count of it changes (R395,
R397, R400). -/
def Counts (u : State) (c : Ctx) (k : Nat) (written : Bool) : Prop :=
  k = 0 ∨ c.copySite k ≠ c.site →
    let g := ((u.region c.r).site (c.copySite k)).agent
    g.written = (c.agent k).written + (if written then 1#32 else 0#32) ∧
    g.notWritten = (c.agent k).notWritten + (if written then 0#32 else 1#32)

/-- An update of a line as one event (R395, R396): each lane becomes `f` of the old lane, the operand's and the comparand's, and
the old line is emitted, poisoned only by an overflow that PV selects; no other byte of memory changes. -/
def OwnerUpdates (i : Nat → Nat → Instr) (opc arity : Nat) (types : Nat → Prop) (f : Ctx → Nat → Nat → Nat → Nat)
    (overflows : Ctx → Nat → Nat → Prop) : Prop :=
  ∀ (s : State) (r site : Nat) (c : Ctx) (ts : List Token) (cl : Cluster) (p : Place), OwnerReady s r site opc c ts →
    arity ≤ ts.length → types (c.inTy 1) → OffsetGood c.range (offsetOf ts) →
    LineReached s c (offsetOf ts).toNat .write cl p → p.offset = 0 →
    let ty := c.inTy 1
    let lane (b : Beat) (k : Nat) : Nat := laneAt b (laneWidth ty) k
    let old := beatOf (s.loadBytes cl.asid p 64)
    let x : Beat := (ts.map Token.payload).getD 1 0
    let m : Beat := (ts.map Token.payload).getD 2 0
    ∃ (new : Beat) (b : Bool), (∀ k, k < laneCount ty → lane new k = f c (lane old k) (lane x k) (lane m k)) ∧
      (b = true ↔ c.recd.pv / 2 % 2 = 1 ∧ ∃ k, k < laneCount ty ∧ overflows c (lane old k) (lane x k)) ∧
      Completes (i r site) s fun t => Stored s t cl.asid p (beatBytes new) ∧
        Counts t c (c.workCopy ((offsetOf ts).toNat / 64)) true ∧
        (t.region r).arcs = ((c.takeAll c.ports).emit 0 { dataTok old with poison := b }).x.arcs

/-- An update of a line of a floating-point type (R396): the lanes in ascending order, each rounded once or written as it
stands, with the events that PV selects poisoning the old line that is emitted; the LFSR of the owning copy steps on. -/
def OwnerFloats (i : Nat → Nat → Instr) (opc : Nat) (lane : Ctx → W32 → Val → Val → LaneOut) : Prop :=
  ∀ (s : State) (r site : Nat) (c : Ctx) (ts : List Token) (cl : Cluster) (p : Place), OwnerReady s r site opc c ts →
    2 ≤ ts.length → inF (c.inTy 1) = true → OffsetGood c.range (offsetOf ts) →
    LineReached s c (offsetOf ts).toNat .write cl p → p.offset = 0 →
    let ty := c.inTy 1
    let k := c.workCopy ((offsetOf ts).toNat / 64)
    let val (b : Beat) (n : Nat) : Val := laneValue ty c.fzi (laneAt b (laneWidth ty) n)
    let old := beatOf (s.loadBytes cl.asid p 64)
    let x : Beat := (ts.map Token.payload).getD 1 0
    let o := eachLane (c.copyState k).lfsr (fun l n => lane c l (val old n) (val x n)) (List.range (laneCount ty))
    Completes (i r site) s fun t => Stored s t cl.asid p (beatBytes (packLanes (laneWidth ty) o.1)) ∧
      (t.region r).arcs = ((c.takeAll c.ports).emit 0 { dataTok old with poison := pvSelects c.recd.pv o.2.1 }).x.arcs ∧
      (k = 0 ∨ c.copySite k ≠ c.site → ((t.region r).site (c.copySite k)).lfsr = o.2.2) ∧ Counts t c k true

/-- An update whose offset is misaligned or outside the range is not applied (R395, R400): it emits the error token of the
copy it is steered to, which counts it as not written; memory is as before. -/
def OwnerRefuses (i : Nat → Nat → Instr) (opc : Nat) : Prop :=
  ∀ (s : State) (r site : Nat) (c : Ctx) (ts : List Token), OwnerReady s r site opc c ts → 0 < ts.length →
    ¬ OffsetGood c.range (offsetOf ts) →
    let k := (offsetOf ts / 64 % (c.recd.copies : Int)).toNat
    let e := errTok (errRecord (if offsetOf ts % 64 ≠ 0 then 6 else 5) (c.copySite k))
    Completes (i r site) s fun t => t.mem = s.mem ∧ (t.region r).arcs = ((c.takeAll c.ports).emit 0 e).x.arcs ∧
      Counts t c k false

/-- The integer of a lane pattern of the operand's type. -/
def ownInt (c : Ctx) (x : Nat) : Int :=
  if isSigned (c.inTy 1) then signedOf (laneWidth (c.inTy 1)) x else x

/-- An exact integer written to a lane: saturated under SAT, and otherwise wrapped (R38). -/
def ownLane (c : Ctx) (v : Int) : Nat :=
  ((if c.recd.sat then max (intRange (c.inTy 1)).1 (min (intRange (c.inTy 1)).2 v) else v) % 2 ^ laneWidth (c.inTy 1)).toNat

end Sys2Proof.Claims

/-- R395, R396, R399, R400: OADD to OCAS apply one operation to each lane of the owned line in one event, count it as written
and emit the old line; OREAD emits the line and changes nothing, once its owner has no update at hand of any instance. Each
waits for its element's turn at the owner (log entry 1). On integer types the
result is exact, saturated or wrapped; on floating-point types rounded once. An offset that cannot be used emits its error
token and counts as not written (log entry 40). OCAS is stated on types with lanes (log entry 34). -/
def Sys2Proof.Claims.OwnerLines : Prop :=
  OwnerUpdates .owOadd 1 2 (fun ty => inI ty = true) (fun c o x _ => ownLane c (ownInt c o + ownInt c x))
    (fun c o x => ownInt c o + ownInt c x < (intRange (c.inTy 1)).1 ∨ (intRange (c.inTy 1)).2 < ownInt c o + ownInt c x) ∧
  OwnerUpdates .owOmin 2 2 (fun ty => inI ty = true) (fun c o x _ => ownLane c (min (ownInt c o) (ownInt c x)))
    (fun _ _ _ => False) ∧
  OwnerUpdates .owOmax 3 2 (fun ty => inI ty = true) (fun c o x _ => ownLane c (max (ownInt c o) (ownInt c x)))
    (fun _ _ _ => False) ∧
  OwnerUpdates .owOand 4 2 (fun _ => True) (fun _ o x _ => o &&& x) (fun _ _ _ => False) ∧
  OwnerUpdates .owOor 5 2 (fun _ => True) (fun _ o x _ => o ||| x) (fun _ _ _ => False) ∧
  OwnerUpdates .owOxor 6 2 (fun _ => True) (fun _ o x _ => o ^^^ x) (fun _ _ _ => False) ∧
  OwnerUpdates .owOswp 7 2 (fun _ => True) (fun c _ x _ => canonLane (c.inTy 1) x) (fun _ _ _ => False) ∧
  OwnerUpdates .owOcas 8 3 (fun ty => ty ≠ 0) (fun c o x m => canonLane (c.inTy 1) (if o = m then x else o))
    (fun _ _ _ => False) ∧
  OwnerFloats .owOadd 1 (fun c l a b => numericLane (c.inTy 1) c.rm c.recd.sat c.fzo (a.isNan || b.isNan) l (a.add c.rm b)) ∧
  OwnerFloats .owOmin 2 (fun c l a b => exactLane (c.inTy 1) c.recd.sat c.fzo l (a.min2 b)) ∧
  OwnerFloats .owOmax 3 (fun c l a b => exactLane (c.inTy 1) c.recd.sat c.fzo l (a.max2 b)) ∧
  OwnerRefuses .owOadd 1 ∧ OwnerRefuses .owOmin 2 ∧ OwnerRefuses .owOmax 3 ∧ OwnerRefuses .owOand 4 ∧
  OwnerRefuses .owOor 5 ∧ OwnerRefuses .owOxor 6 ∧ OwnerRefuses .owOswp 7 ∧ OwnerRefuses .owOcas 8 ∧
  ∀ (s : State) (r site : Nat) (c : Ctx) (a : Token) (cl : Cluster) (p : Place), OwnerReady s r site 0xB c [a] →
    OffsetGood c.range (offsetOf [a]) → c.ownerBusy = false → LineReached s c (offsetOf [a]).toNat .read cl p →
    Completes (.owOread r site) s fun t => t.mem = s.mem ∧ (t.region r).arcs =
      ((c.takeAll c.ports).emit 0 (dataTok (beatOf (s.loadBytes cl.asid p 64)))).x.arcs ∧
      ((t.region r).site site).kept.beats = c.st.kept.beats

/-- R397, R398, R400: OINC takes a token and adds 1 to the counter each lane names, a lane in one event, and counts it as
written, or as not written when the lane names no counter; OMXACC takes an address and its group, and rewrites one block in
one event, counted as written, or counts a block whose offset cannot be used as not written and poisons the segment; a
segment's completion, once it and its STOP have room, carries its counts, and the STOP follows (log entry 40). -/
def Sys2Proof.Claims.OwnerSegments : Prop :=
  (∀ (s : State) (r site : Nat) (c : Ctx) (o : OwState), Stands s r site .ow 9 c → c.st.op = .ow o → c.owReady = true →
    (∀ t, o.applying = false → owTurn s c = true → c.dataAt 0 = some t → t.poison = false → Completes (.owOinc r site) s fun u =>
      u.mem = s.mem ∧ (u.region r).arcs = (c.take 0).x.arcs ∧
      ((u.region r).site site).op = .ow { o with toks := [t], blk := 0, applying := true }) ∧
    ∀ t, o.applying = true → o.skip = false → o.toks = [t] →
      let lane := t.payload.toNat / 2 ^ (32 * o.blk) % 2 ^ 32
      let v : Int := if c.inTy 0 = 14 then signedOf 32 lane else lane
      (∀ cl p, 0 ≤ v → 4 * v < rangeExtent c.range / 4 * 4 → LineReached s c (4 * v.toNat) .write cl p → p.offset + 4 ≤ 64 →
        Completes (.owOinc r site) s fun u => (u.region r).arcs = c.x.arcs ∧ Counts u c (c.workCopy (4 * v.toNat / 64)) true ∧
          Stored s u cl.asid p (leBytes 4 ((leNat (s.loadBytes cl.asid p 4) + 1) % 2 ^ 32))) ∧
      (v < 0 ∨ (rangeExtent c.range / 4 : Nat) ≤ v → Completes (.owOinc r site) s fun u => u.mem = s.mem ∧
        (u.region r).arcs = c.x.arcs ∧ Counts u c 0 false)) ∧
  (∀ (s : State) (r site : Nat) (c : Ctx) (o : OwState), Stands s r site .ow 0xA c → c.st.op = .ow o → c.owReady = true →
    c.copies.all (fun k => (c.agent k).runs) = true →
    let join (t : Token) (u : State) : Prop := ((u.region r).site site).op = .ow { o with
      toks := o.toks ++ [t], applying := decide ((o.toks ++ [t]).length = 2 + groupBeats (c.inTy 1)) }
    (∀ t b, o.applying = false → owTurn s c = true → o.toks = [] → c.dataAt 0 = some t → t.poison = false → c.dataAt 1 = some b →
      Completes (.owOmxacc r site) s fun u => u.mem = s.mem ∧ (u.region r).arcs = (c.take 0).x.arcs ∧ join t u) ∧
    (∀ t, o.applying = false → o.toks ≠ [] → c.dataAt 1 = some t → t.poison = false →
      Completes (.owOmxacc r site) s fun u => u.mem = s.mem ∧ (u.region r).arcs = (c.take 1).x.arcs ∧ join t u) ∧
    (∀ a rest, o.applying = true → o.skip = false → o.toks = a :: rest →
      let off : Int := offsetOf [a] + 64 * o.blk
      ¬ OffsetGood c.range off → Completes (.owOmxacc r site) s fun u => u.mem = s.mem ∧ (u.region r).arcs = c.x.arcs ∧
        Counts u c (off / 64 % (c.recd.copies : Int)).toNat false ∧ ((u.region r).site site).agent.segPoison = true) ∧
    ∀ a scale beats cl p, o.applying = true → o.skip = false → o.toks = a :: scale :: beats →
      let off : Int := offsetOf [a] + 64 * o.blk
      OffsetGood c.range off → LineReached s c off.toNat .write cl p → p.offset = 0 →
      let line := (accBlock c (s.loadBytes cl.asid p 64) scale.payload (beats.map Token.payload).toArray o.blk
        (c.copyState (c.workCopy (off.toNat / 64))).lfsr).1
      line.length = 64 → Completes (.owOmxacc r site) s fun u => (u.region r).arcs = c.x.arcs ∧ Stored s u cl.asid p line ∧
        Counts u c (c.workCopy (off.toNat / 64)) true) ∧
  ∀ (s : State) (r site : Nat) (c : Ctx) (o : OwState) (d : Nat), ctxOf s r site = some c → c.recd.kind = .ow →
    c.st.op = .ow o → o.closing = some d → c.room 0 = true → (c.emit 0 (dataTok 0#512)).roomAll = true →
    Completes (.owCompletion r site) s fun u =>
      u.mem = s.mem ∧ u.ports = s.ports ∧ ((u.region r).site site).op = .ow { o with closing := none } ∧
      let g := c.agent 0
      (c.recd.copies = 1 → (u.region r).arcs =
        ((c.emit 0 (poisonTok g.segPoison g.segErr (completionBeat g.written g.notWritten))).emitAll (stopTok d)).x.arcs)

/-- The owner elements: lines and segments. -/
def Obligations.Owners : Prop :=
  Claims.OwnerLines ∧ Claims.OwnerSegments

/-- R354 to R356: EREQ issues its request on its engine and its ERESP emits the responses in request order; RLOAD, RSTORE and
RATOM issue a load, a store and an atomic at the address they consume. -/
def Obligations.BridgeElements : Prop :=
  (∀ (s : State) (r site q kn : Nat) (cl : Cluster) (c : Ctx) (t : Token), Stands s r site .br 1 c → c.partner = some q →
    q ≠ site → c.dataAt 0 = some t → t.poison = false → (c.agent 0).park = .running → c.cluster s = some (kn, cl) →
    let e := c.recd.e 0 % 32
    let raw := leBytes 64 t.payload.toNat
    let n : W32 := BitVec.ofNat 32 ((c.agent 0).nextId + 1)
    let its := (c.x.site q).items
    blockFails (engineClass e) false raw = false → e < 20 → (s.queueOf e).length < 64 → awaited its < 16 →
    Completes (.brEreq r site) s fun u => u.mem = s.mem ∧ (u.region r).arcs = (c.take 0).x.arcs ∧
      ((u.region r).site q).items = its ++ [.cmd site n (cmdBlock raw).scope] ∧
      (∃ x, u.queueOf e = s.queueOf e ++ [x] ∧ x.issuer = .ereq r site ∧ x.n = n ∧ x.blk = cmdBlock raw ∧ x.asid = cl.asid ∧
        x.cluster = some kn) ∧ ∀ f, f ≠ e → u.queueOf f = s.queueOf f) ∧
  (∀ (s : State) (r site : Nat) (c : Ctx) (rest : List BrItem), Stands s r site .br 2 c → c.room 0 = true →
    (∀ p, c.st.op = .br (.answer p :: rest) → Fires (.brEresp r site) s c ((c.emit 0 (dataTok p)).setOp (.br rest))) ∧
    (∀ t, c.st.op = .br (.tok t :: rest) → t.kind = .data →
      Fires (.brEresp r site) s c ((c.emit 0 t).setOp (.br rest)))) ∧
  (∀ (s : State) (r site : Nat) (c : Ctx) (t : Token), Stands s r site .br 3 c → (c.agent 0).park = .running →
    (∀ k rest, (c.agent 0).resp ≠ .tok k :: rest) → (c.agent 0).beats < 16 → c.dataAt 0 = some t → t.poison = false →
    let off := addressOf t
    OffsetGood c.remote off → c.mayIssue s = true →
    Issues (.brRload r site) s c 0 .load (c.inFlight s) (fun _ => (.virt, rangeBase c.remote + off.toNat)) 0#512
      (c.take 0).x.arcs) ∧
  (∀ (s : State) (r site : Nat) (c : Ctx) (a b : Token), Stands s r site .br 4 c → (c.agent 0).park = .running →
    (c.agent 0).heldTok = none → c.ow.applying = false → c.ow.closing = none → c.dataAt 0 = some a → c.dataAt 1 = some b →
    a.poison = false → b.poison = false →
    let off := addressOf a
    OffsetGood c.remote off → (c.agent 0).outst.length < 16 → c.mayIssue s = true →
    Issues (.brRstore r site) s c 0 .store (c.inFlight s) (fun _ => (.virt, rangeBase c.remote + off.toNat))
      (memBeat (c.inTy 1) ((c.takeAll [0, 1]).placeIn 1 == 1) b.payload)
      (c.takeAll [0, 1]).x.arcs) ∧
  ∀ (s : State) (r site : Nat) (c : Ctx) (a b : Token) (ms : List Token), Stands s r site .br 5 c →
    (c.agent 0).park = .running → (∀ k rest, (c.agent 0).resp ≠ .tok k :: rest) → (c.agent 0).beats < 16 →
    c.ports.map c.dataAt = (a :: b :: ms).map some → (∀ t ∈ a :: b :: ms, t.poison = false ∧ t.err = false) →
    let addr := a.payload.toNat % 2 ^ 64
    let m : Nat := ((ms.map Token.payload).getD 0 0).toNat % 2 ^ 64
    addr % c.atomBytes = 0 → c.inFlight s = 0 →
    Issues (.brRatom r site) s c 0 .atom 0 (fun _ => (.virt, addr))
      (BitVec.ofNat 512 (b.payload.toNat % 2 ^ 64 + 2 ^ 64 * m)) (c.takeAll c.ports).x.arcs

namespace Sys2Proof.Claims

/-! ## Start-up, links and power -/

/-- A give has ended with a result (R451): GRES holds it, GO is clear, no give waits, and the alert of a give is set. -/
def GiveEnds (s t : State) (res : Nat) : Prop :=
  t.pow.giving = none ∧ t.sramNat 0x1FFB18 8 = res ∧ t.sramNat 0x1FFB10 8 = s.sramNat 0x1FFB10 8 / 2 * 2 ∧
  t.mcr.alertPend = s.mcr.alertPend ||| 4#4

/-- The largest number of a list lies in it and is exceeded by none. -/
def Largest (l : List Int) (v : Int) : Prop := v ∈ l ∧ ∀ x ∈ l, x ≤ v

/-- Another trained link than `n` leads to a member. -/
def OtherLink (s : State) (n m : Nat) : Prop := ∃ l, l.1 ≠ n ∧ l ∈ s.sec.links ∧ l.2.leadsTo m = true

/-- A Lotar link has been trained with a peer (R132, R447, R454): it leads to the peer, with the keys of the exchange and its
counters at zero but for the credit total that is sent; the tokens the peer has not been credited with come back, up to 560. -/
def LinkTrained (s t : State) (n : Nat) (peer : LotarPeer) : Prop :=
  let sent := Table.get s.pow.sent peer.member 0#64
  let due := (sent - BitVec.ofNat 64 peer.cred).toNat
  t.mem = s.mem ∧ t.mcr.alertPend = s.mcr.alertPend ||| 8#4 ∧
  (∃ l z, Table.find? t.sec.links n = some l ∧ l.trained = true ∧ l.member = peer.member ∧ l.beyond = peer.beyond ∧
    l.keyHash = vec384 (sha384 (pointBytes (some (peer.keyX.toNat, peer.keyY.toNat)))) ∧
    l.keyOut = Config.linkKey z s.member peer.member ∧ l.keyIn = Config.linkKey z peer.member s.member ∧
    l.ivIn = 0#96 ∧ (l.ivOut = 0#96 ∨ l.ivOut = 1#96)) ∧
  (∀ k, k ≠ n → (∀ x, Table.find? s.sec.links k = some x → x.leadsTo peer.member = false) →
    Table.find? t.sec.links k = Table.find? s.sec.links k) ∧
  t.pow.sideband = (peer.member, [Table.get s.pow.cred peer.member 0#64]) :: s.pow.sideband ∧
  t.mcr.budget = min 560 (s.mcr.budget + due) ∧
  Table.get t.pow.sent peer.member 0#64 = BitVec.ofNat 64 (peer.cred + (s.mcr.budget + due - 560))

end Sys2Proof.Claims

/-- R119 to R122, R449: POWER_ON measures the firmware and, when its signature is good, starts the management core on it at
byte 0 of SRAM (log entry 33), with the Lotar links trained, the power block's fields of start-up and the chains at their
first cells; a bad signature leaves the device without service. POWER_REMOVAL loses everything but the boot flash and the
hosts' memory (what a byte reads as then is log entry 4). -/
def Sys2Proof.Claims.PowerOnAndRemoval : Prop :=
  (∀ s : State, s.power = .off →
    (s.flash.genuine = true → Completes .powerOn s fun t => t.power = .on ∧ t.cur = .mc ∧ t.mc.run = .running ∧
      t.mc.priv = .management ∧ t.mc.pc = 0#64 ∧ t.agenda = s.agenda ∧ t.flash = s.flash ∧ t.lotar = s.lotar ∧
      t.sec.debug = Config.debugFuse ∧ t.sec.fwm = vec384 (sha384 s.flash.image) ∧
      (∀ a, a < 0x1FFB00 ∨ (0x1FFB28 ≤ a ∧ a < 0x200000) → ¬(0x1FF000 ≤ a ∧ a < 0x1FF800 ∧ 8 ≤ a % 128 ∧ a % 128 < 24) →
        t.mem.byte (.sram a) = s.flash.image.getD a 0#8) ∧
      (s.pow.giving = none → t.sramNat 0x1FFB00 2 = 1360 ∧ t.sramNat 0x1FFB04 4 = 0 ∧ t.sramNat 0x1FFB08 1 = 0 ∧
        t.sramNat 0x1FFB18 8 = 0 ∧ t.sramNat 0x1FFB20 4 = 0) ∧ t.pow.talert = 1360 ∧
      (s.lotar.length ≤ 36 → s.lotar.Pairwise (fun a b => a.1 ≠ b.1) → ∀ p ∈ s.lotar, p.1 < 36 → peerGood p.2 = true →
        ∃ l, Table.find? t.sec.links p.1 = some l ∧ l.trained = true ∧ l.member = p.2.member) ∧
      ∀ p, (t.port p).cmd = some (firstCommand p) ∧ (t.port p).sec = some (firstSecurity p) ∧ (t.port p).up = true) ∧
    (s.flash.genuine = false → Completes .powerOn s fun t => t.power = .failed ∧ t.mem = s.mem ∧ t.mc = s.mc)) ∧
  ∀ s : State, Completes .powerRemoval s fun t => t.power = .off ∧ t.flash = s.flash ∧ t.lotar = s.lotar ∧
    (∀ p off, t.mem.byte (.host p off) = s.mem.byte (.host p off)) ∧
    (∀ q, (∀ p off, q ≠ .host p off) → t.mem.byte q = 0#8 ∧ t.mem.mark q = false) ∧
    (∀ a, t.mem.gst (.hbm a) = .empty) ∧ (∀ b y, t.mem.gst (.bank b y) = .empty) ∧
    t.mc = State.reset.mc ∧ t.mcr = State.reset.mcr ∧ t.regions = State.reset.regions ∧ t.engines = State.reset.engines ∧
    t.disp = State.reset.disp ∧ t.sec = State.reset.sec ∧ t.pow = State.reset.pow ∧ t.ports = State.reset.ports

/-- R103, R109, R132, R360, R447, R452, R454: training and rekeying of Lotar links, their loss with a give that waits on them,
the control ports' links, and GROUP_SET (log entry 44). The keys of a link are free values of the secret that its exchange
gives (log entries 10 and 51). -/
def Sys2Proof.Claims.LinksAndGroupSet : Prop :=
  (∀ (s : State) (n : Nat) (peer : LotarPeer), n < 36 → s.sec.links.Pairwise (fun a b => a.1 < b.1) → s.mcr.budget ≤ 560 →
    (peerGood peer = true → Completes (.linkTrain n peer) s fun t => LinkTrained s t n peer) ∧
    (peerGood peer = true → ∀ l, Table.find? s.sec.links n = some l → l.trained = true →
      Table.find? s.lotar n = some peer → Completes (.linkRekey n) s fun t => LinkTrained s t n peer) ∧
    (peerGood peer = false → s.pow.giving = none → Completes (.linkTrain n peer) s fun t => t.mem = s.mem ∧
      Table.find? t.sec.links n = (Table.find? s.sec.links n).map (fun l => { l with trained := false }) ∧
      ∀ k, k ≠ n → Table.find? t.sec.links k = Table.find? s.sec.links k)) ∧
  (∀ (s : State) (n : Nat) (l : Link), Table.find? s.sec.links n = some l → l.trained = true →
    (s.pow.giving = none → Completes (.lotarLinkDown n) s fun t => t.mem = s.mem ∧
      Table.find? t.sec.links n = some { l with trained := false } ∧ t.mcr.alertPend = s.mcr.alertPend ||| 8#4) ∧
    ∀ m count, s.pow.giving = some (m, count) → l.leadsTo m = true → ¬OtherLink s n m →
      s.sec.links.Pairwise (fun a b => a.1 < b.1) → s.mem.wf = true →
      Completes (.lotarLinkDown n) s fun t => t.pow.giving = none ∧ t.sramNat 0x1FFB18 8 = 6 ∧ t.mcr.budget = s.mcr.budget) ∧
  (∀ (s : State) (p : PortId), s.mc.run ≠ .stopped →
    ((∀ e ∈ s.disp.sems, e.2.waiters = []) → Completes (.linkDown p) s fun t => t.mem = s.mem ∧ (t.port p).up = false ∧
      (∀ m, (t.sem m).heldBy (portHolder p) = false) ∧
      ∀ m, (∀ e ∈ s.disp.sems, e.1 = m → e.2.heldBy (portHolder p) = false) → t.sem m = s.sem m) ∧
    Completes (.linkUp p) s fun t => t.mem = s.mem ∧ (t.port p).up = true ∧
      (t.port p).cmd = (if (s.port p).cmd = none ∧ s.cellEmpty (firstCommand p) = true then some (firstCommand p)
        else (s.port p).cmd)) ∧
  (∀ (s : State) (bits : BitVec 576), s.mc.run ≠ .stopped →
    exec (.groupSetWrite bits) s = .next { s with disp := { s.disp with groupFw := bits } }) ∧
  ∀ (s : State) (p : PortId) (bits : BitVec 576), s.mc.run = .stopped →
    exec (.linkDown p) s = .next s ∧ exec (.linkUp p) s = .next s ∧ exec (.groupSetWrite bits) s = .next s

/-- Start-up, removal of power, the links and GROUP_SET. What start-up and removal do to the boot flash, the chains and memory is log entry 33. -/
def Obligations.PowerAndLinks : Prop :=
  Claims.PowerOnAndRemoval ∧ Claims.LinksAndGroupSet

/-- R451 to R453: a request with GO set is sent, its tokens leaving BUDGET, or ends BAD, LOW or UNREACHABLE with nothing
moved; the receiver credits what fits under 560 and otherwise credits nothing and answers CAP; an answer ends the give, and
on CAP the tokens come back (log entry 32). -/
def Sys2Proof.Claims.BudgetGives : Prop :=
  (∀ s : State,
    let g := s.sramNat 0x1FFB10 8
    let n := g / 2 % 1024
    let m := g / 2048 % 1024
    let bad : Prop := g / 2 ^ 21 ≠ 0 ∨ n = 0 ∨ 560 < n ∨ 575 < m ∨ m = s.member
    let stays (t : State) : Prop := t.mcr.budget = s.mcr.budget ∧ t.pow.sideband = s.pow.sideband
    g % 2 = 1 → s.pow.giving = none → s.mem.wf = true →
    (¬bad → n + 64 ≤ s.mcr.budget → s.reachable m = true → Completes .give s fun t => t.mem = s.mem ∧
      t.mcr = { s.mcr with budget := s.mcr.budget - n } ∧ t.pow.giving = some (m, n) ∧
      t.pow.sideband = (m, [BitVec.ofNat 64 n]) :: s.pow.sideband ∧
      Table.get t.pow.sent m 0#64 = Table.get s.pow.sent m 0#64 + BitVec.ofNat 64 n) ∧
    (bad → Completes .give s fun t => GiveEnds s t 5 ∧ stays t) ∧
    (¬bad → s.mcr.budget < n + 64 → Completes .give s fun t => GiveEnds s t 3 ∧ stays t) ∧
    (¬bad → n + 64 ≤ s.mcr.budget → s.reachable m = false → Completes .give s fun t => GiveEnds s t 4 ∧ stays t)) ∧
  (∀ (s : State) (m count : Nat),
    (s.mcr.budget + count ≤ 560 → Completes (.giveReceive m count) s fun t => t.mem = s.mem ∧
      t.mcr.budget = s.mcr.budget + count ∧ t.pow.sideband = (m, [1#64]) :: s.pow.sideband ∧
      t.mcr.alertPend = s.mcr.alertPend ||| 4#4 ∧
      Table.get t.pow.cred m 0#64 = Table.get s.pow.cred m 0#64 + BitVec.ofNat 64 count) ∧
    (560 < s.mcr.budget + count → Completes (.giveReceive m count) s fun t => t.mem = s.mem ∧ t.mcr = s.mcr ∧
      t.pow.sideband = (m, [2#64]) :: s.pow.sideband ∧ t.pow.cred = s.pow.cred)) ∧
  ∀ (s : State) (m n : Nat), s.pow.giving = some (m, n) → s.mem.wf = true →
    (Completes (.giveAnswer .done) s fun t => GiveEnds s t 1 ∧ t.mcr.budget = s.mcr.budget ∧ t.pow.sent = s.pow.sent) ∧
    (s.mcr.budget ≤ 560 → Completes (.giveAnswer .cap) s fun t => GiveEnds s t 2 ∧
      t.mcr.budget = min 560 (s.mcr.budget + n) ∧
      Table.get t.pow.sent m 0#64 = Table.get s.pow.sent m 0#64 - BitVec.ofNat 64 n ∧
      t.sramNat 0x1FFB20 4 = (s.sramNat 0x1FFB20 4 + (s.mcr.budget + n - 560)) % 2 ^ 32)

/-- R441 to R450: a sweep takes every reading, tests it, makes a sensor that fails suspect until 64 sweeps in a row have passed,
publishes a reading or what stands in for it (log entry 32), trips the zones that are hot, requests steps where two sensors of
a zone are suspect, moves the governor by one step, moves returned tokens into BUDGET up to 560, raises the alerts and sets
SAMPLE. -/
def Obligations.SensorSweeps : Prop :=
  ∀ (s : State) (raw : List Int) (pwr : Nat), s.mem.wf = true → Completes (.sensorSweep raw pwr) s fun t =>
    (∀ n, n < 664 →
      let v := raw.getD n 0
      let x := t.sensor n
      let th := isThermal n
      let sound (m : Nat) : Bool := !(t.sensor m).suspect
      let wide (m : Nat) : Prop := ∃ a ∈ (t.sensor m).hist, ∃ b ∈ (t.sensor m).hist, (if th then 32 else 8) < a - b
      let fails := x.stk || x.rng || x.dis
      x.raw = v ∧ x.hist = (v :: (s.sensor n).hist).take 64 ∧
      (x.stk = true ↔ 64 ≤ x.stuckn ∧ wide (neighbours n).1 ∧ wide (neighbours n).2) ∧
      (x.rng = true ↔ (if th then v < -640 ∨ 2400 < v else v < 0 ∨ 1600 < v)) ∧
      (x.dis = true ↔ th = true ∧ 128 < (v - raw.getD (neighbours n).1 0).natAbs ∧
        128 < (v - raw.getD (neighbours n).2 0).natAbs) ∧
      x.stuckn = (if (s.sensor n).hist.head? = some v then min 65535 ((s.sensor n).stuckn + 1) else 0) ∧
      (fails = true → x.suspect = true ∧ x.cleann = 0) ∧
      (fails = false → (s.sensor n).suspect = false → x.suspect = false) ∧
      (fails = false → (s.sensor n).suspect = true →
        (64 ≤ (s.sensor n).cleann + 1 → x.suspect = false ∧ x.cleann = 0) ∧
        ((s.sensor n).cleann + 1 < 64 → x.suspect = true ∧ x.cleann = (s.sensor n).cleann + 1)) ∧
      (x.suspect = false → x.pub = v) ∧
      (x.suspect = true → ∀ best, Largest ((([(neighbours n).1, (neighbours n).2].filter sound)).map (fun m => raw.getD m 0))
        best → x.pub = best + if th then 48 else 32) ∧
      (x.suspect = true → sound (neighbours n).1 = false → sound (neighbours n).2 = false →
        let alike := (zoneSensors (zoneOf n)).filter (fun m => isThermal m == th && sound m)
        (∀ best, Largest (alike.map (fun m => raw.getD m 0)) best → x.pub = best + if th then 48 else 32) ∧
        (alike = [] → x.pub = if th then 2400 else 1600))) ∧
    (let lim := 20 * s.mcr.budget
     let g := s.sramNat 0x1FFB08 1 % 16
     let gov := if lim < pwr then min 15 (g + 1) else if 20 * pwr < 19 * lim ∧ 0 < g then g - 1 else g
     let crowded (x : State) (z : Nat) : Prop := 2 ≤ ((zoneSensors z).filter (fun n => (x.sensor n).suspect)).length
     let ovf := s.sramNat 0x1FFB20 4
     let back := min ovf (560 - s.mcr.budget)
     t.sramNat 0x1FFB08 1 = gov ∧ t.mcr.budget = s.mcr.budget + back ∧ t.sramNat 0x1FFB20 4 = ovf - back ∧
     (∀ q, q < 512 → (t.meter q).gov = BitVec.ofNat 4 gov ∧
       ((∃ z, z < 134 ∧ zoneGoverns z q = true ∧ crowded t z) → (t.meter q).zone = 8#4) ∧
       ((∀ z, z < 134 → zoneGoverns z q = true → ¬crowded t z) → (t.meter q).zone = 0#4)) ∧
     (∀ z, z ∈ t.pow.zoned ↔ z < 134 ∧ crowded t z) ∧
     (t.mcr.alertPend.getLsbD 0 = true ↔ s.mcr.alertPend.getLsbD 0 = true ∨ (∃ z, z ∈ t.pow.tripped ∧ z ∉ s.pow.tripped) ∨
       ∃ n, n < 664 ∧ isThermal n = true ∧ s.talertNow ≤ (t.sensor n).pub ∧ (s.sensor n).pub < s.talertNow) ∧
     (t.mcr.alertPend.getLsbD 1 = true ↔ s.mcr.alertPend.getLsbD 1 = true ∨ (∃ z, z ∈ t.pow.zoned ∧ z ∉ s.pow.zoned) ∨
       ∃ n, n < 664 ∧ (t.sensor n).suspect = true ∧ (s.sensor n).suspect = false) ∧
     (t.mcr.alertPend.getLsbD 2 = true ↔ s.mcr.alertPend.getLsbD 2 = true ∨ (gov = 15 ∧ lim < pwr)) ∧
     t.mcr.alertPend.getLsbD 3 = s.mcr.alertPend.getLsbD 3) ∧
    (∀ q, q < 512 →
      let hot (z : Nat) (lim : Int) : Prop := ∃ n ∈ zoneSensors z, isThermal n = true ∧ lim ≤ (t.sensor n).pub
      ((t.meter q).trip = 15#4 ↔ ∃ z, z < 134 ∧ zoneGoverns z q = true ∧
        (hot z 1680 ∨ (z ∈ s.pow.tripped ∧ hot z 1600))) ∧
      (t.meter q).mc = (s.meter q).mc ∧ (t.meter q).emergency = (s.meter q).emergency ∧
      (t.meter q).learned = (s.meter q).learned) ∧
    t.sramNat 0x1FFB04 4 = pwr % 2 ^ 32 ∧ t.mc.evtPend.getLsbD 3 = true ∧ t.pow.sweeps = s.pow.sweeps + 1 ∧
    ∀ a, a < 0x1FFB00 → t.mem.byte (.sram a) = s.mem.byte (.sram a)

namespace Sys2Proof.Claims

/-- The entry that a new signature takes (R458): the lowest without V, or else the lowest of those with the fewest HITS. -/
def Victim (e : Nat → DroopEntry) (i : Nat) : Prop :=
  ((e i).valid = false ∧ ∀ j, j < i → (e j).valid = true) ∨
  ((∀ j, j < 32 → (e j).valid = true) ∧ (∀ j, j < i → (e i).hits.toNat < (e j).hits.toNat) ∧
    ∀ j, j < 32 → (e i).hits.toNat ≤ (e j).hits.toNat)

end Sys2Proof.Claims

/-- R455 to R460: a droop raises the emergency request and teaches its region's table; a tick shifts each region's signature,
formed of the DATA tokens its meters admitted, counts down, counts replays, of which 64 in a quadrant are a droop, matches the
table and charges the rail; both requests end when their time has passed. An expiry that is not due leaves the state as it is
(log entries 8 and 32). -/
def Obligations.DroopsAndTicks : Prop :=
  (∀ (s : State) (r q : Nat), r < 128 → q < 4 →
    let m := s.meter (4 * r + q)
    let x := s.region r
    let entry (t : State) (i : Nat) : DroopEntry := Table.get (t.region r).droop i DroopEntry.empty
    (Completes (.droop r q) s fun t => t.mem = s.mem ∧
      t.meter (4 * r + q) = { m with emergency := 12#4, emergencyTicks := 8, droops := m.droops + 1#32 } ∧
      (∀ k, k ≠ 4 * r + q → t.meter k = s.meter k) ∧
      (x.sig = 0#32 → (t.region r).droop = x.droop) ∧
      (∀ h, x.hold = some h → (t.region r).hold = some { h with drooped := true }) ∧
      (x.sig ≠ 0#32 → (∀ i, i < 32 → (entry s i).valid = true → (entry s i).sig ≠ x.sig) →
        ∃ i, i < 32 ∧ Victim (entry s) i ∧ entry t i =
            { hits := 0#8, valid := true, quiet := 0#6, hold := 16#8, step := 4#4, sig := x.sig } ∧
          ∀ j, j ≠ i → entry t j = entry s j) ∧
      ∀ i, i < 32 → x.sig ≠ 0#32 → (entry s i).valid = true → (entry s i).sig = x.sig →
        (∀ j, j < i → (entry s j).valid = false ∨ (entry s j).sig ≠ x.sig) →
        entry t i = { entry s i with step := BitVec.ofNat 4 (min 15 ((entry s i).step.toNat + 2)), quiet := 0#6 }) ∧
    (m.emergencyTicks = 0 → Completes (.emergencyExpire r q) s fun t => t.mem = s.mem ∧
      t.meter (4 * r + q) = { m with emergency := 0#4 } ∧ ∀ k, k ≠ 4 * r + q → t.meter k = s.meter k) ∧
    (m.emergencyTicks ≠ 0 → Completes (.emergencyExpire r q) s fun t => t = s) ∧
    ∀ h, x.hold = some h → h.ticks = 0 → Completes (.learnedHoldExpire r) s fun t => t.mem = s.mem ∧
      (t.region r).hold = none ∧ (∀ k, k < 4 → (t.meter (4 * r + k)).learned = 0#4) ∧
      (h.drooped = false → (entry s h.entry).valid = true →
        ((entry s h.entry).quiet.toNat + 1 < 32 →
          entry t h.entry = { entry s h.entry with quiet := (entry s h.entry).quiet + 1#6 }) ∧
        (32 ≤ (entry s h.entry).quiet.toNat + 1 → (entry t h.entry).quiet = 0#6 ∧
          (entry t h.entry).step = (entry s h.entry).step - 1#4 ∧
          ((entry t h.entry).valid = false ↔ (entry s h.entry).step = 1#4)))) ∧
  ∀ (s : State) (ticks : List RegionTick), Completes (.tickEnd ticks) s fun t => t.mem = s.mem ∧
    t.pow.tick = s.pow.tick + 1 ∧
    (∀ r y, r < 128 → ticks.find? (fun e => e.region == r) = some y →
      let x := s.region r
      let was (q : Nat) : Nat := (s.meter (4 * r + q)).admitted
      let now (q : Nat) : Nat := (s.meter (4 * r + q)).admitting
      let sig := (t.region r).sig
      (∀ q, q < 4 → (sig.getLsbD q = true ↔ 1024 ≤ now q ∧ 5 * was q < 4 * now q)) ∧
      (∀ k, k < 28 → sig.getLsbD (k + 4) = x.sig.getLsbD k) ∧
      (∀ q, q < 4 → (t.meter (4 * r + q)).admitted = now q ∧ (t.meter (4 * r + q)).admitting = 0 ∧
        (t.meter (4 * r + q)).replays = (s.meter (4 * r + q)).replays + BitVec.ofNat 64 (y.replays.toList.getD q 0) ∧
        (y.replays.toList.getD q 0 < 64 →
          (t.meter (4 * r + q)).emergencyTicks = (s.meter (4 * r + q)).emergencyTicks - 1 ∧
          (t.meter (4 * r + q)).emergency = (s.meter (4 * r + q)).emergency ∧
          (t.meter (4 * r + q)).droops = (s.meter (4 * r + q)).droops) ∧
        (64 ≤ y.replays.toList.getD q 0 → (t.meter (4 * r + q)).emergency = 12#4 ∧
          (t.meter (4 * r + q)).emergencyTicks = 8 ∧
          (t.meter (4 * r + q)).droops = (s.meter (4 * r + q)).droops + 1#32)) ∧
      let taught := (y.replays.toList.filter (fun n => decide (64 ≤ n))).foldl (fun d _ => teach d x.sig) x.droop
      let held (i : Nat) : DroopEntry := Table.get taught i DroopEntry.empty
      ((∀ i, i < 32 → (held i).valid = false ∨ (held i).sig ≠ sig) → (t.region r).droop = taught) ∧
      ∀ i, i < 32 → sig ≠ 0#32 →
        let e := held i
        e.valid = true → e.sig = sig → (∀ j, j < i → (held j).valid = false ∨ (held j).sig ≠ sig) →
        (t.region r).hold = some { entry := i, ticks := e.hold.toNat, drooped := false } ∧
        (∀ q, q < 4 → (t.meter (4 * r + q)).learned = e.step) ∧
        Table.get (t.region r).droop i DroopEntry.empty = { e with hits := BitVec.ofNat 8 (min 255 (e.hits.toNat + 1)) }) ∧
    ∀ y n k, ticks = [y] → y.region < 128 → s.clusterOf y.region = some n → s.cluster? n = some k →
      k.abort.any Abort.written = false →
      t.cluster? n = some { k with energy := k.energy + BitVec.ofNat 64 y.nanojoules }

/-- R401, R402: a member's phase is heard by the descriptor that governs its tag, and MINPH is the smallest phase of its SET;
setting V clears the phases. -/
def Sys2Proof.Claims.PacingPhases : Prop :=
  (∀ (s : State) (m gtag i : Nat) (phase : W64), s.mem.wf = true →
    s.paceLive.find? (fun k => s.paceTag k == gtag && (s.paceSet k).contains m) = some i →
    let heard (k : Nat) : Nat := if k = m then phase.toNat else s.heardFrom i k
    let others := (s.paceSet i).filter (fun k => k != s.member)
    Completes (.phaseMessage m gtag phase) s fun t =>
      let v := t.sramNat (paceAt i + 16) 8
      (∀ k, k < 576 → t.heardFrom i k = heard k) ∧ v ≤ s.pacePhase i ∧ (∀ k ∈ others, v ≤ heard k) ∧
      (v = s.pacePhase i ∨ ∃ k ∈ others, v = heard k) ∧
      ∀ a, a < paceAt i + 16 ∨ paceAt i + 24 ≤ a → t.mem.byte (.sram a) = s.mem.byte (.sram a)) ∧
  ∀ (s : State) (i : Nat), i < 16 → s.mem.wf = true → s.sramNat (paceAt i) 1 % 2 = 0 →
    Completes (.pacingDescriptorValid i) s fun t => t.sramNat (paceAt i) 1 = s.sramNat (paceAt i) 1 + 1 ∧
      t.pacePhase i = 0 ∧ t.sramNat (paceAt i + 16) 8 = 0 ∧ (∀ m, m < 1024 → t.heardFrom i m = 0) ∧
      ∀ a, a < paceAt i ∨ paceAt i + 24 ≤ a → t.mem.byte (.sram a) = s.mem.byte (.sram a)

/-- Gives between packages and the phases of a paced collective. The words of the messages are log entry 32. -/
def Obligations.EnergyExchange : Prop :=
  Claims.BudgetGives ∧ Claims.PacingPhases

namespace Sys2Proof.Claims

/-! ## Launching, placement and the ends of clusters -/

/-- Every caravan but one is as it was. -/
def OtherCaravans (s t : State) (c : Nat) : Prop := ∀ m, m ≠ c → t.caravan m = s.caravan m

/-- A caravan has left its last head (R110). -/
def CaravanEnds (t : State) (c : Nat) : Prop :=
  (t.caravan c).state = .ended ∧ (t.caravan c).recd = none ∧ (t.caravan c).head = 0#64

/-- A caravan has stalled at an address it cannot wait at, with its alert (R110). -/
def CaravanStalls (t : State) (c : Nat) (next : W64) : Prop :=
  (t.caravan c).state = .stalled ∧ (t.caravan c).recd = none ∧ (t.caravan c).head = next ∧ .stalled c ∈ t.disp.notices

/-- A caravan waits at its next cell, with the dispatcher's two reads of it (R110, R111). -/
def CaravanWaits (t : State) (c : Nat) (next : W64) : Prop :=
  (t.caravan c).state = .waiting ∧ (t.caravan c).recd = none ∧ (t.caravan c).head = next ∧
  (t.readsOf (.carHead c)).length = 2

/-- A caravan leaves its head and goes on to NEXT (R110): it ends at 0, stalls at a misaligned address or at one that does not
translate to single-assignment pages from `u`, and else waits there. -/
def CaravanGoes (u t : State) (c : Nat) (next : W64) : Prop :=
  (next = 0#64 → CaravanEnds t c) ∧ (next.toNat % 128 ≠ 0 → CaravanStalls t c next) ∧
  (next ≠ 0#64 → next.toNat % 128 = 0 → ∀ v b, (u.dropCaravanReads c).askHead c (u.caravan c).asid next.toNat = (v, b) →
    (b = true → CaravanWaits t c next) ∧ (b = false → CaravanStalls t c next))

/-- A record of a caravan is rejected with a reason and the caravan goes on (R110, R113): memory is what the store of the
completion record leaves, and an unwritable record raises a notice. -/
def Rejects (s t : State) (c : Nat) (l : LaunchRec) (reason : Nat) : Prop :=
  let r := s.writeCompl (s.caravan c).asid l.compl (complBytes 1 reason 0x1FF 0xFF 0 (s.caravan c).asid Counts.zero 0 0)
  CaravanGoes r.1 t c l.next ∧ OtherCaravans s t c ∧ t.mem = r.1.mem ∧
  (r.2 = false → .recordUnwritable c ∈ t.disp.notices)

/-- The record a waiting caravan's head holds once both its granules are FULL and read (R111, R112). -/
def HeadRead (s : State) (c : Nat) (l : LaunchRec) (mark : Bool) : Prop :=
  ∃ r0 r1, s.readsOf (.carHead c) = [r0, r1] ∧ r0.answer.isSome = true ∧ r1.answer.isSome = true ∧
    s.mem.gst r0.place = .full ∧ s.mem.gst r1.place = .full ∧ mark = s.mem.mark r0.place ∧
    l = recordOf (s.loadBytes (s.caravan c).asid r0.place 64 ++ s.loadBytes (s.caravan c).asid r1.place 64)

/-- The head of one caravan alone is ready. -/
def OnlyHead (s : State) (c : Nat) (h : Head) : Prop :=
  c < 192 ∧ h.recd.prio.toNat < 8 ∧ s.headOf? c = some h ∧ ∀ m, m < 192 → m ≠ c → s.headOf? m = none

/-- A running cluster that may be pre-empted for a head of a priority (R116). -/
def MayYield (s : State) (prio : Nat) (x : Nat × Cluster) : Prop :=
  x ∈ s.disp.clusters ∧ prio < x.2.recd.prio.toNat ∧ x.2.recd.noPre = false ∧ x.2.abort = none ∧
  (∀ sn, x.2.snap = some sn → sn.preempt = none) ∧ s.canComplete x.1 x.2 = false

/-- One victim is taken before another (R116): the numerically larger priority first, then the one placed later. -/
def YieldsBefore (x y : Nat × Cluster) : Prop :=
  y.2.recd.prio.toNat < x.2.recd.prio.toNat ∨ (x.2.recd.prio.toNat = y.2.recd.prio.toNat ∧ y.2.order ≤ x.2.order)

/-- The victims of a head (R116): the shortest run of the candidates, in their order, with whose regions and banks it fits; none
where no run is enough. -/
def VictimsOf (s : State) (c : Nat) (h : Head) (vs : List (Nat × Cluster)) : Prop :=
  let fits (l : List (Nat × Cluster)) : Bool :=
    (s.fitHead c h (l.flatMap (fun x => x.2.regions)) (l.flatMap (fun x => x.2.banks))).isSome
  ∃ order : List (Nat × Cluster), order.Pairwise (fun x y => x.1 ≠ y.1 ∧ YieldsBefore x y) ∧
    (∀ x, x ∈ order ↔ MayYield s h.recd.prio.toNat x) ∧
    ((∃ n, 0 < n ∧ n ≤ order.length ∧ vs = order.take n ∧ fits vs = true ∧
      ∀ m, 0 < m → m < n → fits (order.take m) = false) ∨
     (vs = [] ∧ ∀ m, 0 < m → m ≤ order.length → fits (order.take m) = false))

/-- A pre-emption has begun for a victim (R116, R420): a snapshot under way is joined, and else one begins under the next
number. -/
def snapFor (c : Nat) (k : Cluster) : Cluster :=
  { k with snap := some { preempt := some c, number := (k.snap.map Snap.number).getD (k.snapCount + 1#32) } }

/-- What a restore of a saved cluster in regions and banks asks for (R145, R430, R431): its cluster at an offset, and the state
whose save store no longer holds it. -/
def restoring (s : State) (sv : Saved) (rs bs : List Nat) (off : Int × Int) : State × Cluster :=
  ({ s with disp := { s.disp with
      saved := s.disp.saved.filter (fun x => x.number != sv.number), nextCluster := s.disp.nextCluster + 1 } },
   { sv.cluster with
      regions := rs, banks := bs, dx := off.1, dy := off.2, order := s.disp.nextCluster
      energy := sv.cluster.energy + moveEnergy sv.image { sv.cluster with banks := bs } })

/-- A region of a saved cluster runs again where it now stands (R430). -/
def RegionBack (t : State) (sv : Saved) (off : Int × Int) (r : Nat) (x : Region) : Prop :=
  let y := t.region r
  y.cluster = some sv.number ∧ y.core = (if x.core.run = .frozen then { x.core with run := .running } else x.core) ∧
  y.arcs = x.arcs ∧ y.ports = x.ports ∧ y.cache.map (fun e => (e.cseq, e.state, e.exitSt)) =
    x.committed.map (fun e => (e.cseq, e.state, e.exitSt)) ∧
  (off = (sv.cluster.dx, sv.cluster.dy) → ∀ n, (y.site n).frozen = false ∧ (y.site n).lfsr = (x.site n).lfsr ∧
    (y.site n).kept = (x.site n).kept ∧ (y.site n).mode = (x.site n).mode)

/-- The image of a ready record as its granules hold it (R126). -/
def ImageRead (s : State) (c : Nat) (l : LaunchRec) (s2 : State) (h : Header) (img : List Byte) : Prop :=
  ∃ s1 b raw, s.asGranules (.measure c) (s.caravan c).asid 2 l.image.toNat [] = (s1, .ok b) ∧ headerBad b = false ∧
    h = headerOf b ∧
    s1.asGranules (.measure c) (s.caravan c).asid ((h.imageLen.toNat + 63) / 64) l.image.toNat [] = (s2, .ok raw) ∧
    img = raw.take h.imageLen.toNat

/-- The handing of banks to an address space (R133, R141): a bank another held last, and every bank of a single-assignment
partition, reads zero and EMPTY; no other byte changes. -/
def BanksHanded (s t : State) (asid : Nat) (psa : Bool) (bs : List Nat) : Prop :=
  (∀ q, (∀ b y, q ≠ .bank b y) → t.mem.byte q = s.mem.byte q) ∧
  ∀ b y, y < 262144 →
    (b ∈ bs → psa = true ∨ Table.find? s.disp.bankAsid b ≠ some asid →
      t.mem.byte (.bank b y) = 0#8 ∧ t.mem.gst (.bank b y) = .empty) ∧
    (b ∉ bs → t.mem.byte (.bank b y) = s.mem.byte (.bank b y) ∧ t.mem.gst (.bank b y) = s.mem.gst (.bank b y))

/-- The layout of a completion record (R464). -/
def RecordLaidOut : Prop :=
  ∀ (status reason site region cidx asid : Nat) (c : Sys2Proof.Machine.Counts) (energy elapsed : Nat),
    c.hd.length = 4 → c.dl.length = 5 →
    let b := complBytes status reason site region cidx asid c energy elapsed
    b.length = 128 ∧ fieldLe b 0 1 = status % 256 ∧ fieldLe b 1 1 = reason % 256 ∧ fieldLe b 2 2 = site % 65536 ∧
    fieldLe b 4 1 = region % 256 ∧ fieldLe b 5 1 = cidx % 256 ∧ fieldLe b 6 2 = asid % 65536 ∧
    fieldLe b 8 8 = c.exitLast.toNat ∧ fieldLe b 16 8 = c.iters.toNat ∧
    (∀ i, i < 4 → fieldLe b (24 + 8 * i) 8 = (c.hd.getD i 0#64).toNat) ∧ fieldLe b 56 8 = 0 ∧
    (∀ i, i < 5 → fieldLe b (64 + 8 * i) 8 = (c.dl.getD i 0#64).toNat) ∧ fieldLe b 104 4 = c.dropmag.toNat ∧
    fieldLe b 108 4 = 0 ∧ fieldLe b 112 8 = energy % 2 ^ 64 ∧ fieldLe b 120 8 = elapsed % 2 ^ 64

/-- The counts of a cluster's record (R464): EXIT_LAST of CLUSTER_INDEX 0, and sums over every region and every copy, which
wrap. -/
def CountsTaken (s : State) (k : Cluster) (c : Sys2Proof.Machine.Counts) : Prop :=
  let ts := k.regions.flatMap (fun r => (s.region r).sites.map Prod.snd)
  let total (f : Site → W64) (x : W64) : Prop := x.toNat = (ts.map (fun t => (f t).toNat)).sum % 2 ^ 64
  c.exitLast = (s.core (.seq (k.regions.getD 0 0))).exitLast ∧
  c.iters.toNat = (k.regions.map (fun r => (s.core (.seq r)).iter.toNat)).sum % 2 ^ 64 ∧
  (∃ full part empty skipb, c.hd = [full, part, empty, skipb] ∧ total (fun t => t.kept.hdFull) full ∧
    total (fun t => t.kept.hdPartial) part ∧ total (fun t => t.kept.hdEmpty) empty ∧ total (fun t => t.kept.hdSkipb) skipb) ∧
  (∃ tiles dense terms resid drop, c.dl = [tiles, dense, terms, resid, drop] ∧ total (fun t => t.kept.dlTiles) tiles ∧
    total (fun t => t.kept.dlDense) dense ∧ total (fun t => t.kept.dlTerms) terms ∧
    total (fun t => t.kept.dlResid) resid ∧ total (fun t => t.kept.dlDrop) drop) ∧
  c.dropmag = ((ts.filter Site.hasDload).map (fun t => t.kept.dlDropmag)).foldl addMag 0#32

/-- A measurement log with events of a kind extended to it in their order (R127): LOGH is the SHA-384 of the old LOGH, the
kind, the identifier and the digest, and LOGN counts each. -/
inductive Extended : Aspace → List (Nat × Nat × BitVec 384) → Aspace → Prop where
  | done (a : Aspace) : Extended a [] a
  | one (a b c : Aspace) (kind id : Nat) (d : BitVec 384) (rest : List (Nat × Nat × BitVec 384)) :
    b = { a with
      logh := vec384 (sha384 (bytes384 a.logh ++ beBytes 1 kind ++ beBytes 2 id ++ bytes384 d)), logn := a.logn + 1#32 } →
    Extended b rest c → Extended a ((kind, id, d) :: rest) c

/-- The `k`-th access at the ports can be performed: it is resolved to `p`, belongs to copy `n` of the element `c`, nothing
stands before it, and no uncorrectable error lies there (R289, R291, R338). -/
def PortReady (s : State) (k : Nat) (a : Access) (p : Place) (c : Ctx) (n : Nat) : Prop :=
  s.ports.pend[k]? = some a ∧ a.place = some p ∧ ownerOf s a = some (c, n) ∧ s.mayPerform k a p = true ∧
  s.eccAt p = false ∧ (n = 0 ∨ c.copySite n ≠ c.site) ∧ s.mem.wf = true

/-- A fatal fault of a cluster that stands in the save store. -/
def IsSaved (s : State) (f : Fatal) : Prop := ∃ x ∈ s.disp.saved, x.number = f.cluster

/-- The image of a caravan's head is logged before its first placement (R127): kind 1 and the image's digest, then kind 2 and
each configuration's digest; one already logged extends nothing. -/
def ImageLogged (s t : State) (c : Nat) (h : Header) : Prop :=
  ∀ a, s.aspace? (s.caravan c).asid = some a →
    (a.logged.contains h.digest = true → t.aspace? (s.caravan c).asid = some a) ∧
    (a.logged.contains h.digest = false → ∃ b, t.aspace? (s.caravan c).asid = some { b with logged := a.logged ++ [h.digest] } ∧
      Extended a ((1, 0, h.digest) :: (s.caravan c).configs.map (fun e => (2, e.1, e.2))) b)

end Sys2Proof.Claims

/-- R110 to R114, R126: a head record without a fault waits for its dependences, or is ready; one with a fault is rejected
with its reason, and the caravan goes on to NEXT; dependences that are all FULL make it ready and a VOID one rejects it (a
dependence seen FULL stays seen: log entry 43); the image is measured against its digest. -/
def Obligations.LaunchRecords : Prop :=
  (∀ (s : State) (c : Nat) (l : LaunchRec) (mark : Bool), (s.caravan c).state = .waiting → HeadRead s c l mark →
    (∀ s1, recordFault c (s.caravan c) l mark = none →
      (s.dropCaravanReads c).askDeps c (s.caravan c).asid l.depList = (s1, true) →
      Completes (.launchRecordRead c) s fun t => t.mem = s.mem ∧ OtherCaravans s t c ∧ t.caravan c =
        { s.caravan c with recd := some l, state := if l.depList = [] then .ready else .depwait, seen := [] }) ∧
    (∀ reason, recordFault c (s.caravan c) l mark = some reason →
      Completes (.launchRecordRead c) s fun t => Rejects (s.dropCaravanReads c) t c l reason) ∧
    (l.asidField.toNat ≠ (s.caravan c).asid → recordFault c (s.caravan c) l mark = some 1 ∨
      recordFault c (s.caravan c) l mark = some 2)) ∧
  (∀ (s : State) (c : Nat) (l : LaunchRec), (s.caravan c).state = .depwait → (s.caravan c).recd = some l →
    let rs := s.readsOf (.dep c)
    ((∀ r ∈ rs, ∃ b m, r.answer = some (.filled b m)) → Completes (.dependenceFill c) s fun t => t.mem = s.mem ∧
      OtherCaravans s t c ∧ t.caravan c = { s.caravan c with state := .ready, seen := List.range rs.length }) ∧
    ((∀ r ∈ rs, r.answer ≠ some .voided) → (∃ r ∈ rs, r.answer = none) → Completes (.dependenceFill c) s fun t =>
      t.mem = s.mem ∧ OtherCaravans s t c ∧ (t.caravan c).state = .depwait) ∧
    ((∃ r ∈ rs, r.answer = some .voided) →
      Completes (.dependenceFill c) s fun t => Rejects s t c l 4)) ∧
  ∀ (s s2 : State) (c : Nat) (l : LaunchRec) (h : Header) (img : List Byte), (s.caravan c).state = .ready →
    (s.caravan c).recd = some l → (s.caravan c).header = none → ImageRead s c l s2 h img →
    let aligned : Prop := ∀ e ∈ entriesOf img h, fieldLe e 8 8 % 64 = 0
    (imageDigest img = h.digest → aligned → Completes (.imageMeasure c) s fun t => t.mem = s.mem ∧ OtherCaravans s t c ∧
      t.caravan c = { s.caravan c with header := some h, configs := configDigests img h }) ∧
    (imageDigest img ≠ h.digest ∨ ¬aligned → Completes (.imageMeasure c) s fun t => Rejects s2 t c l 7)

/-- R115, R116, R127, R133, R136, R144, R430, R431: a round places a ready head that fits: its regions belong to a new
cluster, their sequencers run from byte 0, its banks are handed over, and its caravan goes on to NEXT; the image's measurement
is logged before its first placement in the address space. A head that does not fit and does not pre-empt changes nothing; one
that pre-empts begins the snapshot of its victims. A saved cluster that fits is restored; when its images are refused at the
offset asked for and at (0, 0) it meets RESTORE_FAILED, and one whose images meet an EMPTY granule waits (log entry 49). -/
def Obligations.ArbitrationPlaces : Prop :=
  (∀ (s : State) (c : Nat) (l : LaunchRec) (h : Header), OnlyHead s c (.fresh l h) →
    (∀ rs bs, s.fitHead c (.fresh l h) [] [] = some (rs, bs) → Completes .arbitrationRound s fun t =>
      let n := s.disp.nextCluster
      (∃ u, u.mem = t.mem ∧ u.disp.aspaces = t.disp.aspaces ∧ u.ports = s.ports ∧ u.free = s.free ∧
        (u.caravan c).asid = (s.caravan c).asid ∧ CaravanGoes u t c l.next) ∧
      OtherCaravans s t c ∧ ImageLogged s t c h ∧ BanksHanded s t (s.caravan c).asid l.psa bs ∧
      t.disp.nextCluster = n + 1 ∧ t.disp.lastWinner.toList.getD l.prio.toNat 0 = c ∧
      (∀ m, m ≠ n → t.cluster? m = s.cluster? m) ∧
      (∃ k, t.cluster? n = some k ∧ k.caravan = c ∧ k.asid = (s.caravan c).asid ∧ k.recd = l ∧ k.header = h ∧
        k.regions = rs ∧ k.banks = bs ∧ k.dx = 0 ∧ k.dy = 0 ∧ k.abort = none ∧ k.snap = none ∧ k.placedTick = s.pow.tick) ∧
      (∀ r ∈ rs, (t.region r).cluster = some n ∧ (t.region r).core.run = .running ∧ (t.region r).core.pc = 0#64 ∧
        (t.region r).core.priv = .graph) ∧
      ∀ r, r ∉ rs → t.region r = s.region r) ∧
    (s.fitHead c (.fresh l h) [] [] = none → l.preempts = false → (∀ k ∈ s.disp.clusters, k.2.abort = none) →
      Completes .arbitrationRound s fun t => t = s)) ∧
  (∀ (s : State) (c : Nat) (h : Head), OnlyHead s c h → s.fitHead c h [] [] = none → h.recd.preempts = true →
    s.preempting c = false → s.disp.clusters.Pairwise (fun x y => x.1 < y.1) →
    (∀ x ∈ s.disp.clusters, x.2.abort = none ∧ x.2.order < 2 ^ 64) →
    Completes .arbitrationRound s fun t => t.mem = s.mem ∧ t.disp.caravans = s.disp.caravans ∧
      ∃ vs, VictimsOf s c h vs ∧ (∀ x ∈ vs, t.cluster? x.1 = some (snapFor c x.2)) ∧
        (∀ n, (∀ x ∈ vs, x.1 ≠ n) → t.cluster? n = s.cluster? n) ∧
        ∀ r, (∀ x ∈ vs, r ∉ x.2.regions) → t.region r = s.region r) ∧
  ∀ (s : State) (c : Nat) (sv : Saved) (rs bs : List Nat), OnlyHead s c (.saved sv) → (s.caravan c).state ≠ .ready →
    (∀ x ∈ s.disp.saved, x.cluster.caravan = c → x.number = sv.number) →
    s.fitHead c (.saved sv) [] [] = some (rs, bs) →
    (∀ a, s.aspace? sv.cluster.asid = some a → ∀ x ∈ a.cells, x.reply = none) →
    let at' (off : Int × Int) : Recheck State := (restoring s sv rs bs off).1.restoreAt sv (restoring s sv rs bs off).2
    let asked := s.restoreOffset c sv.cluster
    (∀ off s1, off = asked ∨ (off = (0, 0) ∧ at' asked = .rejected) → at' off = .ok s1 → rs.Pairwise (fun x y => x ≠ y) →
      Completes .arbitrationRound s fun t =>
      (∃ k, t.cluster? sv.number = some k ∧ k.regions = rs ∧ k.banks = bs ∧ (k.dx, k.dy) = off ∧ k.recd = sv.cluster.recd ∧
        k.asid = sv.cluster.asid ∧ k.caravan = sv.cluster.caravan ∧ k.snapCount = sv.cluster.snapCount ∧
        k.barArrived = sv.cluster.barArrived ∧ k.barGen = sv.cluster.barGen) ∧
      (∀ x ∈ t.disp.saved, x.number ≠ sv.number) ∧ t.disp.lastWinner.toList.getD sv.cluster.recd.prio.toNat 0 = c ∧
      ∀ (i r : Nat) (x : Region), rs[i]? = some r → sv.regions[i]? = some x → RegionBack t sv off r x) ∧
    (at' asked = .rejected → at' (0, 0) = .rejected → Completes .arbitrationRound s fun t =>
      ∃ f ∈ t.disp.fatal, f.cluster = sv.number ∧ f.cls = 0x16#8) ∧
    (at' asked = .waits → Completes .arbitrationRound s fun t => t = s)

/-- R142, R373, R417 to R419, R463 to R466: a cluster whose program has ended completes: its record, with the counts, energy
and ticks of the cluster in R464's layout, is stored or a notice raised; its regions are free and zero and the next
arbitration round runs next; it does not complete while a region runs, an instance stands, or an access or an engine command
of it is left. The first fatal fault of a cluster that is not saved aborts it: the stores that have reached their ports are
performed, its counts are kept, its sequencers stop, its other accesses are withdrawn and its engine commands end; a later one
changes nothing, and one of a saved cluster waits until it is restored. -/
def Sys2Proof.Claims.ClusterEnds : Prop :=
  RecordLaidOut ∧
  (∀ (s : State) (n : Nat) (k : Cluster), s.cluster? n = some k → s.canComplete n k = true →
    Completes (.clusterComplete n) s fun t =>
      (∃ c, CountsTaken s k c ∧
        let r := s.writeCompl k.asid k.recd.compl (complBytes 0 0 0x1FF 0xFF 0 k.asid c (k.energy.toNat / 1000) (s.elapsed k))
        (∀ q, (∀ x tile o, q ≠ .tile x tile o) → t.mem.byte q = r.1.mem.byte q ∧ t.mem.gst q = r.1.mem.gst q) ∧
        (r.2 = false → .recordUnwritable k.caravan ∈ t.disp.notices)) ∧
      t.agenda = .event .arbitrationRound :: s.agenda ∧ t.cluster? n = none ∧ (∀ m, m ≠ n → t.cluster? m = s.cluster? m) ∧
      (∀ r ∈ k.regions, (t.region r).cluster = none ∧ (t.region r).sites = [] ∧ (t.region r).arcs = [] ∧
        (t.region r).cache = [] ∧ ∀ tile o, tile < 64 → o < 196608 → t.mem.byte (.tile r tile o) = 0#8) ∧
      ∀ a ∈ t.ports.pend, a.region ∉ k.regions) ∧
  (∀ (s : State) (n : Nat) (k : Cluster), s.cluster? n = some k →
    k.abort.isSome = true ∨ (∃ r ∈ k.regions, (s.region r).core.run ≠ .halted ∨ (s.region r).committed ≠ []) ∨
      (∃ e, ∃ x ∈ s.queueOf e, x.cluster = some n) ∨ (∃ a ∈ s.ports.pend, a.cluster = n) →
    exec (.clusterComplete n) s = .next s) ∧
  (∀ (s : State), (∀ f ∈ s.disp.fatal, IsSaved s f) → exec .clusterAbort s = .next s) ∧
  (∀ (s : State) (f : Fatal) (rest : List Fatal) (k : Cluster), s.disp.fatal = f :: rest → ¬IsSaved s f →
    s.cluster? f.cluster = some k → k.abort = none →
    (Completes .clusterAbort s fun t => (∃ x a, t.cluster? f.cluster = some x ∧ x.abort = some a ∧ a.written = true) ∧
      ∀ e, e < 24 → ∀ x ∈ t.queueOf e, x.cluster ≠ some f.cluster) ∧
    ∀ a b y c n, s.ports.pend = [a] → PortReady s 0 a (.bank b y) c n → a.kind = .store → a.sa = false →
      a.cluster = f.cluster → y % 64 = 0 → k.recd.psa = false → s.noCommands f.cluster = true →
      let p : Place := .bank b y
      Completes .clusterAbort s fun t => ∀ b' y', let q : Place := .bank b' y'
        t.mem.byte q = if Within p 64 q then (beatBytes a.data).getD (q.key - p.key) 0#8 else s.mem.byte q) ∧
  ∀ (s : State) (f : Fatal) (older rest : List Fatal) (k : Cluster), s.disp.fatal = older ++ f :: rest →
    (∀ g ∈ older, IsSaved s g) → ¬IsSaved s f → s.cluster? f.cluster = some k →
    (k.abort = none → s.noCommands f.cluster = true → (∀ a ∈ s.ports.pend, a.kind = .load ∨ a.cluster ≠ f.cluster) →
      Completes .clusterAbort s fun t => t.disp.fatal = older ++ rest ∧
      (∃ a, t.cluster? f.cluster = some { k with abort := some a, snap := none } ∧ a.written = true ∧ a.cls = f.cls ∧
        a.region = f.region ∧ a.site = f.site ∧ a.cidx = k.indexOf f.region ∧ CountsTaken s k a.counts) ∧
      (∀ m, m ≠ f.cluster → t.cluster? m = s.cluster? m) ∧
      (∀ r ∈ k.regions, (t.region r).core.run ≠ .running ∧ (t.region r).core.run ≠ .frozen ∧
        (t.region r).core.wait = .none) ∧
      (∀ a ∈ t.ports.pend, a.region ∉ k.regions) ∧ .aborted f.cluster ∈ t.disp.notices ∧ t.disp.abortLog.length ≤ 16 ∧
      t.disp.abortLog.head? = some (abortNotice k f.cls.toNat (k.indexOf f.region) f.site)) ∧
    (k.abort.isSome = true → exec .clusterAbort s = .next { s with disp := { s.disp with fatal := older ++ rest } })

/-- R416, R421 to R424, R426: an element at which COMMA stands freezes with its copies and sends COMMA on; a complete
checkpoint keeps its image, which stands in the save store encrypted unit by unit, and the cluster runs on; a complete
pre-emption leaves the cluster in the save store with its engine commands, and its regions free. A copy that has adopted ahead
of copy 0 freezes with what runs at copy 0's site: the model's reading (log entry 28); which pages of the save store an image
takes is the model's (log entry 49). -/
def Sys2Proof.Claims.Snapshots : Prop :=
  (∀ (s : State) (r site : Nat),
    let x := s.region r
    let member (m : Nat) : Prop := (x.site m).frozen = false ∧ ∃ l q, (x.site m).active = some l ∧ l.recd = some q ∧ q.site = site
    x.sites.Pairwise (fun a b => a.1 < b.1) → x.commaAt site = true → (∃ m, member m) →
    Completes (.elementFreeze r site) s fun t => t.mem = s.mem ∧
      (∀ m, member m → ((t.region r).site m).frozen = true) ∧ (∀ m, ¬ member m → (t.region r).site m = x.site m) ∧
      ∀ e ∈ x.committed, ∀ n a, e.cfg.arcs[n]? = some a → a.pseq = false → a.psite = site →
        ((t.region r).arc e.cseq n).comma = true) ∧
  ∀ (s : State) (n : Nat) (k : Cluster) (sn : Snap), s.cluster? n = some k → k.snap = some sn → s.mem.wf = true →
    (s.quiesce k).snapReady n k = true →
    (sn.preempt = none → Completes (.snapshotComplete n) s fun t =>
      (∀ q, (∀ a, q = .hbm a → a < saveStore) → t.mem.byte q = s.mem.byte q ∧ t.mem.gst q = s.mem.gst q) ∧
      (∃ c img raw, t.cluster? n = some c ∧ c.snap = none ∧ c.snapCount = k.snapCount + 1#32 ∧ c.checkpoint = some img ∧
        c.regions = k.regions ∧ img.len = raw.length ∧ fieldLe raw 0 4 = 0x534E4150 ∧ fieldLe raw 4 4 = sn.number.toNat ∧
        fieldLe raw 8 2 = k.asid % 65536 ∧ fieldLe raw 16 8 = raw.length % 2 ^ 64 ∧
        ∀ i, i < (raw.length + 63) / 64 → t.mem.bytes (.hbm (unitAddr img.pages i)) 64 =
          aesXts (t.imageKey k.asid img.keyed) (t.gpaOf (unitAddr img.pages i) / 64) true (slice raw (64 * i) 64)) ∧
      ∀ r ∈ k.regions, (s.region r).core.run = .frozen → (t.region r).core.run = .running) ∧
    (sn.preempt ≠ none → Completes (.snapshotComplete n) s fun t => t.cluster? n = none ∧
      (∃ sv ∈ t.disp.saved, sv.number = n ∧ sv.cluster.asid = k.asid ∧ sv.cluster.recd = k.recd ∧
        sv.cluster.snapCount = k.snapCount + 1#32 ∧ ∀ e x, (e, x) ∈ sv.cmds ↔ (∃ q ∈ s.engines, q.1 = e ∧ x ∈ q.2) ∧
          x.cluster = some n) ∧
      (∀ e, e < 24 → ∀ x ∈ t.queueOf e, x.cluster ≠ some n) ∧
      ∀ r ∈ k.regions, (t.region r).cluster = none)

/-- How a cluster ends, and its snapshot. What freezes with an element is log entry 28, and where an image stands in the save store log entry 49. -/
def Obligations.ClusterLife : Prop :=
  Claims.ClusterEnds ∧ Claims.Snapshots

namespace Sys2Proof.Claims

/-! ## Configurations and control tokens -/

/-- Nothing outside a region differs, and no byte of memory. -/
def OnlyRegion (s t : State) (r : Nat) : Prop := t = s.setRegion r (t.region r)

/-- A fetch in the background leaves the region's cache with one entry more, and every older entry (R195, R212). -/
def Fetched (s t : State) (r id : Nat) (st : EntryState) (cfg : Cfg) (pred : Bool) : Prop :=
  t.mem = s.mem ∧ ∃ e, (t.region r).cache = (s.region r).cache ++ [e] ∧ e.state = st ∧ e.cfgid = id ∧ e.cfg = cfg ∧
    e.byPred = pred

/-- What a background fetch of an identifier can do, where the cache has a FREE entry (R195). -/
def FetchesOf (i : Instr) (s s0 : State) (r id : Nat) (pred : Bool) : Prop :=
  ∀ kn k, s.moves r = true → s.clusterOf r = some kn → s.cluster? kn = some k → (s.region r).wantsFetch id = true →
    (s.region r).cache.length < 8 →
    (∀ s1 cfg ex, s0.fetchImage (.core (.seq r)) kn k r id = (s1, .ok cfg ex) →
      Completes i s fun t => Fetched s t r id .fetched cfg pred) ∧
    (∀ s1 w, s0.fetchImage (.core (.seq r)) kn k r id = (s1, .rejected w) →
      Completes i s fun t => Fetched s t r id .rejected Cfg.empty pred) ∧
    ∀ s1, s0.fetchImage (.core (.seq r)) kn k r id = (s1, .missing) →
      Completes i s fun t => t.mem = s.mem ∧ (t.region r).cache = (s.region r).cache

/-- A site stands under a record it has just adopted (R196, R200, R51): the mode word and the seed are the record's. -/
def Adopted (t : State) (r site : Nat) (old : Site) (n : Loaded) : Prop :=
  let y := (t.region r).site site
  y.active = some n ∧ y.next = none ∧ y.discard = old.discard ∧ y.kept = old.kept ∧ y.srcEnd = false ∧ y.fired = 0 ∧
  ∀ q, n.recd = some q → y.mode = q.mode0 ∧ y.lfsr = lfsrLoad q.seed n.copy ∧ y.op = opInit q

end Sys2Proof.Claims

/-- R194 to R196, R200, R212, R435: while no snapshot has reached the region, a committed instance reaches a site's next
register, as its record or as an empty one, and background fetches fill the cache; a site that runs nothing adopts when its
instance is LIVE, and an element that runs a record when SWITCHOVER stands at each of its ports, which it consumes and passes
on. -/
def Obligations.ConfigurationEvents : Prop :=
  (∀ (s : State) (r site : Nat) (e : Entry),
    let x := s.region r
    s.moves r = true → site < 512 → (x.site site).next = none → (x.site site).frozen = false →
    x.committed.find? (fun y => decide (x.adopted site < y.cseq)) = some e →
    (∀ q k, e.cfg.recAt site = some (q, k) → Completes (.configLoad r site) s fun t => OnlyRegion s t r ∧
      (t.region r).site site = { x.site site with next := some { cseq := e.cseq, cfgid := e.cfgid, recd := some q, copy := k } } ∧
      ∀ m, m ≠ site → (t.region r).site m = x.site m) ∧
    (e.cfg.recAt site = none → Completes (.configLoad r site) s fun t => OnlyRegion s t r ∧
      (t.region r).site site = { x.site site with next := some { cseq := e.cseq, cfgid := e.cfgid, recd := none, copy := 0 } } ∧
      ∀ m, m ≠ site → (t.region r).site m = x.site m)) ∧
  (∀ (s : State) (r id : Nat) (rest : List Nat), (s.region r).prefetch = id :: rest →
    FetchesOf (.prefetchCheck r) s (s.mapRegion r (fun x => { x with prefetch := rest })) r id false) ∧
  (∀ (s : State) (r id : Nat), (s.region r).predReady = true → id < 65536 →
    FetchesOf (.predictorFetch r id) s (s.mapRegion r (fun x => { x with predReady := false })) r id true) ∧
  (∀ (s : State) (r site : Nat) (n : Loaded),
    let x := s.region r
    s.runs r = true → (x.site site).frozen = false →
    (x.site site).busy = false → (x.site site).next = some n → (∃ e, x.held n.cseq = some e ∧ e.state = .live) →
    Completes (.elementAdopt r site) s fun t => OnlyRegion s t r ∧ Adopted t r site (x.site site) n ∧
      (t.region r).arcs = x.arcs) ∧
  ∀ (s : State) (r site : Nat) (c : Ctx) (ts : List Token) (tok : Token) (n : Loaded), ctxOf s r site = some c →
    c.recd.inMask ≠ 0 → c.recd.copies = 1 → elementOwes c = false → c.roomAll = true → c.ports.map c.head = ts.map some →
    (∀ u ∈ ts, u.kind = .switchover) → ts.head? = some tok → c.st.next = some n →
    (∃ e, c.x.held n.cseq = some e ∧ e.state = .live) → veDiscards c = 0 →
    Completes (.elementAdopt r site) s fun t => OnlyRegion s t r ∧ Adopted t r site c.st n ∧
      (t.region r).arcs = ((c.takeAll c.ports).emitAll tok).x.arcs

/-- R201, R203, R211, R226, R227, R293, R495: what control tokens do at a vector element that takes one token from each port:
STOP at every port is consumed and one of the largest depth goes on, MODE is taken and goes on, DATA before either, or before a
SWITCHOVER, is discarded and counted; the first exit of an instance stands at port 15 for WEX, and one behind a taken exit is
discarded, but each sets EXIT; the oldest instance retires, and the DATA, STOP and MODE tokens it leaves at elements are counted
there; a tile takes the store modes of the next instance. No exit arrives and no tile changes once a snapshot has reached the
region (R435), and no instance retires. -/
def Obligations.ControlTokens : Prop :=
  (∀ (s : State) (r site : Nat) (c : Ctx) (ts : List Token), ctxOf s r site = some c → c.recd.kind = .ve →
    c.recd.opc < 0x30 → c.st.op = .none → c.whole = true → c.ports.map c.head = ts.map some → ts ≠ [] →
    (∀ m, (∀ u ∈ ts, u.kind = .stop ∧ u.depth ≤ m) → (∃ u ∈ ts, u.depth = m) → c.roomAll = true →
      Completes (.stopHandling r site) s fun t => Moved s t c
        (((c.takeAll c.ports).discard (if ∀ u ∈ ts, u.depth = m then 0 else 1)).emitAll (stopTok m))) ∧
    ((∀ u ∈ ts, u.kind = .stop ∨ u.kind = .data) → (∃ u ∈ ts, u.kind = .stop) → (∃ u ∈ ts, u.kind = .data) →
      Completes (.stopHandling r site) s fun t => Moved s t c
        ((c.ports.filter (fun q => (c.dataAt q).isSome)).foldl Ctx.drop c)) ∧
    (∀ u, (∀ v ∈ ts, v.kind = .mode) → ts.head? = some u → c.roomAll = true →
      let m : Byte := u.payload.setWidth 8
      Completes (.modeHandling r site) s fun t => Moved s t c (((c.takeAll c.ports).takeMode m).emitAll (modeTok m))) ∧
    ((∀ u ∈ ts, u.kind = .mode ∨ u.kind = .data) → (∃ u ∈ ts, u.kind = .mode) → (∃ u ∈ ts, u.kind = .data) →
      Completes (.modeHandling r site) s fun t => Moved s t c
        ((c.ports.filter (fun q => (c.dataAt q).isSome)).foldl Ctx.drop c))) ∧
  (∀ (s : State) (r site p q : Nat) (c : Ctx) (u : Token), ctxOf s r site = some c → c.recd.kind = .ve →
    c.recd.opc < 0x30 → c.st.op = .none → c.head p = some u → u.kind ≠ .switchover → q ∈ c.ports → q ≠ p →
    c.headKind q = some .switchover → Completes (.switchoverDiscard r site p) s fun t => OnlyRegion s t r ∧
      (t.region r).arcs = (c.take p).x.arcs ∧ (t.region r).core.disc = true ∧
      ((t.region r).site site).discard = satInc c.st.discard) ∧
  (∀ (s : State) (r : Nat) (a : Nat × Nat) (u : Token) (e : Entry),
    let x := s.region r
    s.moves r = true → x.portAt 15 = some a → x.portHead 15 = some u → x.held a.1 = some e →
    (u.kind = .data → e.exitSt = .unsent → Completes (.exitArrival r) s fun t => OnlyRegion s t r ∧
      (t.region r).arcs = x.arcs ∧ (t.region r).core.evtPend = x.core.evtPend ||| 1#5 ∧
      (t.region r).held a.1 = some { e with exitSt := .arrived (u.payload.toNat % 8) }) ∧
    (∀ n, u.kind = .data → e.exitSt = .arrived n → Completes (.exitArrival r) s fun t => t = s) ∧
    (u.kind = .data ∧ (e.exitSt = .taken ∨ e.exitSt = .swept) ∨ u.kind = .stop ∨ u.kind = .mode →
      Completes (.exitArrival r) s fun t =>
      OnlyRegion s t r ∧ (t.region r).arcs = (x.pop a.1 a.2).arcs ∧ (t.region r).held a.1 = some e ∧
      (t.region r).core.evtPend = (if u.kind = .data then x.core.evtPend ||| 1#5 else x.core.evtPend) ∧
      (t.region r).core.seqDiscard = satInc x.core.seqDiscard ∧ (t.region r).core.disc = true) ∧
    (u.kind = .switchover → Completes (.exitArrival r) s fun t => OnlyRegion s t r ∧
      (t.region r).arcs = (x.pop a.1 a.2).arcs ∧ Table.get (t.region r).ports 15 0 = a.1 + 1)) ∧
  (∀ (s : State) (r kn : Nat) (k : Cluster) (e : Entry),
    let x := s.region r
    x.committed.head? = some e → s.clusterOf r = some kn → s.cluster? kn = some k → s.runs r = true → k.snap = none →
    canRetire s r e = true → Completes (.instanceRetire r) s fun t => OnlyRegion s t r ∧
      (t.region r).cache = x.cache.filter (fun y => y.cseq != e.cseq) ∧
      (∀ n, n < 1024 → (t.region r).arc e.cseq n = Arc.empty) ∧
      (∀ m n, m ≠ e.cseq → n < 1024 → (t.region r).arc m n = x.arc m n) ∧
      (∀ site, ((t.region r).site site).discard.toNat = min (2 ^ 32 - 1) ((x.site site).discard.toNat +
        ((e.cfg.arcs.zipIdx.filter (fun a => !a.1.cseq && a.1.csite == site)).map (fun a =>
          (((x.arc e.cseq a.2).queue ++ (x.arc e.cseq a.2).ctl.toList).filter
            (fun u => u.kind == .data || u.kind == .stop || u.kind == .mode)).length)).sum)) ∧
      ∀ site, (x.site site).active.any (fun l => l.cseq == e.cseq) = true → ((t.region r).site site).active = none) ∧
  ∀ (s : State) (r tile kn : Nat) (k : Cluster) (e : Entry),
    let x := s.region r
    let old := x.tileStore tile
    x.cluster = some kn → s.cluster? kn = some k → s.moves r = true →
    x.liveEntries.find? (fun y => decide (old.cseq < y.cseq)) = some e →
    (∀ i, i < 8 → e.cseq ≤ x.adopted (8 * tile + i)) → x.namedByOlder k.dx k.dy tile e.cseq = false →
    Completes (.storeModeChange r tile) s fun t => OnlyRegion s t r ∧
      let now := (t.region r).tileStore tile
      now.cseq = e.cseq ∧
      now.regions.map StoreRegion.word = (e.cfg.stores.filter (fun w => w.tile == tile)).map Store.word ∧
      (∀ q ∈ now.regions, q ∈ old.regions ∨ (q = StoreRegion.fresh q.word ∧ ∀ o ∈ old.regions, o.word ≠ q.word)) ∧
      ∀ m, m ≠ tile → (t.region r).tileStore m = x.tileStore m

namespace Sys2Proof.Claims

/-! ## Accesses at their ports, and the engines -/

/-- The agent of copy `n` of the element `c` as it stands. -/
def agentNow (t : State) (c : Ctx) (n : Nat) : Agent := ((t.region c.r).site (c.copySite n)).agent

/-- The access has left the ports. -/
def Gone (s t : State) (k : Nat) : Prop := t.ports.pend = s.ports.pend.eraseIdx k

/-- The load an element waits for is answered with a token made from the run's poison and record (R302, R305). -/
def AnsweredWith (t : State) (c : Ctx) (n id : Nat) (f : Bool → Option W32 → Token) : Prop :=
  (agentNow t c n).resp = ((c.agent n).fillLoad id f).resp

/-- A command is the engine's next of a kind: its issuer's first there, neither ended nor parked (R341). -/
def CmdStands (s : State) (e : Nat) (c : Cmd) (k : EClass) (kind : Nat) : Prop :=
  e < 24 ∧ engineClass e = k ∧ (s.queueOf e).find? (fun x => canMove (s.queueOf e) x && x.blk.kind == kind) = some c

/-- That command alone has changed. -/
def CmdBecomes (s t : State) (e : Nat) (c d : Cmd) : Prop :=
  t.queueOf e = (s.queueOf e).map (fun x => if x.issuer = c.issuer ∧ x.n = c.n then d else x)

/-- An address of a row: base, row number times stride, offset, modulo 2^64 (R347). -/
def rowAt (base row : Nat) (stride : Int) (off : Nat) : Nat := (((base : Int) + row * stride + off) % 2 ^ 64).toNat

/-- A source granule of a command, on ordinary memory or FULL, and its bytes (R351). -/
def SourceAt (s : State) (e : Nat) (c : Cmd) (a : Nat) (bs : List Byte) : Prop :=
  ∃ s1 p sa, s.cmdResolve e c c.blk.sspc a .read = (s1, .ok p sa) ∧ s1.eccAt p = false ∧
    (sa = false ∨ s1.answerAt (.engine e c.issuer c.n) p = none ∧ s1.mem.gst p = .full) ∧ bs = s1.loadBytes c.asid p 64

/-- A destination granule of a command, on ordinary memory or EMPTY (R351). -/
def DestAt (s : State) (e : Nat) (c : Cmd) (a : Nat) (p : Place) : Prop :=
  ∃ s1 sa, s.cmdResolve e c c.blk.dspc a .write = (s1, .ok p sa) ∧ s1.eccAt p = false ∧ (sa = true → s1.mem.gst p = .empty) ∧
    p.offset = 0 ∧ NotPacing p ∧ s.mem.wf = true

/-- The command after the next granule of its formed bytes. -/
def granuleDone (c : Cmd) : Cmd :=
  { c with outBuf := c.outBuf.drop 64, outAddr := (c.outAddr + 64) % 2 ^ 64, granules := c.granules + 1, park := .running }

/-- The next granule of formed bytes is written, and no other byte changes. -/
def WritesOut (i : Instr) (s : State) (e : Nat) (c : Cmd) : Prop :=
  ∀ p, DestAt s e c c.outAddr p → Completes i s fun t =>
    Stored s t c.asid p (padTo (c.outBuf.take 64) 64) ∧ CmdBecomes s t e c (granuleDone c)

/-- The next granule of the source is read; the whole row becomes what `row` makes of it. -/
def ReadsRow (i : Instr) (s : State) (e : Nat) (k : EClass) (c : Cmd) (row : Cmd → Cmd) : Prop :=
  ∀ bs, SourceAt s e c (rowAt c.blk.src c.row c.blk.sstr c.buf.length) bs → Completes i s fun t => t.mem = s.mem ∧
    CmdBecomes s t e c { (if c.buf.length + 64 < c.blk.srcRow k then { c with buf := c.buf ++ bs }
      else row { c with buf := c.buf ++ bs }) with park := .running }

/-- The command ends with a status. -/
def EndsWith (i : Instr) (s : State) (e : Nat) (c : Cmd) (st : Nat) : Prop :=
  Completes i s fun t => t.mem = s.mem ∧ CmdBecomes s t e c { c with ended := some st }

/-- A command that moves row by row (R347, R348). -/
def MovesRows (i : Nat → Instr) (k : EClass) (row : Cmd → Cmd) : Prop :=
  ∀ (s : State) (e : Nat) (c : Cmd), CmdStands s e c k 1 →
    (c.outBuf = [] → c.row < c.blk.rows → c.blk.rowlen ≠ 0 → ReadsRow (i e) s e k c row) ∧
    (c.outBuf ≠ [] → WritesOut (i e) s e c) ∧
    (c.outBuf = [] → c.blk.rows ≤ c.row ∨ c.blk.rowlen = 0 → EndsWith (i e) s e c 0)

/-- A row of a copy at hand: it goes to its row of the destination (R347). -/
def rowCopied (c : Cmd) : Cmd :=
  { c with outBuf := c.buf, outAddr := rowAt c.blk.dst c.row c.blk.dstride 0, buf := [], row := c.row + 1 }

/-- The source of the member of rank `r`, as this member brings it or the peers' answer gives it (R350). -/
def partAt (s : State) (c : Cmd) (others : List (List Byte)) (r : Nat) : List Byte :=
  if r = s.rankOf c ∧ s.brings c = true then c.buf else slice (others.getD r []) 0 (c.blk.rows * c.blk.srcRow .cl)

/-- The steps that every collective takes (R350); `out` says what the formed bytes are. -/
def Collects (i : Nat → PeerParts → Instr) (kind : Nat) (out : State → Cmd → List (List Byte) → List Byte → Prop) : Prop :=
  ∀ (s : State) (e : Nat) (c : Cmd), CmdStands s e c .cl kind →
    let size := c.blk.rows * c.blk.srcRow .cl
    let row := c.blk.srcRow .cl
    (∀ peers, c.formed = true → (c.outBuf ≠ [] → WritesOut (i e peers) s e c) ∧ (c.outBuf = [] → EndsWith (i e peers) s e c 0)) ∧
    (c.formed = false → EndsWith (i e .mismatch) s e c 4 ∧ EndsWith (i e .ended) s e c 5) ∧
    ∀ others, c.formed = false →
      (s.brings c = true → c.buf.length < size → ∀ bs,
        SourceAt s e c (rowAt c.blk.src (c.buf.length / row) c.blk.sstr (c.buf.length % row)) bs →
        Completes (i e (.parts others)) s fun t => t.mem = s.mem ∧ CmdBecomes s t e c
          { c with buf := c.buf ++ bs, row := (c.buf.length + 64) / row, park := .running }) ∧
      (s.brings c = false ∨ size ≤ c.buf.length → Completes (i e (.parts others)) s fun t => t.mem = s.mem ∧
        ∃ d, CmdBecomes s t e c d ∧ d.formed = true ∧ d.outAddr = c.blk.dst ∧ d.ended = none ∧ out s c others d.outBuf)

/-- Element `j` of a member's source as a 32-bit two's-complement integer. -/
def element (s : State) (c : Cmd) (others : List (List Byte)) (r j : Nat) : Int :=
  signedOf 32 (fieldLe (partAt s c others r) (4 * j) 4)

/-- The least of a list. -/
def Smallest (l : List Int) (v : Int) : Prop := v ∈ l ∧ ∀ x ∈ l, v ≤ x

/-- Bytes that hold, from element `first` on, `n` sums, maxima or minima of 32-bit integers over the ranks (R350). -/
def Reduced (s : State) (c : Cmd) (others : List (List Byte)) (first n : Nat) (bs : List Byte) : Prop :=
  c.blk.stype = 14 → c.blk.dtype = 14 → bs.length = 4 * n ∧ ∀ j, j < n →
    let l := (List.range c.group.length).map (fun r => element s c others r (first + j))
    (c.blk.red = 0 → fieldLe bs (4 * j) 4 = (l.sum % 2 ^ 32).toNat) ∧
    (c.blk.red = 1 → ∀ v, Largest l v → signedOf 32 (fieldLe bs (4 * j) 4) = v) ∧
    (c.blk.red = 2 → ∀ v, Smallest l v → signedOf 32 (fieldLe bs (4 * j) 4) = v)

/-- Destination granules of a command become VOID in turn (R345, R352): those of single-assignment memory that are EMPTY,
whatever the page's W bit, but for the command's own status cell. -/
inductive VoidsEach (e : Nat) (c : Cmd) : State → List Nat → State → Prop where
  | done (s : State) : VoidsEach e c s [] s
  | own (s t : State) (rest : List Nat) : c.blk.status ≠ 0 → c.blk.dspc = 2 → VoidsEach e c s rest t →
    VoidsEach e c s (c.blk.status :: rest) t
  | void (s s1 t : State) (p : Place) (a : Nat) (rest : List Nat) : ¬ (c.blk.status ≠ 0 ∧ c.blk.dspc = 2 ∧ a = c.blk.status) →
    s.cmdResolve e c c.blk.dspc a .presence = (s1, .ok p true) → VoidsEach e c (s1.voidGranule p) rest t →
    VoidsEach e c s (a :: rest) t
  | ordinary (s s1 t : State) (r : Resolve) (a : Nat) (rest : List Nat) :
    ¬ (c.blk.status ≠ 0 ∧ c.blk.dspc = 2 ∧ a = c.blk.status) → s.cmdResolve e c c.blk.dspc a .presence = (s1, r) →
    (∀ p, r ≠ .ok p true) → VoidsEach e c s1 rest t → VoidsEach e c s (a :: rest) t

/-- The state of memory that an ended command leaves to its status write (R345): after status 0 as it was, after any other with
its unwritten destination granules VOID. -/
def Ended (s u : State) (e : Nat) (c : Cmd) (st : Nat) : Prop :=
  (st = 0 → u = s) ∧ (st ≠ 0 → VoidsEach e c s (unwritten e c) u)

/-- The phase of each pacing group that the command's issuer and group name gains 1, and no other phase changes (R402). -/
def PhasesGain (s t : State) (c : Cmd) : Prop :=
  ∀ i, i < 16 → t.pacePhase i =
    if i ∈ s.paceLive ∧ s.paceAsid i = c.asid ∧ (∀ m, m < 576 → (m ∈ s.paceSet i ↔ m ∈ c.group)) then (s.pacePhase i + 1) % 2 ^ 64
    else s.pacePhase i

/-- A command has ended with a status and left its engine (R345, R354, R402): its core takes the ENGINE event, an EREQ's ERESP
the answer in the command's place, and a collective's pacing groups gain a phase. -/
def Heard (s t : State) (e : Nat) (c : Cmd) (st : Nat) : Prop :=
  (∀ q, c.issuer = .core q → (t.core q).evtPend = (s.core q).evtPend ||| 4#5) ∧
  t.queueOf e = (s.queueOf e).filter (fun x => !(x.issuer == c.issuer && x.n == c.n)) ∧
  (∀ r site q sc, c.issuer = .ereq r site → .cmd site c.n sc ∈ ((s.region r).site q).items →
    .answer (beatOf (padTo (statusBytes e c st) 64)) ∈ ((t.region r).site q).items) ∧
  (engineClass e = .cl → c.group.Pairwise (fun a b => a ≠ b) → (∀ m ∈ c.group, m < 576) → PhasesGain s t c)

/-- Memory is that of another state, but for the pacing descriptors that a collective's end writes (R402). -/
def MemoryOf (t v : State) (e : Nat) : Prop :=
  if engineClass e = .cl then ∀ q, (∀ a, q ≠ .sram a) → t.mem.byte q = v.mem.byte q ∧ t.mem.gst q = v.mem.gst q else t.mem = v.mem

end Sys2Proof.Claims

/-- R289, R305, R309, R311, R356, R370, R371: an access at the head of its port is performed: a load answers its beat, a store
stores exactly its beat and fills an EMPTY granule, a clear empties one and keeps its bytes, an atomic answers the old value
and stores the new; a load of a VOID granule answers its error record; a load of an EMPTY granule waits, and a store that
presence refuses, and an atomic on host memory or a single-assignment granule, park their copy. -/
def Obligations.AccessesPerformed : Prop :=
  ∀ (s : State) (k : Nat) (a : Access) (p : Place) (c : Ctx) (n : Nat), PortReady s k a p c n →
    (a.kind = .load → a.sa = false ∨ s.answerAt a.reader p = none ∧ s.mem.gst p = .full →
      Completes (.accessPerformed k) s fun t => t.mem = s.mem ∧ Gone s t k ∧ AnsweredWith t c n a.id (fun q r =>
        poisonTok q r (beatOf (s.loadBytes a.asid p 64)))) ∧
    (a.kind = .load → a.sa = true → s.answerAt a.reader p = none → s.mem.gst p = .void →
      Completes (.accessPerformed k) s fun t => t.mem = s.mem ∧ Gone s t k ∧ AnsweredWith t c n a.id (fun _ r =>
        errTok (r.getD (errRecord 8 a.site)))) ∧
    (a.kind = .load → a.sa = true → s.answerAt a.reader p = none → s.mem.gst p = .empty →
      (c.copyState n).frozen = false → Completes (.accessPerformed k) s fun t => t.mem = s.mem ∧
        t.ports.pend = s.ports.pend ∧ ∃ rd ∈ t.ports.reads, rd.reader = a.reader ∧ rd.place = p.granule) ∧
    (a.kind = .store → (a.sa = true → s.mem.gst p = .empty) → p.offset = 0 → NotPacing p →
      Completes (.accessPerformed k) s fun t => Stored s t a.asid p (beatBytes a.data) ∧ Gone s t k ∧
        (if a.sa then GranuleBecomes s t p .full else t.mem.gstHbm = s.mem.gstHbm ∧ t.mem.gstBank = s.mem.gstBank) ∧
        (agentNow t c n).outst = (c.agent n).outst.filter (fun m => m != a.id) ∧
        (agentNow t c n).written = (c.agent n).written + 1#32) ∧
    (a.kind = .store → a.sa = true → s.mem.gst p ≠ .empty → (c.agent n).park = .running →
      Completes (.accessPerformed k) s fun t => t.mem = s.mem ∧ Gone s t k ∧ (agentNow t c n).park = .parking ∧
        a ∈ (agentNow t c n).replay) ∧
    (a.kind = .clear → (∃ m, p = .hbm m) ∨ (∃ b y, p = .bank b y) → Completes (.accessPerformed k) s fun t =>
      (∀ q, t.mem.byte q = s.mem.byte q) ∧ GranuleBecomes s t p .empty ∧ Gone s t k ∧
      (agentNow t c n).outst = (c.agent n).outst.filter (fun m => m != a.id)) ∧
    (a.kind = .atom → a.sa = true ∨ p.isHost = true → (c.agent n).park = .running →
      Completes (.accessPerformed k) s fun t => t.mem = s.mem ∧ Gone s t k ∧ (agentNow t c n).park = .parking ∧
        a ∈ (agentNow t c n).replay) ∧
    (a.kind = .atom → a.sa = false → p.isHost = false → p.offset + c.atomBytes ≤ 64 → NotPacing p →
      let w := c.atomBytes
      let old := leNat (s.loadBytes a.asid p w)
      let new := atomResult (c.recd.e 0 % 16) (w == 8) old (a.data.toNat % 2 ^ (8 * w)) (a.data.toNat / 2 ^ 64 % 2 ^ (8 * w))
      Completes (.accessPerformed k) s fun t => Gone s t k ∧
        AnsweredWith t c n a.id (fun q r => poisonTok q r (BitVec.ofNat 512 old)) ∧
        (new = none → t.mem = s.mem) ∧ ∀ v, new = some v → Stored s t a.asid p (leBytes w v))

/-- R347 to R349, R351: a copy and a conversion go row by row, a source granule read or a destination granule written by each
event; a packing conversion keeps the nonzero elements and counts them, and ends with an overflow past its capacity. That one
granule moves at each event is the model's (log entry 46). -/
def Obligations.EngineRows : Prop :=
  MovesRows .teCopy .te rowCopied ∧ MovesRows .cvCast .cv castRow ∧
  (∀ c : Cmd, castRow c = { rowCopied c with
    outBuf := elementBytes c.blk.dtype ((elementsOf c.blk.stype c.buf).map (fun x => (castElement c.blk x).bits))
    ovf := (castRow c).ovf, inv := (castRow c).inv }) ∧
  (∀ (s : State) (e : Nat) (c : Cmd), CmdStands s e c .cv 2 →
    (c.phase ≠ 2 → 64 ≤ c.outBuf.length → WritesOut (.cvCsr e) s e c) ∧
    (c.phase ≠ 2 → c.outBuf.length < 64 → c.idxBuf.length < 64 → c.row < c.blk.rows → c.blk.rowlen ≠ 0 →
      c.count ≤ c.blk.dstr → ReadsRow (.cvCsr e) s e .cv c csrRow) ∧
    (c.phase ≠ 2 → c.outBuf = [] → c.idxBuf = [] → c.blk.dstr < c.count → EndsWith (.cvCsr e) s e c 3) ∧
    (c.phase = 2 → c.idxBuf = [] → EndsWith (.cvCsr e) s e c 0)) ∧
  ∀ c : Cmd, c.blk.stype = 14 →
    let nonzero := (List.range (c.buf.length / 4)).filter (fun j => fieldLe c.buf (4 * j) 4 != 0)
    (csrRow c).count = c.count + nonzero.length ∧ (csrRow c).ptrs = c.ptrs ++ [c.count + nonzero.length] ∧
    (csrRow c).row = c.row + 1 ∧ (csrRow c).buf = [] ∧
    (c.count + nonzero.length ≤ c.blk.dstr → (csrRow c).idxBuf = c.idxBuf ++ nonzero.flatMap (leBytes 4))

/-- R350: each collective reads this member's source, forms its result from every member's, and writes it; a mismatch and a
member that ended end it. The reductions are stated on 32-bit integers. When a mismatch
and an early end count, and what a broadcast reads, is log entry 41. -/
def Obligations.Collectives : Prop :=
  Collects .clAllreduce 1 (fun s c others bs => Reduced s c others 0 (c.blk.rows * c.blk.rowlen) bs) ∧
  Collects .clRedscat 2 (fun s c others bs =>
    let n := c.blk.rows / c.group.length * c.blk.rowlen
    s.rankOf c < c.group.length → Reduced s c others (s.rankOf c * n) n bs) ∧
  Collects .clAllgather 3 (fun s c others bs => bs = (List.range c.group.length).flatMap (partAt s c others)) ∧
  Collects .clBcast 4 (fun s c others bs => c.blk.aux2 < c.group.length → bs = partAt s c others c.blk.aux2)

/-- R345, R352, R354, R402: a command that has ended leaves its engine and its issuer hears of it; a status other than 0
leaves its unwritten granules of single-assignment memory VOID; its status cell, if it has one, is written with its status and
counts, and one that cannot be written parks it; the end of a collective advances its pacing groups. -/
def Obligations.EngineCommandsEnd : Prop :=
  (∀ (s : State) (e : Nat) (c : Cmd) (st : Nat), s.endedCmd e = some (c, st) → s.mem.wf = true → ∀ u, Ended s u e c st →
    (c.blk.status = 0 → Completes (.engineCommandEnd e) s fun t => MemoryOf t u e ∧ Heard s t e c st) ∧
    (∀ u1 a, c.blk.status ≠ 0 → u.translate c.asid c.blk.status .write = (u1, .ok (.hbm a) true) → u1.eccAt (.hbm a) = false →
      u1.mem.gst (.hbm a) = .empty → a % 64 = 0 → Completes (.engineCommandEnd e) s fun t => Heard s t e c st ∧
        ∃ v, Stored u v c.asid (.hbm a) (padTo (statusBytes e c st) 64) ∧ GranuleBecomes u v (.hbm a) .full ∧ MemoryOf t v e) ∧
    (∀ u1 cls, c.blk.status ≠ 0 → issuerMc c.issuer = false → u.translate c.asid c.blk.status .write = (u1, .fault cls) →
      Completes (.engineCommandEnd e) s fun t => t.mem = u.mem ∧ CmdBecomes s t e c { c with park := .parking })) ∧
  (∀ (e : Nat) (c : Cmd) (st : Nat), let b := statusBytes e c st
    b.length = 24 ∧ fieldLe b 0 8 = st % 2 ^ 64 ∧ fieldLe b 16 4 = c.ovf.toNat ∧ fieldLe b 20 4 = c.inv.toNat ∧
    (engineClass e = .te → fieldLe b 8 8 = 64 * c.granules % 2 ^ 64) ∧
    (engineClass e ≠ .te → c.blk.isCsr (engineClass e) = false →
      fieldLe b 8 8 = 64 * c.granules / typeBytes c.blk.dtype % 2 ^ 64)) ∧
  ∀ (e : Nat) (c : Cmd) (a : Nat), engineClass e ≠ .cl → c.blk.isCsr (engineClass e) = false →
    let width := c.blk.dstRow (engineClass e)
    width % 64 = 0 → (a ∈ unwritten e c ↔ ∃ row off, row < c.blk.rows ∧ off < width ∧ off % 64 = 0 ∧
      c.granules ≤ (row * width + off) / 64 ∧ a = rowAt c.blk.dst row c.blk.dstride off)

namespace Sys2Proof.Claims

/-! ## Parking and the fault queue -/

/-- A reply's 64 bytes (R411): its code in byte 0, its address in bytes 8 to 15, every other byte zero. -/
def ReplyIs (bs : List Byte) (code addr : Nat) : Prop := bs = leBytes 1 code ++ leBytes 7 0 ++ leBytes 8 addr ++ leBytes 48 0

/-- A reply that R411 gives no meaning, for a record's class: a nonzero reserved byte, a reserved action, an address with
RESUME or ABORT, and with SUBSTITUTE an address that is no multiple of 64 or another class than POISON_STORE. -/
def Malformed (cls : Nat) (bs : List Byte) : Prop :=
  let action := fieldLe bs 0 1
  let addr := fieldLe bs 8 8
  (∃ i, i < 64 ∧ (1 ≤ i ∧ i < 8 ∨ 16 ≤ i) ∧ bs.getD i 0#8 ≠ 0#8) ∨ action = 0 ∨ 3 < action ∨
  (action = 1 ∨ action = 2) ∧ addr ≠ 0 ∨ action = 3 ∧ (addr % 64 ≠ 0 ∨ cls ≠ clsPoison)

/-- The oldest unanswered cell of an address space has its reply at hand, no older reply is still to be acted on, and the
agent it names stands parked in a placed cluster (R412). -/
def ReplyStands (s : State) (asid : Nat) (f : FqCell) (s1 : State) (bs : List Byte) : Prop :=
  (∀ a, s.aspace? asid = some a → ∀ x ∈ a.cells, x.reply = none) ∧
  (s.aspace? asid).bind Aspace.oldest = some f ∧ s.readReply asid f = (s1, .got bs) ∧ s.standOf f.recd.cluster = .placed ∧
  s.parkOf f.recd.agent = some .parked

/-- A cell for a record that stands at `addr` and waits for its reply. -/
def cellFor (addr : Nat) (seq : W64) (f : FaultRec) : FqCell := { addr := addr, seq := seq, recd := f, reply := none }

/-- An address space whose first waiting record has been written: the sequence number and the next cell go on (R409, R410). -/
def recordWritten (a : Aspace) (f : FaultRec) (rest : List FaultRec) : Aspace :=
  { a with waiting := rest, fqseq := a.fqseq + 1#64, fqNext := (a.fqNext + 128) % 2 ^ 64
           cells := a.cells ++ [cellFor a.fqNext a.fqseq f] }

/-- The fatal fault of a record's cluster. -/
def fatalOf (f : FaultRec) (cls : Byte) : Fatal :=
  { cluster := f.cluster, cls := cls, region := agentRegion f.agent, site := agentSite f.agent }

/-- An agent that replays with another payload in the place of its poisoned token (R414). -/
def substituted (g : Agent) (h : HeldToken) (b : Beat) : Agent :=
  { g with park := .replaying, heldTok := some { h with token := dataTok b } }

/-- The cell has been answered: it is no longer among its address space's. -/
def CellGone (t : State) (asid : Nat) (f : FqCell) : Prop := ∀ a, t.aspace? asid = some a → ∀ x ∈ a.cells, x.seq ≠ f.seq

end Sys2Proof.Claims

/-- R407 to R410, R415: parking completes once every access that can be performed has been; the next waiting record is written
into the next cell of its fault queue, in R410's layout, and becomes a cell to be answered, or its cluster aborts; a link
granule leads to the cell it names. -/
def Obligations.FaultRecords : Prop :=
  (∀ (s : State) (r site : Nat), ((s.region r).site site).agent.park = .parking →
    (s.pendingOf r site).all s.isDeferred = true → Completes (.parkComplete (.elem r site)) s fun t => OnlyRegion s t r ∧
      ((t.region r).site site).agent = { ((s.region r).site site).agent with park := .parked } ∧
      ∀ m, m ≠ site → (t.region r).site m = (s.region r).site m) ∧
  (∀ (s : State) (e : Nat) (iss : Issuer) (c : Cmd), s.cmdOf e iss c.n = some c → c.park = .parking →
    Completes (.parkComplete (.engine e iss c.n)) s fun t => t.mem = s.mem ∧
      CmdBecomes s t e c { c with park := .parked }) ∧
  (∀ (s : State) (asid : Nat) (a : Aspace) (f : FaultRec) (rest : List FaultRec), s.aspace? asid = some a →
    a.waiting = f :: rest → isLink a.fqNext = false →
    (∀ s1 p, s.translate asid a.fqNext .write = (s1, .ok p true) → s1.mem.gst p = .empty → p.offset = 0 → s.mem.wf = true →
      Completes (.faultRecordWrite asid) s fun t => Stored s t asid p (padTo (f.bytes a.fqseq) 64) ∧
        GranuleBecomes s t p .full ∧ t.aspace? asid = some (recordWritten a f rest)) ∧
    (∀ s1 p, s.translate asid a.fqNext .write = (s1, .ok p true) → s1.mem.gst p ≠ .empty →
      Completes (.faultRecordWrite asid) s fun t => t.mem = s.mem ∧ t.disp.fatal = s.disp.fatal ++
        [fatalOf f 0x13#8])) ∧
  (∀ (f : FaultRec) (seq : W64), f.j.length = 5 → (f.bytes seq).length = 48 ∧ fieldLe (f.bytes seq) 0 1 = f.cls % 256 ∧
    fieldLe (f.bytes seq) 2 2 = f.who % 65536 ∧ fieldLe (f.bytes seq) 8 8 = f.addr % 2 ^ 64 ∧
    fieldLe (f.bytes seq) 1 1 = (match f.agent with
      | .elem _ _ => 0
      | .engine _ _ _ => 1) ∧
    fieldLe (f.bytes seq) 4 1 = f.cidx % 256 ∧ fieldLe (f.bytes seq) 5 1 = f.acc % 256 ∧
    fieldLe (f.bytes seq) 6 2 = f.cfgid % 65536 ∧
    (∀ i, i < 5 → fieldLe (f.bytes seq) (24 + 4 * i) 4 = (f.j.getD i 0#32).toNat) ∧
    fieldLe (f.bytes seq) 16 8 = seq.toNat ∧ fieldLe (f.bytes seq) 44 4 = f.errrec.toNat) ∧
  (∀ (sp : Space) (gst : Nat), gst < 4 →
    accField .read sp gst % 4 = 0 ∧ accField .write sp gst % 4 = 1 ∧ accField .presence sp gst % 4 = 2 ∧
    ∀ a, accField a sp gst / 16 = gst ∧ accField a sp gst / 4 % 4 = (match sp with
      | .virt => 0
      | .island => 1
      | .tile _ => 2)) ∧
  (∀ (s : State) (c : Ctx) (k cls acc addr : Nat) (j : List W32) (e : W32) (kn : Nat) (cl : Cluster),
    c.cluster s = some (kn, cl) → ∃ f, c.faultRec s k cls acc addr j e = some f ∧ f.cluster = kn ∧
      f.agent = .elem c.r (c.copySite k) ∧ f.cls = cls ∧ f.who = c.copySite k ∧ f.cidx = cl.indexOf c.r ∧ f.acc = acc ∧
      f.cfgid = c.cfgid ∧ f.addr = addr ∧ f.j = j ∧ f.errrec = e) ∧
  (∀ (s : State) (e cls addr gst sp : Nat) (c : Cmd) (acc : Acc) (a : Aspace), issuerMc c.issuer = false →
    s.aspace? c.asid = some a → ∃ f b, (cmdPark s e c cls acc sp gst addr).aspace? c.asid = some b ∧
      b.waiting = a.waiting ++ [f] ∧ f.agent = .engine e c.issuer c.n ∧ f.cls = cls ∧ f.who = e ∧
      f.acc = accField acc (if sp = 1 then .island else .virt) gst ∧ f.cfgid = 0 ∧ f.addr = addr ∧
      (∀ kn cl, c.cluster = some kn → s.cluster? kn = some cl → f.cidx = cl.indexOf (issuerRegion c.issuer)) ∧
      f.j = [c.n, BitVec.ofNat 32 c.phase, BitVec.ofNat 32 c.granules, 0#32, 0#32]) ∧
  ∀ (s s1 : State) (asid : Nat) (a : Aspace) (p : Place), s.aspace? asid = some a → isLink a.fqNext = true →
    a.fqStuck = false →
    s.translateRead (.fqLink asid) asid a.fqNext .read = (s1, .ok p true) → s1.answerAt (.fqLink asid) p = none →
    let next := leNat ((s1.loadBytes asid p 64).take 8)
    (s1.mem.gst p = .full → next % 64 = 0 → Completes (.fqLinkRead asid) s fun t => t.mem = s.mem ∧
      t.aspace? asid = some { a with fqNext := next }) ∧
    (s1.mem.gst p = .full → next % 64 ≠ 0 → Completes (.fqLinkRead asid) s fun t => t.mem = s.mem ∧
      t.aspace? asid = some { a with fqStuck := true }) ∧
    (s1.mem.gst p = .empty → Completes (.fqLinkRead asid) s fun t => t.mem = s.mem ∧ t.aspace? asid = some a ∧
      ∃ rd ∈ t.ports.reads, rd.reader = .fqLink asid ∧ rd.place = p.granule)

/-- R408, R411 to R414: a reply that resumes lets its agent replay; one that substitutes does so with the beat it names in the
place of the poisoned token; one that aborts aborts the element's cluster or ends the command, at once and without a status
cell when it is parked at a status write that cannot be made; each answers its cell. A malformed reply aborts the cluster. -/
def Obligations.FaultReplies : Prop :=
  ∀ (s s1 : State) (asid : Nat) (f : FqCell) (bs : List Byte), ReplyStands s asid f s1 bs →
    (∀ r site c n, f.recd.agent = .elem r site → copyCtx s r site = some (c, n) → (n = 0 ∨ c.copySite n ≠ c.site) →
      (ReplyIs bs 1 0 → (c.agent n).heldTok = none → Completes (.resume asid) s fun t => t.mem = s.mem ∧ CellGone t asid f ∧
        agentNow t c n = { c.agent n with park := .replaying }) ∧
      ∀ addr h s2 p, ReplyIs bs 3 addr → addr < 2 ^ 64 → addr % 64 = 0 → f.recd.cls = clsPoison → c.recd.kind = .ag →
        (c.agent n).heldTok = some h → s1.translateRead (.fqReply asid) asid addr .read = (s2, .ok p false) → s2.eccAt p = false →
        Completes (.substitute asid) s fun t => t.mem = s.mem ∧ CellGone t asid f ∧
          agentNow t c n = substituted (c.agent n) h (beatOf (s2.loadBytes asid p 64))) ∧
    (∀ e iss m c, f.recd.agent = .engine e iss m → s.cmdOf e iss m = some c →
      (ReplyIs bs 1 0 → Completes (.resume asid) s fun t => t.mem = s.mem ∧ CellGone t asid f ∧
        CmdBecomes s t e c { c with park := .replaying }) ∧
      (ReplyIs bs 2 0 → c.ended = none → Completes (.abort asid) s fun t => t.mem = s.mem ∧ CellGone t asid f ∧
        CmdBecomes s t e c { c with park := .running, ended := some 1 }) ∧
      (ReplyIs bs 2 0 → c.ended.isSome = true → c.blk.status ≠ 0 → s.mem.wf = true →
        let d : Cmd := { c with park := .running, ended := some 1 }
        ∀ u u1 cls, VoidsEach e d (s1.setCmd e d) (unwritten e d) u → u.translate c.asid c.blk.status .write = (u1, .fault cls) →
          Completes (.abort asid) s fun t => MemoryOf t u e ∧ CellGone t asid f ∧ Heard s t e d 1)) ∧
    (∀ r site, f.recd.agent = .elem r site → ReplyIs bs 2 0 → Completes (.abort asid) s fun t => t.mem = s.mem ∧
      CellGone t asid f ∧ t.disp.fatal = s.disp.fatal ++ [fatalOf f.recd 0x14#8]) ∧
    (Malformed f.recd.cls bs → bs.length = 64 → Completes (.abort asid) s fun t =>
      t.mem = s.mem ∧ CellGone t asid f ∧ t.disp.fatal = s.disp.fatal ++ [fatalOf f.recd 0x15#8])

namespace Sys2Proof.Claims

/-! ## The device as a whole -/

/-- Nothing is on the agenda of a device that has power, and the current core runs and holds no access to be performed. -/
def CoreToMove (s : State) : Prop := s.power = .on ∧ s.agenda = [] ∧ s.me.run = .running ∧ s.me.wait ≠ .scPosted

/-- The state with a fetched word in the hands of the current core. -/
def holding (s : State) (w : W32) : State := s.setMe { s.me with fetched := some w }

/-- The management core's SRAM read at its PC has been answered: no fetch of it is outstanding. -/
def fetchSettled (s : State) : State := s.dropReads (fun r => r == .fetch .mc)

/-- The word of the four bytes at the management core's PC, the lowest address first (R3, R60). -/
def sramWord (s : State) : W32 := BitVec.ofNat 32 (leNat (s.mem.bytes (.sram s.mc.pc.toNat) 4))

/-- The value of every core register, predicate and counter is zero. -/
def CoreZero (c : Core) : Prop := (∀ r, c.reg r = 0#64) ∧ c.pc = 0#64 ∧ c.insnCount = 0#64

end Sys2Proof.Claims

/-- R156, R158, R68: a step runs the instruction the fetched word decodes to, and exactly it; a word that is none raises
ILLEGAL. The management core's word is the one in its SRAM at its PC. A step with an event or a core's turn at the head of
the agenda runs that (log entry 1). What a fetched word's waiting instruction holds is the model's (log entry 18). -/
def Obligations.StepRunsDecoded : Prop :=
  (∀ (s : State) (w : W32) (i : Instr), CoreToMove s → s.me.fetched = some w → decode w = .ok i → step s = exec i s) ∧
  (∀ (s s1 : State) (w : W32) (i : Instr), CoreToMove s → s.me.fetched = none → s.fetchWord = (s1, .ok w) →
    decode w = .ok i → step s = exec i (holding s1 w)) ∧
  (∀ (s s1 : State) (w : W32), CoreToMove s → s.me.fetched = none → s.fetchWord = (s1, .ok w) →
    (decode w).toOption = none → step s = exec (.illegalInstruction w) (holding s1 w)) ∧
  (∀ (s : State) (i : Instr), CoreToMove s → s.cur = .mc → s.mc.fetched = none → s.mc.pc.toNat < 0x200000 →
    decode (sramWord s) = .ok i → step s = exec i (holding (fetchSettled s) (sramWord s))) ∧
  (∀ (s s1 : State) (u : Nat), CoreToMove s → s.me.fetched = none → s.fetchWord = (s1, .trap u) → step s = exec .fetch s) ∧
  (∀ (s : State) (i : Instr) (rest : List Turn), s.power = .on → s.agenda = .event i :: rest → encode i = none →
    step s = exec i { s with agenda := rest }) ∧
  (∀ (s : State) (c : CoreId) (rest : List Turn) (w : W32) (i : Instr), s.power = .on → s.agenda = .core c :: rest →
    (s.core c).run = .running → (s.core c).fetched = some w → decode w = .ok i →
    step s = exec i { s with agenda := rest, cur := c }) ∧
  ∀ s : State, s.power = .on → s.agenda = [] → s.me.run = .running → s.me.wait = .scPosted →
    step s = exec .scAccessPerform s

/-- R60 to R67: words written out from the encoding tables, at least one of each major opcode, and the instructions they stand
for. -/
def Obligations.DecodeWords : Prop :=
  decode 0x0689C000#32 = .ok (.add 20 9 24) ∧ decode 0x05B22009#32 = .ok (.and 13 18 4) ∧
  decode 0x0BF73267#32 = .ok (.addi 31 23 0x3267) ∧ decode 0x0EAABEEF#32 = .ok (.andi 21 10 0xbeef) ∧
  decode 0x103E8001#32 = .ok (.ori 1 30 0x8001) ∧ decode 0x17C17FFE#32 = .ok (.xori 30 1 0x7ffe) ∧
  decode 0x1987002D#32 = .ok (.slli 12 7 45) ∧ decode 0x1CBA0012#32 = .ok (.srli 5 26 18) ∧ decode 0x22610027#32 = .ok (.srai 19 1 39) ∧
  decode 0x24725AF9#32 = .ok (.lin 3 2 0x5af9) ∧ decode 0x293F0562#32 = .ok (.ins 9 31 1 22) ∧
  decode 0x2FB06400#32 = .ok (.cmp 7 .le 1 18) ∧ decode 0x33B31817#32 = .ok (.cmpi 7 .le 12 0x1817) ∧
  decode 0x36F30000#32 = .ok (.plog 5 7 1 8) ∧ decode 0x38573500#32 = .ok (.sel 2 23 6 5) ∧
  decode 0x43CFBFE3#32 = .ok (.brcNot 7 0xfbfe3) ∧ decode 0x47DA394A#32 = .ok (.jal 30 0x1a394a) ∧
  decode 0x4BEF582A#32 = .ok (.jalr 31 15 0x582a) ∧ decode 0x504E5F22#32 = .ok (.ldN16 2 14 0xf22) ∧
  decode 0x57C51571#32 = .ok (.st16 30 5 0x571) ∧ decode 0x5ACB0200#32 = .ok (.lda 22 11 .package .w32) ∧
  decode 0x5C1A1940#32 = .ok (.stl 26 3 .cluster .w64) ∧ decode 0x60867286#32 = .ok (.aminn 4 6 14 .group .w32) ∧
  decode 0x64000382#32 = .ok (.fenceRel .network) ∧ decode 0x6B720002#32 = .ok (.probe 27 18) ∧
  decode 0x6C1C5A01#32 = .ok (.scst 28 11 .w32) ∧ decode 0x80100100#32 = .ok (.cfg 16) ∧
  decode 0x84090100#32 = .ok (.swo 9) ∧ decode 0x881C88A2#32 = .ok (.injDataP 28 17 5) ∧
  decode 0x8AE003C0#32 = .ok (.take 23 14) ∧ decode 0x8EC00000#32 = .ok (.wex 22) ∧
  decode 0x9000070A#32 = .ok (.rela 0x30a) ∧ decode 0x9400023A#32 = .ok (.imode 0x3a) ∧
  decode 0xA0000400#32 = .ok (.bar .system) ∧ decode 0xA6F64800#32 = .ok (.launch 23 22 9) ∧
  decode 0xA8000420#32 = .ok (.semr 32) ∧ decode 0xB2EA0148#32 = .ok (.conv 23 10 9) ∧
  decode 0xC1762008#32 = .ok (.csrx 11 22 8) ∧ decode 0xC4000769#32 = .ok (.trap 0x769)

/-- R60 to R67: encoding and decoding agree. Every well-formed instruction has a word, the decoder reads the instruction
back from it with every operand, and a word decodes to nothing but the instruction whose word it is. -/
def Obligations.EncodeDecode : Prop :=
  (∀ i : Instr, i.wf = true → ∃ w, encode i = some w ∧ decode w = .ok i) ∧
  ∀ (w : W32) (i : Instr), decode w = .ok i → i.wf = true ∧ encode i = some w

/-- The memories of the device keep their canonical form: from every state in which they have it, whatever moves, they have
it in the next state. It is the model's own form of memory: R151's memories as lists of bytes with equal memories as equal
lists (log entry 4). -/
def Obligations.MemoryStaysCanonical : Prop := ∀ s t : State, s.memWf = true → step s = .next t → t.memWf = true

/-- R119, R151, R155, R107, R110, R115, R449, R450: the device right after reset. Memory holds nothing in the canonical form;
no cluster, caravan, semaphore holder or address space stands; last_winner is 191; BUDGET is 560 and TALERT 1,360; the
management core is in MANAGEMENT mode. That reset leaves the device without power is the model's (log entries 2 and 44). The
registers the spec gives no reset value hold zero, which is the model's choice (log entry 3), and so do memory's bytes (log
entry 4). -/
def Obligations.ResetState : Prop :=
  State.reset.memWf = true ∧ (∀ p n, ∀ b ∈ State.reset.mem.bytes p n, b = 0#8) ∧
  State.reset.power = .off ∧ CoreZero State.reset.mc ∧ State.reset.mc.priv = .management ∧
  State.reset.mcr.budget = 560 ∧ State.reset.pow.talert = 1360 ∧ State.reset.disp.sems = [] ∧ State.reset.disp.caravans = [] ∧
  State.reset.disp.aspaces = [] ∧ State.reset.disp.clusters = [] ∧ State.reset.disp.groupFw = 0#576 ∧
  (∀ l ∈ State.reset.disp.lastWinner.toList, l = 191) ∧ ∀ r : Nat, (State.reset.region r).cluster = none

/-- R25, R202, R216, R219, R220: an arc with room takes a DATA token at its tail; a control token that finds none waits in the
control part; the consumer takes tokens from the head, and the token of the control part moves into the freed place. An arc of
s slots never holds more than s + 1 tokens beside its control part. No other arc differs. An arc of the oldest instance has its
s slots and its head entry; one of a newer instance whose consumer still runs an older one has no control part, and takes no
token while an older instance's route shares a channel with its own and the older producer has not gone on (R202, R220: read by
inference, log entry 50). -/
def Obligations.ArcQueues : Prop :=
  ∀ (x : Region) (c n : Nat),
    (∀ t, t.isControl = false → x.acceptsData c n = true →
      ((x.enqueue c n t).arcNow c n).queue = (x.arcNow c n).queue ++ [t] ∧ ((x.enqueue c n t).arcNow c n).ctl = none ∧
      ((x.enqueue c n t).arcNow c n).queue.length ≤ x.cap c n) ∧
    (∀ t, t.isControl = true → x.acceptsCtl c n = true →
      ((x.arcNow c n).queue.length < x.cap c n →
        ((x.enqueue c n t).arcNow c n).queue = (x.arcNow c n).queue ++ [t] ∧ ((x.enqueue c n t).arcNow c n).ctl = none) ∧
      (x.cap c n ≤ (x.arcNow c n).queue.length →
        ((x.enqueue c n t).arcNow c n).queue = (x.arcNow c n).queue ∧ ((x.enqueue c n t).arcNow c n).ctl = some t)) ∧
    (∀ t rest, (x.arcNow c n).queue = t :: rest → rest.length < x.cap c n →
      ((x.pop c n).arcNow c n).queue = rest ++ (x.arcNow c n).ctl.toList ∧ ((x.pop c n).arcNow c n).ctl = none) ∧
    (∀ a, x.arcWord c n = some a → (a.cseq = true ∨ ∀ e ∈ x.committed, c ≤ e.cseq) → x.cap c n = a.slots + 1) ∧
    (∀ a, x.arcWord c n = some a → a.cseq = false → (∃ e ∈ x.committed, e.cseq < c) → x.adopted a.csite < c →
      x.cap c n ≤ (x.arcNow c n).queue.length → x.acceptsCtl c n = false) ∧
    (∀ t a e o ch, x.arcWord c n = some a → e ∈ x.committed → e.cseq < c → o ∈ e.cfg.arcs → ch ∈ a.chans → ch ∈ o.chans →
      x.adopted o.psite ≤ e.cseq → x.accepts c n t = false) ∧
    ∀ c' n', arcKey c' n' ≠ arcKey c n → (∀ t, (x.enqueue c n t).arc c' n' = x.arc c' n') ∧
      (x.pop c n).arc c' n' = x.arc c' n'

namespace Sys2Proof.Claims

/-! ## What a rounded value is -/

/-- A pattern of a floating-point type is finite, and its value is `q` (R35, R36). -/
def Holds (t x : Nat) (q : ℚ) : Prop :=
  let f := fmtOf t
  let e := x / 2 ^ f.m % 2 ^ f.expBits
  let m := x % 2 ^ f.m
  let sgn : ℚ := if x / 2 ^ (f.width - 1) = 1 then -1 else 1
  x < 2 ^ f.width ∧ (f.top = .ieee → e ≠ f.expMax) ∧ (f.top = .nanOnly → e = f.expMax → m ≠ 2 ^ f.m - 1) ∧
  q = if e = 0 then sgn * ((m : ℚ) / 2 ^ f.m) * (2 : ℚ) ^ (1 - (f.bias : Int))
    else sgn * (1 + (m : ℚ) / 2 ^ f.m) * (2 : ℚ) ^ ((e : Int) - f.bias)

/-- The largest finite magnitude of a floating-point type, and the spacing of its values there (R35). -/
def largest : Nat → ℚ × ℚ
  | 2 => ((2 - 1 / 2 ^ 7) * 2 ^ 127, 2 ^ 120)
  | 3 => (65504, 32)
  | 4 => (448, 32)
  | 5 => (57344, 8192)
  | 6 => (28, 4)
  | 7 => (15 / 2, 1 / 2)
  | 8 => (6, 2)
  | _ => ((2 - 1 / 2 ^ 23) * 2 ^ 127, 2 ^ 104)

/-- The real that a sign, a mantissa and an exponent give. -/
def exactOf (neg : Bool) (m : Nat) (e : Int) : ℚ := (if neg then -1 else 1) * m * (2 : ℚ) ^ e

/-- SR goes away from zero for a fraction of the spacing, the LFSR having stepped (R46). -/
def SrAway (fraction : ℚ) (l : W32) : Prop := 2 ^ 32 ≤ ⌊fraction * 2 ^ 32⌋ + (l.toNat : Int)

/-- `q`, which a pattern of a type holds, is the value `v` rounds to (R46): `v` itself where the type holds it; else under 0 RNE
the nearest, on a tie the one with the even mantissa; under 1 RTZ, 2 RUP and 3 RDN the next toward zero, up and down; under 4 SR
one of the two neighbours, by the LFSR. -/
def RoundsTo (t rm : Nat) (l : W32) (v q : ℚ) (bits : Nat) : Prop :=
  ((∃ x, Holds t x v) → q = v) ∧
  (rm = 0 → ∀ x y, Holds t x y → |v - q| ≤ |v - y| ∧ (|v - q| = |v - y| → y ≠ q → bits % 2 = 0)) ∧
  (rm = 1 → |q| ≤ |v| ∧ ∀ x y, Holds t x y → |y| ≤ |v| → |y| ≤ |q|) ∧
  (rm = 2 → v ≤ q ∧ ∀ x y, Holds t x y → v ≤ y → q ≤ y) ∧
  (rm = 3 → q ≤ v ∧ ∀ x y, Holds t x y → y ≤ v → y ≤ q) ∧
  (rm = 4 → ∀ x y a b, Holds t x a → Holds t y b → |a| < |v| → |v| < |b| → 0 ≤ a * v → 0 < b * v →
    (∀ z c, Holds t z c → ¬(|a| < |c| ∧ |c| < |b|)) →
    (SrAway (|v - a| / |b - a|) l → q = b) ∧ (¬SrAway (|v - a| / |b - a|) l → q = a))

/-- When a value overflows a type (R46): the value it rounds to, were the type's range unlimited, lies beyond the largest. -/
def Overflows (t rm : Nat) (l : W32) (neg : Bool) (v : ℚ) : Prop :=
  let (mx, u) := largest t
  let next : Prop := mx + u ≤ |v|
  match rm with
  | 1 => next
  | 2 => if neg then next else mx < |v|
  | 3 => if neg then mx < |v| else next
  | 4 => next ∨ mx < |v| ∧ SrAway ((|v| - mx) / u) l
  | _ => if t = 4 then mx + u / 2 < |v| else mx + u / 2 ≤ |v|

/-- The integer that a real rounds to (R46 with a spacing of 1). -/
def IntRoundsTo (rm : Nat) (l : W32) (v : ℚ) (k : Int) : Prop :=
  let a : Int := if v < 0 then ⌈v⌉ else ⌊v⌋
  match rm with
  | 1 => k = a
  | 2 => k = ⌈v⌉
  | 3 => k = ⌊v⌋
  | 4 => (SrAway |v - a| l ∧ v ≠ a → k = if v < 0 then a - 1 else a + 1) ∧ (¬(SrAway |v - a| l ∧ v ≠ a) → k = a)
  | _ => |v - k| ≤ 1 / 2 ∧ (|v - k| = 1 / 2 → k % 2 = 0)

end Sys2Proof.Claims

/-- R46, R47, R49, R51 to R53, R43: what a lane is written as. One rounding of a real to a floating-point type gives the value
that R46 names, of the real's sign, or overflows with the event and the pattern of the table of R47; FZO makes a subnormal
result of FP32, BF16 and FP16 a zero of its sign; SR steps the LFSR once, and no other rounding does. A conversion rounds once
so, to an integer type at spacing 1 with the result brought into the range; NaN and infinite operands convert by the table of
R52. That an overflow is no invalid event beside it is the model's (log entry 49). -/
def Obligations.RoundedValues : Prop :=
  (∀ (t rm : Nat) (sat : Bool) (l : W32) (neg : Bool) (m : Nat) (e : Int), 1 ≤ t → t ≤ 8 → rm ≤ 4 →
    let f := fmtOf t
    let v := exactOf neg m e
    let l' : W32 := if rm = 4 then lfsrStep l else l
    let o := roundLane t rm sat false l neg m e false
    let z := roundLane t rm sat true l neg m e false
    o.lfsr = l' ∧ o.ev.invalid = false ∧ (o.ev.overflow = true ↔ Overflows t rm l' neg v) ∧
    (o.ev.overflow = false → (o.bits / 2 ^ (f.width - 1) = 1 ↔ neg = true) ∧ ∃ q, Holds t o.bits q ∧ RoundsTo t rm l' v q o.bits) ∧
    (let toMax := sat = true ∨ 6 ≤ t ∨ rm = 1 ∨ (rm = 2 ∧ neg = true) ∨ (rm = 3 ∧ neg = false)
     o.ev.overflow = true →
      (toMax → Holds t o.bits ((if neg then -1 else 1) * (largest t).1)) ∧
      (¬toMax → o.bits = if t = 4 then 0x7F else (if neg then 2 ^ (f.width - 1) else 0) + (2 ^ f.expBits - 1) * 2 ^ f.m)) ∧
    z.ev = o.ev ∧ z.lfsr = o.lfsr ∧
    z.bits = (if t ≤ 3 ∧ o.bits / 2 ^ f.m % 2 ^ f.expBits = 0 then o.bits / 2 ^ (f.width - 1) * 2 ^ (f.width - 1) else o.bits)) ∧
  (∀ (src t rm : Nat) (sat fzo nan : Bool) (l : W32) (neg s : Bool) (m : Nat) (e : Int), 1 ≤ t → t ≤ 8 →
    numericLane t rm sat fzo nan l (.fin neg m e s) = roundLane t rm sat fzo l neg m e s ∧
    convertLane src t rm sat fzo l (.fin neg m e s) = roundLane t rm sat fzo l neg m e s ∧
    (let o := convertLane src t rm sat fzo l .nan
     o.lfsr = l ∧ o.ev.overflow = false ∧ (o.ev.invalid = true ↔ 6 ≤ t) ∧ (6 ≤ t → o.bits = 0) ∧
      (t ≤ 5 → o.bits = if t = 1 then 0x7FC00000 else if t = 2 then 0x7FC0 else if t = 3 then 0x7E00
        else if t = 4 then 0x7F else 0x7E)) ∧
    let f := fmtOf t
    let o := convertLane src t rm sat fzo l (.inf neg)
    o.lfsr = l ∧ o.ev.invalid = false ∧ (o.ev.overflow = true ↔ sat = true ∨ t = 4 ∨ 6 ≤ t) ∧
    (sat = true ∨ 6 ≤ t → Holds t o.bits ((if neg then -1 else 1) * (largest t).1)) ∧
    (sat = false → t = 4 → o.bits = 0x7F) ∧
    (sat = false → t ≤ 5 → t ≠ 4 →
      o.bits = (if neg then 2 ^ (f.width - 1) else 0) + (2 ^ f.expBits - 1) * 2 ^ f.m)) ∧
  ∀ (src t rm : Nat) (sat fzo : Bool) (l : W32), 14 ≤ t → t ≤ 18 → 1 ≤ src → src ≤ 8 → rm ≤ 4 →
    let lo := (intRange t).1
    let hi := (intRange t).2
    let pat (k : Int) : Nat := (k % 2 ^ laneWidth t).toNat
    (∀ (neg : Bool) (m : Nat) (e : Int),
      let o := convertLane src t rm sat fzo l (.fin neg m e false)
      let l' : W32 := if rm = 4 then lfsrStep l else l
      o.lfsr = l' ∧ ∃ k, IntRoundsTo rm l' (exactOf neg m e) k ∧ o.bits = pat (max lo (min hi k)) ∧ o.ev.invalid = false ∧
        (o.ev.overflow = true ↔ k < lo ∨ hi < k)) ∧
    (let o := convertLane src t rm sat fzo l .nan
     o.bits = 0 ∧ o.ev = { invalid := true, overflow := false } ∧ o.lfsr = l) ∧
    ∀ neg : Bool, let o := convertLane src t rm sat fzo l (.inf neg)
      o.bits = pat (if neg then lo else hi) ∧ o.ev = { invalid := false, overflow := true } ∧ o.lfsr = l

namespace Sys2Proof.Claims
end Sys2Proof.Claims
end

