-- ==== Sys2Proof/Laws/Memory.lean ====
section
/-! SUPPORT. Memory: a read after a write, the bytes a write leaves alone, and the canonical form that every memory
operation keeps. -/

namespace Sys2Proof.Machine

/-! ## One list of bytes -/

@[simp] theorem Memory.read_nil (a : Nat) : Memory.read [] a = 0#8 := rfl

/-- An address below every listed one reads as 0. -/
theorem Memory.read_below {m : List Host.Cell} {n a : Nat} (h : Memory.above n m = true) (ha : a < n) :
    Memory.read m a = 0#8 := by
  induction m generalizing n with
  | nil => rfl
  | cons c m ih =>
    simp only [Memory.above, Bool.and_eq_true, decide_eq_true_eq] at h
    have h1 : c.1 ≠ a := by omega
    simp only [Memory.read, h1, if_false]
    exact ih h.2 (by omega)

/-- A lower bound may be lowered. -/
theorem Memory.above_mono {m : List Host.Cell} {n k : Nat} (h : Memory.above n m = true) (hk : k ≤ n) :
    Memory.above k m = true := by
  cases m with
  | nil => rfl
  | cons c m =>
    simp only [Memory.above, Bool.and_eq_true, decide_eq_true_eq] at h ⊢
    exact ⟨⟨by omega, h.1.2⟩, h.2⟩

/-- A write at or above the bound keeps the canonical form. -/
theorem Memory.above_write {m : List Host.Cell} {n a : Nat} (b : Byte) (h : Memory.above n m = true) (ha : n ≤ a) :
    Memory.above n (Memory.write m a b) = true := by
  induction m generalizing n with
  | nil => by_cases hb : b = 0#8 <;> simp [Memory.write, hb, Memory.above, ha]
  | cons c m ih =>
    have h' := h
    simp only [Memory.above, Bool.and_eq_true, decide_eq_true_eq] at h
    unfold Memory.write
    by_cases h1 : a < c.1
    · by_cases hb : b = 0#8
      · simpa [h1, hb] using h'
      · simp only [h1, if_true, hb, if_false]
        simp only [Memory.above, Bool.and_eq_true, decide_eq_true_eq]
        exact ⟨⟨ha, by simpa using hb⟩, ⟨by omega, h.1.2⟩, h.2⟩
    · by_cases h2 : a = c.1
      · by_cases hb : b = 0#8
        · simp only [h2, hb, if_true, if_false, lt_irrefl]
          exact Memory.above_mono h.2 (by omega)
        · simp only [h2, hb, if_true, if_false, lt_irrefl]
          simp only [Memory.above, Bool.and_eq_true, decide_eq_true_eq]
          exact ⟨⟨by omega, by simpa using hb⟩, h.2⟩
      · simp only [h1, h2, if_false]
        simp only [Memory.above, Bool.and_eq_true, decide_eq_true_eq]
        exact ⟨h.1, ih h.2 (by omega)⟩

theorem Memory.wf_write {m : List Host.Cell} (a : Nat) (b : Byte) (h : Memory.wf m = true) :
    Memory.wf (Memory.write m a b) = true := Memory.above_write b h (Nat.zero_le a)

theorem Memory.wf_writeAll {m : List Host.Cell} (a : Nat) (bs : List Byte) (h : Memory.wf m = true) :
    Memory.wf (Memory.writeAll m a bs) = true := by
  induction bs generalizing m a with
  | nil => exact h
  | cons b bs ih => exact ih (a + 1) (Memory.wf_write a b h)

/-- A read where a byte has been written gives that byte. -/
theorem Memory.read_write_self {m : List Host.Cell} {n : Nat} (a : Nat) (b : Byte) (h : Memory.above n m = true) :
    Memory.read (Memory.write m a b) a = b := by
  induction m generalizing n with
  | nil => by_cases hb : b = 0#8 <;> simp [Memory.write, hb, Memory.read]
  | cons c m ih =>
    simp only [Memory.above, Bool.and_eq_true, decide_eq_true_eq] at h
    unfold Memory.write
    by_cases h1 : a < c.1
    · by_cases hb : b = 0#8
      · have hc : c.1 ≠ a := by omega
        simp only [h1, hb, if_true, Memory.read, hc, if_false]
        exact Memory.read_below h.2 (by omega)
      · simp [h1, hb, Memory.read]
    · by_cases h2 : a = c.1
      · by_cases hb : b = 0#8
        · simp only [h2, hb, if_true, if_false, lt_irrefl]
          exact Memory.read_below h.2 (by omega)
        · simp [h2, hb, Memory.read]
      · have hc : c.1 ≠ a := Ne.symm h2
        simp only [h1, h2, if_false, Memory.read, hc]
        exact ih h.2

/-- A write leaves every other address alone. -/
theorem Memory.read_write_ne {m : List Host.Cell} {n a x : Nat} (b : Byte) (h : Memory.above n m = true) (hx : x ≠ a) :
    Memory.read (Memory.write m a b) x = Memory.read m x := by
  induction m generalizing n with
  | nil => by_cases hb : b = 0#8 <;> simp [Memory.write, hb, Memory.read, Ne.symm hx]
  | cons c m ih =>
    simp only [Memory.above, Bool.and_eq_true, decide_eq_true_eq] at h
    unfold Memory.write
    by_cases h1 : a < c.1
    · by_cases hb : b = 0#8
      · simp [h1, hb]
      · simp [h1, hb, Memory.read, Ne.symm hx]
    · by_cases h2 : a = c.1
      · have hc : c.1 ≠ x := by omega
        by_cases hb : b = 0#8
        · simp [h2, hb, Memory.read, hc]
        · simp [h2, hb, Memory.read, hc]
      · simp only [h1, h2, if_false, Memory.read]
        split
        · rfl
        · exact ih h.2

/-- A byte after successive bytes have been written. -/
theorem Memory.read_writeAll {m : List Host.Cell} (a x : Nat) (bs : List Byte) (h : Memory.wf m = true) :
    Memory.read (Memory.writeAll m a bs) x =
      if a ≤ x ∧ x < a + bs.length then bs.getD (x - a) 0#8 else Memory.read m x := by
  induction bs generalizing m a with
  | nil =>
    simp [Memory.writeAll]
  | cons b bs ih =>
    rw [Memory.writeAll, ih (a + 1) (Memory.wf_write a b h)]
    by_cases h1 : x = a
    · subst h1
      simp [Memory.read_write_self x b h]
    · rw [Memory.read_write_ne b h h1]
      by_cases h2 : a + 1 ≤ x ∧ x < a + 1 + bs.length
      · have h3 : a ≤ x ∧ x < a + (b :: bs).length := by simp; omega
        rw [if_pos h2, if_pos h3]
        have : x - a = (x - (a + 1)) + 1 := by omega
        rw [this]; simp
      · have h3 : ¬(a ≤ x ∧ x < a + (b :: bs).length) := by simp; omega
        rw [if_neg h2, if_neg h3]

@[simp] theorem Memory.length_readAll (m : List Host.Cell) (a n : Nat) : (Memory.readAll m a n).length = n := by
  induction n generalizing a with
  | zero => rfl
  | succ n ih => simp [Memory.readAll, ih]

/-- Successive bytes read back where they have been written. -/
theorem Memory.readAll_writeAll {m : List Host.Cell} (a : Nat) (bs : List Byte) (h : Memory.wf m = true) :
    Memory.readAll (Memory.writeAll m a bs) a bs.length = bs := by
  have key : ∀ (n k : Nat), k + n = bs.length →
      Memory.readAll (Memory.writeAll m a bs) (a + k) n = bs.drop k := by
    intro n
    induction n with
    | zero => intro k hk; simp [Memory.readAll, List.drop_eq_nil_of_le (show bs.length ≤ k by omega)]
    | succ n ih =>
      intro k hk
      have hlt : k < bs.length := by omega
      rw [Memory.readAll, Memory.read_writeAll a (a + k) bs h, Nat.add_assoc, ih (k + 1) (by omega)]
      have : a ≤ a + k ∧ a + k < a + bs.length := by omega
      rw [if_pos this, List.drop_eq_getElem_cons hlt]
      simp [List.getD_eq_getElem?_getD, hlt]
  simpa using key bs.length 0 (by simp)

@[simp] theorem length_leBytes (n x : Nat) : (leBytes n x).length = n := by
  induction n generalizing x with
  | zero => rfl
  | succ n ih => simp [leBytes, ih]

/-- A little-endian number and its bytes (R3). -/
theorem leNat_leBytes (n x : Nat) : leNat (leBytes n x) = x % 256 ^ n := by
  induction n generalizing x with
  | zero => simp [leBytes, leNat, Nat.mod_one]
  | succ n ih =>
    simp only [leBytes, leNat, ih, BitVec.toNat_ofNat]
    rw [show (256 : Nat) ^ (n + 1) = 256 * 256 ^ n from by rw [Nat.pow_succ, Nat.mul_comm], Nat.mod_mul]

/-! ## The memories -/

theorem Mems.wf_list {m : Mems} (h : m.wf = true) (p : Place) : Memory.wf (m.list p) = true := by
  simp only [Mems.wf, Bool.and_eq_true] at h
  rcases p with _ | _ | _ | _ | ⟨_ | _, _⟩ <;> simp_all [Mems.list]

theorem Mems.wf_setList {m : Mems} {l : List Host.Cell} (h : m.wf = true) (p : Place) (hl : Memory.wf l = true) :
    (m.setList p l).wf = true := by
  simp only [Mems.wf, Bool.and_eq_true] at h
  rcases p with _ | _ | _ | _ | ⟨_ | _, _⟩ <;> simp_all [Mems.setList, Mems.wf]

/-- Writing bytes keeps the canonical form of every memory. -/
theorem Mems.wf_setBytes {m : Mems} (h : m.wf = true) (p : Place) (bs : List Byte) : (m.setBytes p bs).wf = true :=
  Mems.wf_setList h p (Memory.wf_writeAll _ bs (Mems.wf_list h p))

@[simp] theorem Mems.wf_setGst (m : Mems) (p : Place) (g : Gst) : (m.setGst p g).wf = m.wf := by
  cases p <;> rfl

@[simp] theorem Mems.wf_setMark (m : Mems) (p : Place) (b : Bool) : (m.setMark p b).wf = m.wf := by
  cases p <;> rfl

theorem Mems.list_setList (m : Mems) (p q : Place) (l : List Host.Cell) :
    (m.setList p l).list q = if (match p, q with
      | .hbm _, .hbm _ => true
      | .bank _ _, .bank _ _ => true
      | .tile _ _ _, .tile _ _ _ => true
      | .sram _, .sram _ => true
      | .host .a _, .host .a _ => true
      | .host .b _, .host .b _ => true
      | _, _ => false) then l else m.list q := by
  rcases p with _ | _ | _ | _ | ⟨_ | _, _⟩ <;> rcases q with _ | _ | _ | _ | ⟨_ | _, _⟩ <;> rfl

end Sys2Proof.Machine
end

