-- ==== Sys2Proof/Laws/Tables.lean ====
section
/-! SUPPORT. Tables: what a write leaves at its key and at every other key, and what a removal leaves. -/

namespace Sys2Proof.Machine

@[simp] theorem Table.find?_nil {α : Type} (k : Nat) : Table.find? ([] : Table α) k = none := rfl

theorem Table.find?_cons {α : Type} (e : Nat × α) (t : Table α) (k : Nat) :
    Table.find? (e :: t) k = if e.1 = k then some e.2 else Table.find? t k := rfl

@[simp] theorem Table.find?_put_self {α : Type} (t : Table α) (k : Nat) (v : α) :
    Table.find? (Table.put t k v) k = some v := by
  induction t with
  | nil => simp [Table.put, Table.find?]
  | cons e t ih =>
    unfold Table.put
    split
    · simp [Table.find?]
    · split
      · simp [Table.find?]
      · rename_i h; simp [Table.find?, h, ih]

theorem Table.find?_put_ne {α : Type} (t : Table α) {k j : Nat} (v : α) (h : j ≠ k) :
    Table.find? (Table.put t k v) j = Table.find? t j := by
  induction t with
  | nil => simp [Table.put, Table.find?, Ne.symm h]
  | cons e t ih =>
    unfold Table.put
    split
    · simp [Table.find?, Ne.symm h]
    · split
      · rename_i h2; subst h2; simp [Table.find?, Ne.symm h]
      · simp [Table.find?, ih]

@[simp] theorem Table.get_put_self {α : Type} (t : Table α) (k : Nat) (v d : α) :
    Table.get (Table.put t k v) k d = v := by simp [Table.get]

theorem Table.get_put_ne {α : Type} (t : Table α) {k j : Nat} (v d : α) (h : j ≠ k) :
    Table.get (Table.put t k v) j d = Table.get t j d := by simp [Table.get, Table.find?_put_ne t v h]

/-- A second write at a key replaces the first. -/
@[simp] theorem Table.put_put {α : Type} (t : Table α) (k : Nat) (v w : α) :
    Table.put (Table.put t k v) k w = Table.put t k w := by
  induction t with
  | nil => simp [Table.put]
  | cons e t ih =>
    by_cases h1 : k < e.1
    · simp [Table.put, h1]
    · by_cases h2 : e.1 = k
      · simp [Table.put, h2]
      · simp [Table.put, h1, h2, ih]

@[simp] theorem Table.find?_del_self {α : Type} (t : Table α) (k : Nat) : Table.find? (Table.del t k) k = none := by
  induction t with
  | nil => rfl
  | cons e t ih =>
    unfold Table.del at *
    rw [List.filter_cons]
    by_cases h : e.1 = k
    · simp [h, ih]
    · simp [h, ih, Table.find?]

theorem Table.find?_del_ne {α : Type} (t : Table α) {k j : Nat} (h : j ≠ k) :
    Table.find? (Table.del t k) j = Table.find? t j := by
  induction t with
  | nil => rfl
  | cons e t ih =>
    unfold Table.del at *
    rw [List.filter_cons]
    by_cases h2 : e.1 = k
    · simp [h2, ih, Table.find?, Ne.symm h]
    · simp [h2, ih, Table.find?]

end Sys2Proof.Machine
end

