-- ==== Sys2Proof/Laws/State.lean ====
section
/-! SUPPORT. What each update of the state and of a core leaves in each field, and the current core after it is written. -/

namespace Sys2Proof.Machine

/-! ## Updates of the state -/

@[simp] theorem State.setRegion_power (s : State) (r : Nat) (x : Region) : (s.setRegion r x).power = s.power := rfl
@[simp] theorem State.setRegion_agenda (s : State) (r : Nat) (x : Region) : (s.setRegion r x).agenda = s.agenda := rfl
@[simp] theorem State.setRegion_cur (s : State) (r : Nat) (x : Region) : (s.setRegion r x).cur = s.cur := rfl
@[simp] theorem State.setRegion_free (s : State) (r : Nat) (x : Region) : (s.setRegion r x).free = s.free := rfl
@[simp] theorem State.setRegion_mc (s : State) (r : Nat) (x : Region) : (s.setRegion r x).mc = s.mc := rfl
@[simp] theorem State.setRegion_mcr (s : State) (r : Nat) (x : Region) : (s.setRegion r x).mcr = s.mcr := rfl
@[simp] theorem State.setRegion_regions (s : State) (r : Nat) (x : Region) : (s.setRegion r x).regions = Table.put s.regions r x := rfl
@[simp] theorem State.setRegion_mem (s : State) (r : Nat) (x : Region) : (s.setRegion r x).mem = s.mem := rfl
@[simp] theorem State.setRegion_ports (s : State) (r : Nat) (x : Region) : (s.setRegion r x).ports = s.ports := rfl
@[simp] theorem State.setRegion_disp (s : State) (r : Nat) (x : Region) : (s.setRegion r x).disp = s.disp := rfl
@[simp] theorem State.setRegion_engines (s : State) (r : Nat) (x : Region) : (s.setRegion r x).engines = s.engines := rfl
@[simp] theorem State.setRegion_sec (s : State) (r : Nat) (x : Region) : (s.setRegion r x).sec = s.sec := rfl
@[simp] theorem State.setRegion_pow (s : State) (r : Nat) (x : Region) : (s.setRegion r x).pow = s.pow := rfl
@[simp] theorem State.setRegion_flash (s : State) (r : Nat) (x : Region) : (s.setRegion r x).flash = s.flash := rfl
@[simp] theorem State.setRegion_lotar (s : State) (r : Nat) (x : Region) : (s.setRegion r x).lotar = s.lotar := rfl

@[simp] theorem State.setCluster_power (s : State) (k : Nat) (c : Cluster) : (s.setCluster k c).power = s.power := rfl
@[simp] theorem State.setCluster_agenda (s : State) (k : Nat) (c : Cluster) : (s.setCluster k c).agenda = s.agenda := rfl
@[simp] theorem State.setCluster_cur (s : State) (k : Nat) (c : Cluster) : (s.setCluster k c).cur = s.cur := rfl
@[simp] theorem State.setCluster_free (s : State) (k : Nat) (c : Cluster) : (s.setCluster k c).free = s.free := rfl
@[simp] theorem State.setCluster_mc (s : State) (k : Nat) (c : Cluster) : (s.setCluster k c).mc = s.mc := rfl
@[simp] theorem State.setCluster_mcr (s : State) (k : Nat) (c : Cluster) : (s.setCluster k c).mcr = s.mcr := rfl
@[simp] theorem State.setCluster_regions (s : State) (k : Nat) (c : Cluster) : (s.setCluster k c).regions = s.regions := rfl
@[simp] theorem State.setCluster_mem (s : State) (k : Nat) (c : Cluster) : (s.setCluster k c).mem = s.mem := rfl
@[simp] theorem State.setCluster_ports (s : State) (k : Nat) (c : Cluster) : (s.setCluster k c).ports = s.ports := rfl
@[simp] theorem State.setCluster_disp (s : State) (k : Nat) (c : Cluster) : (s.setCluster k c).disp = { s.disp with clusters := Table.put s.disp.clusters k c } := rfl
@[simp] theorem State.setCluster_engines (s : State) (k : Nat) (c : Cluster) : (s.setCluster k c).engines = s.engines := rfl
@[simp] theorem State.setCluster_sec (s : State) (k : Nat) (c : Cluster) : (s.setCluster k c).sec = s.sec := rfl
@[simp] theorem State.setCluster_pow (s : State) (k : Nat) (c : Cluster) : (s.setCluster k c).pow = s.pow := rfl
@[simp] theorem State.setCluster_flash (s : State) (k : Nat) (c : Cluster) : (s.setCluster k c).flash = s.flash := rfl
@[simp] theorem State.setCluster_lotar (s : State) (k : Nat) (c : Cluster) : (s.setCluster k c).lotar = s.lotar := rfl

@[simp] theorem State.nextFree_power (s : State) : (s.nextFree).power = s.power := rfl
@[simp] theorem State.nextFree_agenda (s : State) : (s.nextFree).agenda = s.agenda := rfl
@[simp] theorem State.nextFree_cur (s : State) : (s.nextFree).cur = s.cur := rfl
@[simp] theorem State.nextFree_free (s : State) : (s.nextFree).free = s.free + 1 := rfl
@[simp] theorem State.nextFree_mc (s : State) : (s.nextFree).mc = s.mc := rfl
@[simp] theorem State.nextFree_mcr (s : State) : (s.nextFree).mcr = s.mcr := rfl
@[simp] theorem State.nextFree_regions (s : State) : (s.nextFree).regions = s.regions := rfl
@[simp] theorem State.nextFree_mem (s : State) : (s.nextFree).mem = s.mem := rfl
@[simp] theorem State.nextFree_ports (s : State) : (s.nextFree).ports = s.ports := rfl
@[simp] theorem State.nextFree_disp (s : State) : (s.nextFree).disp = s.disp := rfl
@[simp] theorem State.nextFree_engines (s : State) : (s.nextFree).engines = s.engines := rfl
@[simp] theorem State.nextFree_sec (s : State) : (s.nextFree).sec = s.sec := rfl
@[simp] theorem State.nextFree_pow (s : State) : (s.nextFree).pow = s.pow := rfl
@[simp] theorem State.nextFree_flash (s : State) : (s.nextFree).flash = s.flash := rfl
@[simp] theorem State.nextFree_lotar (s : State) : (s.nextFree).lotar = s.lotar := rfl

@[simp] theorem State.notify_power (s : State) (n : Notice) : (s.notify n).power = s.power := rfl
@[simp] theorem State.notify_agenda (s : State) (n : Notice) : (s.notify n).agenda = s.agenda := rfl
@[simp] theorem State.notify_cur (s : State) (n : Notice) : (s.notify n).cur = s.cur := rfl
@[simp] theorem State.notify_free (s : State) (n : Notice) : (s.notify n).free = s.free := rfl
@[simp] theorem State.notify_mc (s : State) (n : Notice) : (s.notify n).mc = s.mc := rfl
@[simp] theorem State.notify_mcr (s : State) (n : Notice) : (s.notify n).mcr = s.mcr := rfl
@[simp] theorem State.notify_regions (s : State) (n : Notice) : (s.notify n).regions = s.regions := rfl
@[simp] theorem State.notify_mem (s : State) (n : Notice) : (s.notify n).mem = s.mem := rfl
@[simp] theorem State.notify_ports (s : State) (n : Notice) : (s.notify n).ports = s.ports := rfl
@[simp] theorem State.notify_disp (s : State) (n : Notice) : (s.notify n).disp = { s.disp with notices := s.disp.notices ++ [n] } := rfl
@[simp] theorem State.notify_engines (s : State) (n : Notice) : (s.notify n).engines = s.engines := rfl
@[simp] theorem State.notify_sec (s : State) (n : Notice) : (s.notify n).sec = s.sec := rfl
@[simp] theorem State.notify_pow (s : State) (n : Notice) : (s.notify n).pow = s.pow := rfl
@[simp] theorem State.notify_flash (s : State) (n : Notice) : (s.notify n).flash = s.flash := rfl
@[simp] theorem State.notify_lotar (s : State) (n : Notice) : (s.notify n).lotar = s.lotar := rfl

@[simp] theorem State.fatalFault_power (s : State) (k cls r site : Nat) : (s.fatalFault k cls r site).power = s.power := rfl
@[simp] theorem State.fatalFault_agenda (s : State) (k cls r site : Nat) : (s.fatalFault k cls r site).agenda = s.agenda := rfl
@[simp] theorem State.fatalFault_cur (s : State) (k cls r site : Nat) : (s.fatalFault k cls r site).cur = s.cur := rfl
@[simp] theorem State.fatalFault_free (s : State) (k cls r site : Nat) : (s.fatalFault k cls r site).free = s.free := rfl
@[simp] theorem State.fatalFault_mc (s : State) (k cls r site : Nat) : (s.fatalFault k cls r site).mc = s.mc := rfl
@[simp] theorem State.fatalFault_mcr (s : State) (k cls r site : Nat) : (s.fatalFault k cls r site).mcr = s.mcr := rfl
@[simp] theorem State.fatalFault_regions (s : State) (k cls r site : Nat) : (s.fatalFault k cls r site).regions = s.regions := rfl
@[simp] theorem State.fatalFault_mem (s : State) (k cls r site : Nat) : (s.fatalFault k cls r site).mem = s.mem := rfl
@[simp] theorem State.fatalFault_ports (s : State) (k cls r site : Nat) : (s.fatalFault k cls r site).ports = s.ports := rfl
@[simp] theorem State.fatalFault_disp (s : State) (k cls r site : Nat) : (s.fatalFault k cls r site).disp = { s.disp with fatal := s.disp.fatal ++
      [{ cluster := k, cls := BitVec.ofNat 8 cls, region := r, site := site }] } := rfl
@[simp] theorem State.fatalFault_engines (s : State) (k cls r site : Nat) : (s.fatalFault k cls r site).engines = s.engines := rfl
@[simp] theorem State.fatalFault_sec (s : State) (k cls r site : Nat) : (s.fatalFault k cls r site).sec = s.sec := rfl
@[simp] theorem State.fatalFault_pow (s : State) (k cls r site : Nat) : (s.fatalFault k cls r site).pow = s.pow := rfl
@[simp] theorem State.fatalFault_flash (s : State) (k cls r site : Nat) : (s.fatalFault k cls r site).flash = s.flash := rfl
@[simp] theorem State.fatalFault_lotar (s : State) (k cls r site : Nat) : (s.fatalFault k cls r site).lotar = s.lotar := rfl

@[simp] theorem State.dropCoreReads_power (s : State) (c : CoreId) : (s.dropCoreReads c).power = s.power := rfl
@[simp] theorem State.dropCoreReads_agenda (s : State) (c : CoreId) : (s.dropCoreReads c).agenda = s.agenda := rfl
@[simp] theorem State.dropCoreReads_cur (s : State) (c : CoreId) : (s.dropCoreReads c).cur = s.cur := rfl
@[simp] theorem State.dropCoreReads_free (s : State) (c : CoreId) : (s.dropCoreReads c).free = s.free := rfl
@[simp] theorem State.dropCoreReads_mc (s : State) (c : CoreId) : (s.dropCoreReads c).mc = s.mc := rfl
@[simp] theorem State.dropCoreReads_mcr (s : State) (c : CoreId) : (s.dropCoreReads c).mcr = s.mcr := rfl
@[simp] theorem State.dropCoreReads_regions (s : State) (c : CoreId) : (s.dropCoreReads c).regions = s.regions := rfl
@[simp] theorem State.dropCoreReads_mem (s : State) (c : CoreId) : (s.dropCoreReads c).mem = s.mem := rfl
@[simp] theorem State.dropCoreReads_ports (s : State) (c : CoreId) : (s.dropCoreReads c).ports = { s.ports with
      reads := s.ports.reads.filter (fun r => r.reader != .core c && r.reader != .fetch c) } := rfl
@[simp] theorem State.dropCoreReads_disp (s : State) (c : CoreId) : (s.dropCoreReads c).disp = s.disp := rfl
@[simp] theorem State.dropCoreReads_engines (s : State) (c : CoreId) : (s.dropCoreReads c).engines = s.engines := rfl
@[simp] theorem State.dropCoreReads_sec (s : State) (c : CoreId) : (s.dropCoreReads c).sec = s.sec := rfl
@[simp] theorem State.dropCoreReads_pow (s : State) (c : CoreId) : (s.dropCoreReads c).pow = s.pow := rfl
@[simp] theorem State.dropCoreReads_flash (s : State) (c : CoreId) : (s.dropCoreReads c).flash = s.flash := rfl
@[simp] theorem State.dropCoreReads_lotar (s : State) (c : CoreId) : (s.dropCoreReads c).lotar = s.lotar := rfl

@[simp] theorem State.setSram_power (s : State) (a n v : Nat) : (s.setSram a n v).power = s.power := rfl
@[simp] theorem State.setSram_agenda (s : State) (a n v : Nat) : (s.setSram a n v).agenda = s.agenda := rfl
@[simp] theorem State.setSram_cur (s : State) (a n v : Nat) : (s.setSram a n v).cur = s.cur := rfl
@[simp] theorem State.setSram_free (s : State) (a n v : Nat) : (s.setSram a n v).free = s.free := rfl
@[simp] theorem State.setSram_mc (s : State) (a n v : Nat) : (s.setSram a n v).mc = s.mc := rfl
@[simp] theorem State.setSram_mcr (s : State) (a n v : Nat) : (s.setSram a n v).mcr = s.mcr := rfl
@[simp] theorem State.setSram_regions (s : State) (a n v : Nat) : (s.setSram a n v).regions = s.regions := rfl
@[simp] theorem State.setSram_mem (s : State) (a n v : Nat) : (s.setSram a n v).mem = s.mem.setBytes (.sram a) (leBytes n v) := rfl
@[simp] theorem State.setSram_ports (s : State) (a n v : Nat) : (s.setSram a n v).ports = s.ports := rfl
@[simp] theorem State.setSram_disp (s : State) (a n v : Nat) : (s.setSram a n v).disp = s.disp := rfl
@[simp] theorem State.setSram_engines (s : State) (a n v : Nat) : (s.setSram a n v).engines = s.engines := rfl
@[simp] theorem State.setSram_sec (s : State) (a n v : Nat) : (s.setSram a n v).sec = s.sec := rfl
@[simp] theorem State.setSram_pow (s : State) (a n v : Nat) : (s.setSram a n v).pow = s.pow := rfl
@[simp] theorem State.setSram_flash (s : State) (a n v : Nat) : (s.setSram a n v).flash = s.flash := rfl
@[simp] theorem State.setSram_lotar (s : State) (a n v : Nat) : (s.setSram a n v).lotar = s.lotar := rfl

/-! ## Updates of a core -/

@[simp] theorem Core.complete_regs (c : Core) (pc : W64) : (c.complete pc).regs = c.regs := rfl
@[simp] theorem Core.complete_preds (c : Core) (pc : W64) : (c.complete pc).preds = c.preds := rfl
@[simp] theorem Core.complete_pc (c : Core) (pc : W64) : (c.complete pc).pc = pc := rfl
@[simp] theorem Core.complete_priv (c : Core) (pc : W64) : (c.complete pc).priv = c.priv := rfl
@[simp] theorem Core.complete_iter (c : Core) (pc : W64) : (c.complete pc).iter = c.iter := rfl
@[simp] theorem Core.complete_seqDiscard (c : Core) (pc : W64) : (c.complete pc).seqDiscard = c.seqDiscard := rfl
@[simp] theorem Core.complete_evtPend (c : Core) (pc : W64) : (c.complete pc).evtPend = c.evtPend := rfl
@[simp] theorem Core.complete_evtMask (c : Core) (pc : W64) : (c.complete pc).evtMask = c.evtMask := rfl
@[simp] theorem Core.complete_insnCount (c : Core) (pc : W64) : (c.complete pc).insnCount = c.insnCount + 1#64 := rfl
@[simp] theorem Core.complete_cfgReject (c : Core) (pc : W64) : (c.complete pc).cfgReject = c.cfgReject := rfl
@[simp] theorem Core.complete_ltag (c : Core) (pc : W64) : (c.complete pc).ltag = c.ltag := rfl
@[simp] theorem Core.complete_disc (c : Core) (pc : W64) : (c.complete pc).disc = c.disc := rfl
@[simp] theorem Core.complete_ucause (c : Core) (pc : W64) : (c.complete pc).ucause = c.ucause := rfl
@[simp] theorem Core.complete_cfgErr (c : Core) (pc : W64) : (c.complete pc).cfgErr = c.cfgErr := rfl
@[simp] theorem Core.complete_exitLast (c : Core) (pc : W64) : (c.complete pc).exitLast = c.exitLast := rfl
@[simp] theorem Core.complete_trap (c : Core) (pc : W64) : (c.complete pc).trap = c.trap := rfl
@[simp] theorem Core.complete_issue (c : Core) (pc : W64) : (c.complete pc).issue = c.issue := rfl
@[simp] theorem Core.complete_run (c : Core) (pc : W64) : (c.complete pc).run = c.run := rfl
@[simp] theorem Core.complete_wait (c : Core) (pc : W64) : (c.complete pc).wait = .none := rfl
@[simp] theorem Core.complete_fetched (c : Core) (pc : W64) : (c.complete pc).fetched = none := rfl

@[simp] theorem Core.raiseEvent_regs (c : Core) (bit : Nat) : (c.raiseEvent bit).regs = c.regs := rfl
@[simp] theorem Core.raiseEvent_preds (c : Core) (bit : Nat) : (c.raiseEvent bit).preds = c.preds := rfl
@[simp] theorem Core.raiseEvent_pc (c : Core) (bit : Nat) : (c.raiseEvent bit).pc = c.pc := rfl
@[simp] theorem Core.raiseEvent_priv (c : Core) (bit : Nat) : (c.raiseEvent bit).priv = c.priv := rfl
@[simp] theorem Core.raiseEvent_iter (c : Core) (bit : Nat) : (c.raiseEvent bit).iter = c.iter := rfl
@[simp] theorem Core.raiseEvent_seqDiscard (c : Core) (bit : Nat) : (c.raiseEvent bit).seqDiscard = c.seqDiscard := rfl
@[simp] theorem Core.raiseEvent_evtPend (c : Core) (bit : Nat) : (c.raiseEvent bit).evtPend = c.evtPend ||| (1#5 <<< bit) := rfl
@[simp] theorem Core.raiseEvent_evtMask (c : Core) (bit : Nat) : (c.raiseEvent bit).evtMask = c.evtMask := rfl
@[simp] theorem Core.raiseEvent_insnCount (c : Core) (bit : Nat) : (c.raiseEvent bit).insnCount = c.insnCount := rfl
@[simp] theorem Core.raiseEvent_cfgReject (c : Core) (bit : Nat) : (c.raiseEvent bit).cfgReject = c.cfgReject := rfl
@[simp] theorem Core.raiseEvent_ltag (c : Core) (bit : Nat) : (c.raiseEvent bit).ltag = c.ltag := rfl
@[simp] theorem Core.raiseEvent_disc (c : Core) (bit : Nat) : (c.raiseEvent bit).disc = c.disc := rfl
@[simp] theorem Core.raiseEvent_ucause (c : Core) (bit : Nat) : (c.raiseEvent bit).ucause = c.ucause := rfl
@[simp] theorem Core.raiseEvent_cfgErr (c : Core) (bit : Nat) : (c.raiseEvent bit).cfgErr = c.cfgErr := rfl
@[simp] theorem Core.raiseEvent_exitLast (c : Core) (bit : Nat) : (c.raiseEvent bit).exitLast = c.exitLast := rfl
@[simp] theorem Core.raiseEvent_trap (c : Core) (bit : Nat) : (c.raiseEvent bit).trap = c.trap := rfl
@[simp] theorem Core.raiseEvent_issue (c : Core) (bit : Nat) : (c.raiseEvent bit).issue = c.issue := rfl
@[simp] theorem Core.raiseEvent_run (c : Core) (bit : Nat) : (c.raiseEvent bit).run = c.run := rfl
@[simp] theorem Core.raiseEvent_wait (c : Core) (bit : Nat) : (c.raiseEvent bit).wait = c.wait := rfl
@[simp] theorem Core.raiseEvent_fetched (c : Core) (bit : Nat) : (c.raiseEvent bit).fetched = c.fetched := rfl

@[simp] theorem Core.setReg_preds (c : Core) (i : SReg) (v : W64) : (c.setReg i v).preds = c.preds := by unfold Core.setReg; split <;> rfl
@[simp] theorem Core.setReg_pc (c : Core) (i : SReg) (v : W64) : (c.setReg i v).pc = c.pc := by unfold Core.setReg; split <;> rfl
@[simp] theorem Core.setReg_priv (c : Core) (i : SReg) (v : W64) : (c.setReg i v).priv = c.priv := by unfold Core.setReg; split <;> rfl
@[simp] theorem Core.setReg_iter (c : Core) (i : SReg) (v : W64) : (c.setReg i v).iter = c.iter := by unfold Core.setReg; split <;> rfl
@[simp] theorem Core.setReg_seqDiscard (c : Core) (i : SReg) (v : W64) : (c.setReg i v).seqDiscard = c.seqDiscard := by unfold Core.setReg; split <;> rfl
@[simp] theorem Core.setReg_evtPend (c : Core) (i : SReg) (v : W64) : (c.setReg i v).evtPend = c.evtPend := by unfold Core.setReg; split <;> rfl
@[simp] theorem Core.setReg_evtMask (c : Core) (i : SReg) (v : W64) : (c.setReg i v).evtMask = c.evtMask := by unfold Core.setReg; split <;> rfl
@[simp] theorem Core.setReg_insnCount (c : Core) (i : SReg) (v : W64) : (c.setReg i v).insnCount = c.insnCount := by unfold Core.setReg; split <;> rfl
@[simp] theorem Core.setReg_cfgReject (c : Core) (i : SReg) (v : W64) : (c.setReg i v).cfgReject = c.cfgReject := by unfold Core.setReg; split <;> rfl
@[simp] theorem Core.setReg_ltag (c : Core) (i : SReg) (v : W64) : (c.setReg i v).ltag = c.ltag := by unfold Core.setReg; split <;> rfl
@[simp] theorem Core.setReg_disc (c : Core) (i : SReg) (v : W64) : (c.setReg i v).disc = c.disc := by unfold Core.setReg; split <;> rfl
@[simp] theorem Core.setReg_ucause (c : Core) (i : SReg) (v : W64) : (c.setReg i v).ucause = c.ucause := by unfold Core.setReg; split <;> rfl
@[simp] theorem Core.setReg_cfgErr (c : Core) (i : SReg) (v : W64) : (c.setReg i v).cfgErr = c.cfgErr := by unfold Core.setReg; split <;> rfl
@[simp] theorem Core.setReg_exitLast (c : Core) (i : SReg) (v : W64) : (c.setReg i v).exitLast = c.exitLast := by unfold Core.setReg; split <;> rfl
@[simp] theorem Core.setReg_trap (c : Core) (i : SReg) (v : W64) : (c.setReg i v).trap = c.trap := by unfold Core.setReg; split <;> rfl
@[simp] theorem Core.setReg_issue (c : Core) (i : SReg) (v : W64) : (c.setReg i v).issue = c.issue := by unfold Core.setReg; split <;> rfl
@[simp] theorem Core.setReg_run (c : Core) (i : SReg) (v : W64) : (c.setReg i v).run = c.run := by unfold Core.setReg; split <;> rfl
@[simp] theorem Core.setReg_wait (c : Core) (i : SReg) (v : W64) : (c.setReg i v).wait = c.wait := by unfold Core.setReg; split <;> rfl
@[simp] theorem Core.setReg_fetched (c : Core) (i : SReg) (v : W64) : (c.setReg i v).fetched = c.fetched := by unfold Core.setReg; split <;> rfl

@[simp] theorem Core.setPred_regs (c : Core) (p : PReg) (b : Bool) : (c.setPred p b).regs = c.regs := by unfold Core.setPred; split <;> rfl
@[simp] theorem Core.setPred_pc (c : Core) (p : PReg) (b : Bool) : (c.setPred p b).pc = c.pc := by unfold Core.setPred; split <;> rfl
@[simp] theorem Core.setPred_priv (c : Core) (p : PReg) (b : Bool) : (c.setPred p b).priv = c.priv := by unfold Core.setPred; split <;> rfl
@[simp] theorem Core.setPred_iter (c : Core) (p : PReg) (b : Bool) : (c.setPred p b).iter = c.iter := by unfold Core.setPred; split <;> rfl
@[simp] theorem Core.setPred_seqDiscard (c : Core) (p : PReg) (b : Bool) : (c.setPred p b).seqDiscard = c.seqDiscard := by unfold Core.setPred; split <;> rfl
@[simp] theorem Core.setPred_evtPend (c : Core) (p : PReg) (b : Bool) : (c.setPred p b).evtPend = c.evtPend := by unfold Core.setPred; split <;> rfl
@[simp] theorem Core.setPred_evtMask (c : Core) (p : PReg) (b : Bool) : (c.setPred p b).evtMask = c.evtMask := by unfold Core.setPred; split <;> rfl
@[simp] theorem Core.setPred_insnCount (c : Core) (p : PReg) (b : Bool) : (c.setPred p b).insnCount = c.insnCount := by unfold Core.setPred; split <;> rfl
@[simp] theorem Core.setPred_cfgReject (c : Core) (p : PReg) (b : Bool) : (c.setPred p b).cfgReject = c.cfgReject := by unfold Core.setPred; split <;> rfl
@[simp] theorem Core.setPred_ltag (c : Core) (p : PReg) (b : Bool) : (c.setPred p b).ltag = c.ltag := by unfold Core.setPred; split <;> rfl
@[simp] theorem Core.setPred_disc (c : Core) (p : PReg) (b : Bool) : (c.setPred p b).disc = c.disc := by unfold Core.setPred; split <;> rfl
@[simp] theorem Core.setPred_ucause (c : Core) (p : PReg) (b : Bool) : (c.setPred p b).ucause = c.ucause := by unfold Core.setPred; split <;> rfl
@[simp] theorem Core.setPred_cfgErr (c : Core) (p : PReg) (b : Bool) : (c.setPred p b).cfgErr = c.cfgErr := by unfold Core.setPred; split <;> rfl
@[simp] theorem Core.setPred_exitLast (c : Core) (p : PReg) (b : Bool) : (c.setPred p b).exitLast = c.exitLast := by unfold Core.setPred; split <;> rfl
@[simp] theorem Core.setPred_trap (c : Core) (p : PReg) (b : Bool) : (c.setPred p b).trap = c.trap := by unfold Core.setPred; split <;> rfl
@[simp] theorem Core.setPred_issue (c : Core) (p : PReg) (b : Bool) : (c.setPred p b).issue = c.issue := by unfold Core.setPred; split <;> rfl
@[simp] theorem Core.setPred_run (c : Core) (p : PReg) (b : Bool) : (c.setPred p b).run = c.run := by unfold Core.setPred; split <;> rfl
@[simp] theorem Core.setPred_wait (c : Core) (p : PReg) (b : Bool) : (c.setPred p b).wait = c.wait := by unfold Core.setPred; split <;> rfl
@[simp] theorem Core.setPred_fetched (c : Core) (p : PReg) (b : Bool) : (c.setPred p b).fetched = c.fetched := by unfold Core.setPred; split <;> rfl

@[simp] theorem Core.retire_eq (c : Core) : c.retire = c.complete (c.pc + 4#64) := rfl

/-- s0 reads as zero (R154). -/
@[simp] theorem Core.reg_zero (c : Core) : c.reg 0#5 = 0#64 := rfl

/-- A register after a write: s0 stays zero, the register written holds the value, every other keeps its own (R154, R160). -/
theorem Core.reg_setReg (c : Core) (d e : SReg) (v : W64) :
    (c.setReg d v).reg e = if e = d ∧ d ≠ 0#5 then v else c.reg e := by
  unfold Core.setReg
  by_cases hd : d = 0#5
  · simp [hd]
  · simp only [hd, if_false, not_false_eq_true, and_true, ne_eq]
    by_cases he : e = d
    · subst he; simp [Core.reg, hd]
    · have hn : d.toNat ≠ e.toNat := fun h => he (BitVec.eq_of_toNat_eq h.symm)
      simp only [he, if_false]
      unfold Core.reg
      split
      · rfl
      · exact Vector.getElem_set_ne d.isLt e.isLt hn

@[simp] theorem Core.reg_complete (c : Core) (pc : W64) (e : SReg) : (c.complete pc).reg e = c.reg e := rfl
@[simp] theorem Core.pred_complete (c : Core) (pc : W64) (p : PReg) : (c.complete pc).pred p = c.pred p := rfl
@[simp] theorem Core.reg_setPred (c : Core) (p : PReg) (b : Bool) (e : SReg) : (c.setPred p b).reg e = c.reg e := by
  unfold Core.setPred; split <;> rfl
@[simp] theorem Core.pred_setReg (c : Core) (d : SReg) (v : W64) (p : PReg) : (c.setReg d v).pred p = c.pred p := by
  unfold Core.setReg; split <;> rfl

/-! ## The current core and the regions -/

@[simp] theorem State.region_setRegion (s : State) (r : Nat) (x : Region) : (s.setRegion r x).region r = x := by
  simp [State.region]

theorem State.region_setRegion_ne (s : State) {r q : Nat} (x : Region) (h : q ≠ r) :
    (s.setRegion r x).region q = s.region q := by
  simp [State.region, Table.get_put_ne _ _ _ h]

@[simp] theorem State.setRegion_setRegion (s : State) (r : Nat) (x y : Region) :
    (s.setRegion r x).setRegion r y = s.setRegion r y := by simp [State.setRegion]

@[simp] theorem State.core_setCore (s : State) (c : CoreId) (x : Core) : (s.setCore c x).core c = x := by
  cases c <;> simp [State.setCore, State.core]

@[simp] theorem State.setCore_setCore (s : State) (c : CoreId) (x y : Core) :
    (s.setCore c x).setCore c y = s.setCore c y := by
  cases c <;> simp [State.setCore]

@[simp] theorem State.setCore_power (s : State) (c : CoreId) (x : Core) : (s.setCore c x).power = s.power := by cases c <;> rfl
@[simp] theorem State.setMe_power (s : State) (x : Core) : (s.setMe x).power = s.power := by simp [State.setMe]
@[simp] theorem State.setCore_agenda (s : State) (c : CoreId) (x : Core) : (s.setCore c x).agenda = s.agenda := by cases c <;> rfl
@[simp] theorem State.setMe_agenda (s : State) (x : Core) : (s.setMe x).agenda = s.agenda := by simp [State.setMe]
@[simp] theorem State.setCore_cur (s : State) (c : CoreId) (x : Core) : (s.setCore c x).cur = s.cur := by cases c <;> rfl
@[simp] theorem State.setMe_cur (s : State) (x : Core) : (s.setMe x).cur = s.cur := by simp [State.setMe]
@[simp] theorem State.setCore_free (s : State) (c : CoreId) (x : Core) : (s.setCore c x).free = s.free := by cases c <;> rfl
@[simp] theorem State.setMe_free (s : State) (x : Core) : (s.setMe x).free = s.free := by simp [State.setMe]
@[simp] theorem State.setCore_mcr (s : State) (c : CoreId) (x : Core) : (s.setCore c x).mcr = s.mcr := by cases c <;> rfl
@[simp] theorem State.setMe_mcr (s : State) (x : Core) : (s.setMe x).mcr = s.mcr := by simp [State.setMe]
@[simp] theorem State.setCore_mem (s : State) (c : CoreId) (x : Core) : (s.setCore c x).mem = s.mem := by cases c <;> rfl
@[simp] theorem State.setMe_mem (s : State) (x : Core) : (s.setMe x).mem = s.mem := by simp [State.setMe]
@[simp] theorem State.setCore_ports (s : State) (c : CoreId) (x : Core) : (s.setCore c x).ports = s.ports := by cases c <;> rfl
@[simp] theorem State.setMe_ports (s : State) (x : Core) : (s.setMe x).ports = s.ports := by simp [State.setMe]
@[simp] theorem State.setCore_disp (s : State) (c : CoreId) (x : Core) : (s.setCore c x).disp = s.disp := by cases c <;> rfl
@[simp] theorem State.setMe_disp (s : State) (x : Core) : (s.setMe x).disp = s.disp := by simp [State.setMe]
@[simp] theorem State.setCore_engines (s : State) (c : CoreId) (x : Core) : (s.setCore c x).engines = s.engines := by cases c <;> rfl
@[simp] theorem State.setMe_engines (s : State) (x : Core) : (s.setMe x).engines = s.engines := by simp [State.setMe]
@[simp] theorem State.setCore_sec (s : State) (c : CoreId) (x : Core) : (s.setCore c x).sec = s.sec := by cases c <;> rfl
@[simp] theorem State.setMe_sec (s : State) (x : Core) : (s.setMe x).sec = s.sec := by simp [State.setMe]
@[simp] theorem State.setCore_pow (s : State) (c : CoreId) (x : Core) : (s.setCore c x).pow = s.pow := by cases c <;> rfl
@[simp] theorem State.setMe_pow (s : State) (x : Core) : (s.setMe x).pow = s.pow := by simp [State.setMe]
@[simp] theorem State.setCore_flash (s : State) (c : CoreId) (x : Core) : (s.setCore c x).flash = s.flash := by cases c <;> rfl
@[simp] theorem State.setMe_flash (s : State) (x : Core) : (s.setMe x).flash = s.flash := by simp [State.setMe]
@[simp] theorem State.setCore_lotar (s : State) (c : CoreId) (x : Core) : (s.setCore c x).lotar = s.lotar := by cases c <;> rfl
@[simp] theorem State.setMe_lotar (s : State) (x : Core) : (s.setMe x).lotar = s.lotar := by simp [State.setMe]

/-- The current core after it is written. -/
@[simp] theorem State.me_setMe (s : State) (x : Core) : (s.setMe x).me = x := by
  unfold State.me; rw [State.setMe_cur]; exact State.core_setCore s s.cur x

@[simp] theorem State.setMe_setMe (s : State) (x y : Core) : (s.setMe x).setMe y = s.setMe y := by
  unfold State.setMe; rw [State.setCore_cur]; exact State.setCore_setCore s s.cur x y

@[simp] theorem State.me_dropCoreReads (s : State) (c : CoreId) : (s.dropCoreReads c).me = s.me := by
  unfold State.me; cases h : s.cur <;> simp [State.core, h, State.region]

end Sys2Proof.Machine
end

