-- ==== Sys2Proof/Laws/Access.lean ====
section
/-! SUPPORT. What the accesses of a core can do: translation and bounds change nothing but the cached translations and the
counter of free values; a load changes no memory; what the shared operations answer when their checks pass. -/

namespace Sys2Proof.Machine

/-- `t` differs from `s` at most in the cached translations and the counter of free values. -/
def SameButTlb (s t : State) : Prop :=
  ∃ l n, t = { s with free := n, ports := { s.ports with tlb := l } }

theorem SameButTlb.refl (s : State) : SameButTlb s s := ⟨s.ports.tlb, s.free, rfl⟩

theorem SameButTlb.mem {s t : State} (h : SameButTlb s t) : t.mem = s.mem := by obtain ⟨_, _, rfl⟩ := h; rfl
theorem SameButTlb.cur {s t : State} (h : SameButTlb s t) : t.cur = s.cur := by obtain ⟨_, _, rfl⟩ := h; rfl
theorem SameButTlb.disp {s t : State} (h : SameButTlb s t) : t.disp = s.disp := by obtain ⟨_, _, rfl⟩ := h; rfl
theorem SameButTlb.regions {s t : State} (h : SameButTlb s t) : t.regions = s.regions := by obtain ⟨_, _, rfl⟩ := h; rfl
theorem SameButTlb.mc {s t : State} (h : SameButTlb s t) : t.mc = s.mc := by obtain ⟨_, _, rfl⟩ := h; rfl
theorem SameButTlb.mcr {s t : State} (h : SameButTlb s t) : t.mcr = s.mcr := by obtain ⟨_, _, rfl⟩ := h; rfl
theorem SameButTlb.sc {s t : State} (h : SameButTlb s t) : t.ports.sc = s.ports.sc := by obtain ⟨_, _, rfl⟩ := h; rfl
theorem SameButTlb.reads {s t : State} (h : SameButTlb s t) : t.ports.reads = s.ports.reads := by
  obtain ⟨_, _, rfl⟩ := h; rfl
theorem SameButTlb.me {s t : State} (h : SameButTlb s t) : t.me = s.me := by
  obtain ⟨_, _, rfl⟩ := h
  unfold State.me
  cases s.cur <;> rfl

theorem SameButTlb.trans {s t u : State} (h : SameButTlb s t) (g : SameButTlb t u) : SameButTlb s u := by
  obtain ⟨_, _, rfl⟩ := h
  obtain ⟨_, _, rfl⟩ := g
  exact ⟨_, _, rfl⟩

/-- The entry that a walk uses is a cached one or the table's own, which is cached (R152). -/
theorem State.entryUsed_same (s : State) (asid va n e : Nat) : SameButTlb s (s.entryUsed asid va n e).1 := by
  unfold State.entryUsed
  split
  · exact ⟨_, _, rfl⟩
  · split
    · exact .refl s
    · split <;> exact ⟨_, _, rfl⟩

theorem State.walkCached_same (asid va : Nat) : ∀ (n a : Nat) (s : State), SameButTlb s (s.walkCached asid va n a).1 := by
  intro n
  induction n with
  | zero =>
    intro a s
    have h := s.entryUsed_same asid va 0 (tableEntry s.mem.hbm va 0 a)
    unfold State.walkCached
    dsimp only
    split <;> first | exact h | simp_all
  | succ n ih =>
    intro a s
    have h := s.entryUsed_same asid va (n + 1) (tableEntry s.mem.hbm va (n + 1) a)
    unfold State.walkCached
    dsimp only
    split
    · exact h
    · exact h
    · simp_all
    · rename_i hm
      cases hm
      exact h.trans (ih _ _)

theorem State.leafOf_same (s : State) (asid va : Nat) : SameButTlb s (s.leafOf asid va).1 := by
  unfold State.leafOf
  split
  · exact .refl s
  · split
    · exact .refl s
    · exact State.walkCached_same asid va 3 _ s

/-- Translation changes nothing but the cached entries and the counter of free values (R152). -/
theorem State.translate_same (s : State) (asid va : Nat) (acc : Acc) : SameButTlb s (s.translate asid va acc).1 := by
  have h := s.leafOf_same asid va
  unfold State.translate
  split <;> simp_all

theorem State.translateRead_same (s : State) (rd : Reader) (asid va : Nat) (acc : Acc) :
    SameButTlb s (s.translateRead rd asid va acc).1 := by
  unfold State.translateRead
  split
  · exact .refl s
  · exact s.translate_same asid va acc

theorem State.coreResolve_same (s : State) (ea : W64) (acc : Acc) : SameButTlb s (s.coreResolve ea acc).1 := by
  unfold State.coreResolve
  split
  · exact .refl s
  · exact .refl s
  · have h := s.translateRead_same (.core s.cur) (s.coreAsid s.cur) (‹W64›).toNat acc
    split <;> simp_all

/-- A frame changes a link's counter, and may put the link's rekeying on the agenda (R132). -/
theorem State.stepIv_same (s : State) (m : Nat) (out : Bool) :
    ∃ x g, s.stepIv m out = { s with sec := x, agenda := g } := by
  unfold State.stepIv
  split
  · exact ⟨s.sec, s.agenda, rfl⟩
  · exact ⟨_, _, rfl⟩

/-- The frames of a granule change no more than that. -/
theorem State.frames_same (s : State) (p : Place) : ∃ x g, s.frames p = { s with sec := x, agenda := g } := by
  unfold State.frames
  split
  · split
    · exact ⟨s.sec, s.agenda, rfl⟩
    · rename_i a _
      obtain ⟨x, g, h⟩ := s.stepIv_same (a / 2 ^ 47 - 1) true
      obtain ⟨y, k, h'⟩ := State.stepIv_same { s with sec := x, agenda := g } (a / 2 ^ 47 - 1) false
      exact ⟨y, k, by rw [h, h']⟩
  · exact ⟨s.sec, s.agenda, rfl⟩

/-- An energy changes a cluster's accumulator alone (R460). -/
theorem State.pay_same (s : State) (k : Option Nat) (n : Nat) :
    ∃ c, s.pay k n = { s with disp := { s.disp with clusters := c } } := by
  unfold State.pay
  split
  · exact ⟨s.disp.clusters, rfl⟩
  · split
    · exact ⟨s.disp.clusters, rfl⟩
    · exact ⟨_, rfl⟩

/-- What is due for a granule moved changes a cluster's accumulator (R460), a link's counters and the agenda (R132), alone. -/
theorem State.charge_same (s : State) (k : Option Nat) (p : Place) :
    ∃ x g c, s.charge k p = { s with sec := x, agenda := g, disp := { s.disp with clusters := c } } := by
  unfold State.charge
  split
  · exact ⟨s.sec, s.agenda, s.disp.clusters, rfl⟩
  · obtain ⟨x, g, h⟩ := s.frames_same p
    obtain ⟨c, h'⟩ := (s.frames p).pay_same k p.charge
    exact ⟨x, g, c, by rw [h', h]⟩

@[simp] theorem State.charge_mem (s : State) (k : Option Nat) (p : Place) : (s.charge k p).mem = s.mem := by
  obtain ⟨_, _, _, h⟩ := s.charge_same k p
  rw [h]
@[simp] theorem State.charge_cur (s : State) (k : Option Nat) (p : Place) : (s.charge k p).cur = s.cur := by
  obtain ⟨_, _, _, h⟩ := s.charge_same k p
  rw [h]
@[simp] theorem State.charge_ports (s : State) (k : Option Nat) (p : Place) : (s.charge k p).ports = s.ports := by
  obtain ⟨_, _, _, h⟩ := s.charge_same k p
  rw [h]
@[simp] theorem State.charge_regions (s : State) (k : Option Nat) (p : Place) : (s.charge k p).regions = s.regions := by
  obtain ⟨_, _, _, h⟩ := s.charge_same k p
  rw [h]
@[simp] theorem State.charge_mc (s : State) (k : Option Nat) (p : Place) : (s.charge k p).mc = s.mc := by
  obtain ⟨_, _, _, h⟩ := s.charge_same k p
  rw [h]
@[simp] theorem State.charge_core (s : State) (k : Option Nat) (p : Place) (c : CoreId) : (s.charge k p).core c = s.core c := by
  obtain ⟨_, _, _, h⟩ := s.charge_same k p
  rw [h]; cases c <;> rfl
@[simp] theorem State.charge_me (s : State) (k : Option Nat) (p : Place) : (s.charge k p).me = s.me := by
  simp [State.me]

/-- What `done` leaves: the core with `f` and completed, memory as it was. -/
theorem done_eq (s : State) (f : Core → Core) :
    ∃ t, done s f = .next t ∧ t.mem = s.mem ∧ t.me = (f s.me).complete ((f s.me).pc + 4#64) ∧ t.cur = s.cur := by
  refine ⟨_, rfl, by simp, ?_, by simp⟩
  simp

/-- A load of a core whose checks pass and whose bytes are at hand writes what `k` makes of them and completes (R179). -/
theorem coreLoad_ok {s s1 s2 : State} {ea : W64} {n : Nat} {acc : Acc} {p : Place} {sa : Bool} {bs : List Byte} (i : Instr)
    (pres : Bool) (k : List Byte → Core → Core) (ha : aligned ea n = true) (hr : s.coreResolve ea acc = (s1, .ok p sa))
    (he : s1.coreEcc p = false) (hl : s1.loadAt (.core s.cur) (s.coreAsid s.cur) p sa n (virtOf s.cur ea) = (s2, .ok bs)) :
    coreLoad s i ea n acc pres k = done (s2.charge (s.coreCluster s.cur) p) (k bs) := by
  simp [coreLoad, ha, hr, he, hl]

/-- A load of a core at an EMPTY granule waits (R180, R371). -/
theorem coreLoad_wait {s s1 s2 : State} {ea : W64} {n : Nat} {acc : Acc} {p : Place} {sa : Bool} (i : Instr)
    (pres : Bool) (k : List Byte → Core → Core) (ha : aligned ea n = true) (hr : s.coreResolve ea acc = (s1, .ok p sa))
    (he : s1.coreEcc p = false) (hl : s1.loadAt (.core s.cur) (s.coreAsid s.cur) p sa n (virtOf s.cur ea) = (s2, .wait)) :
    coreLoad s i ea n acc pres k = .next s2 := by
  simp [coreLoad, ha, hr, he, hl]

/-- A store of a core whose checks pass and that presence takes completes (R179). -/
theorem coreStore_ok {s s1 s2 : State} {ea : W64} {p : Place} {sa : Bool} {bs : List Byte} (i : Instr)
    (ha : aligned ea bs.length = true) (hr : s.coreResolve ea .write = (s1, .ok p sa))
    (he : s1.coreEcc p = false) (hl : s1.storeAt (s.coreAsid s.cur) p sa bs false = .ok s2) :
    coreStore s i ea bs = done (s2.charge (s.coreCluster s.cur) p) id := by
  simp [coreStore, ha, hr, he, hl]

/-- A load at its port changes no memory and no core: at most a read is posted (R371). -/
theorem State.loadAt_same (s : State) (rd : Reader) (asid : Nat) (p : Place) (sa : Bool) (n : Nat) (virt : Option Nat) :
    (s.loadAt rd asid p sa n virt).1 = s ∨ (s.loadAt rd asid p sa n virt).1 = s.postRead rd p asid virt := by
  unfold State.loadAt
  split
  · split
    · exact .inl rfl
    · exact .inl rfl
    · split
      · exact .inr rfl
      · exact .inl rfl
      · exact .inl rfl
  · exact .inl rfl

end Sys2Proof.Machine
end

