-- ==== Sys2Proof/Laws/PerInstr.lean ====
section
/-! SUPPORT. One lemma per instruction: a well-formed instruction has a word. -/

namespace Sys2Proof.Laws.F

/-- A well-formed instruction has a word (R60 to R67). -/
def Statement (i : Instr) : Prop := i.wf = true → (encode i).isSome = true

theorem add (d a b : SReg) : Statement (.add d a b) := fun _ => rfl
theorem sub (d a b : SReg) : Statement (.sub d a b) := fun _ => rfl
theorem mul (d a b : SReg) : Statement (.mul d a b) := fun _ => rfl
theorem mulh (d a b : SReg) : Statement (.mulh d a b) := fun _ => rfl
theorem mulhn (d a b : SReg) : Statement (.mulhn d a b) := fun _ => rfl
theorem div (d a b : SReg) : Statement (.div d a b) := fun _ => rfl
theorem divn (d a b : SReg) : Statement (.divn d a b) := fun _ => rfl
theorem rem (d a b : SReg) : Statement (.rem d a b) := fun _ => rfl
theorem remn (d a b : SReg) : Statement (.remn d a b) := fun _ => rfl
theorem and (d a b : SReg) : Statement (.and d a b) := fun _ => rfl
theorem or (d a b : SReg) : Statement (.or d a b) := fun _ => rfl
theorem xor (d a b : SReg) : Statement (.xor d a b) := fun _ => rfl
theorem andn (d a b : SReg) : Statement (.andn d a b) := fun _ => rfl
theorem sll (d a b : SReg) : Statement (.sll d a b) := fun _ => rfl
theorem srl (d a b : SReg) : Statement (.srl d a b) := fun _ => rfl
theorem sra (d a b : SReg) : Statement (.sra d a b) := fun _ => rfl
theorem min (d a b : SReg) : Statement (.min d a b) := fun _ => rfl
theorem max (d a b : SReg) : Statement (.max d a b) := fun _ => rfl
theorem minn (d a b : SReg) : Statement (.minn d a b) := fun _ => rfl
theorem maxn (d a b : SReg) : Statement (.maxn d a b) := fun _ => rfl
theorem popc (d a : SReg) : Statement (.popc d a) := fun _ => rfl
theorem clz (d a : SReg) : Statement (.clz d a) := fun _ => rfl
theorem sh1add (d a b : SReg) : Statement (.sh1add d a b) := fun _ => rfl
theorem sh2add (d a b : SReg) : Statement (.sh2add d a b) := fun _ => rfl
theorem sh3add (d a b : SReg) : Statement (.sh3add d a b) := fun _ => rfl
theorem addi (d a : SReg) (imm : BitVec 16) : Statement (.addi d a imm) := fun _ => rfl
theorem andi (d a : SReg) (imm : BitVec 16) : Statement (.andi d a imm) := fun _ => rfl
theorem ori (d a : SReg) (imm : BitVec 16) : Statement (.ori d a imm) := fun _ => rfl
theorem xori (d a : SReg) (imm : BitVec 16) : Statement (.xori d a imm) := fun _ => rfl
theorem slli (d a : SReg) (amount : BitVec 6) : Statement (.slli d a amount) := fun _ => rfl
theorem srli (d a : SReg) (amount : BitVec 6) : Statement (.srli d a amount) := fun _ => rfl
theorem srai (d a : SReg) (amount : BitVec 6) : Statement (.srai d a amount) := fun _ => rfl
theorem liz (d : SReg) (hw : BitVec 2) (imm : BitVec 16) : Statement (.liz d hw imm) := fun _ => rfl
theorem lin (d : SReg) (hw : BitVec 2) (imm : BitVec 16) : Statement (.lin d hw imm) := fun _ => rfl
theorem lik (d : SReg) (hw : BitVec 2) (imm : BitVec 16) : Statement (.lik d hw imm) := fun _ => rfl
theorem ext (d a : SReg) (pos lenm : BitVec 6) : Statement (.ext d a pos lenm) := fun _ => rfl
theorem exts (d a : SReg) (pos lenm : BitVec 6) : Statement (.exts d a pos lenm) := fun _ => rfl
theorem ins (d a : SReg) (pos lenm : BitVec 6) : Statement (.ins d a pos lenm) := fun _ => rfl
theorem cmp (p : PReg) (c : Cond) (a b : SReg) : Statement (.cmp p c a b) := fun _ => rfl
theorem cmpi (p : PReg) (c : Cond) (a : SReg) (imm : BitVec 14) : Statement (.cmpi p c a imm) := fun _ => rfl
theorem plog (d a b : PReg) (tt : BitVec 4) : Statement (.plog d a b tt) := fun _ => rfl
theorem sel (d a b : SReg) (p : PReg) : Statement (.sel d a b p) := fun _ => rfl
theorem brc (p : PReg) (off : BitVec 22) : Statement (.brc p off) := fun _ => rfl
theorem brcNot (p : PReg) (off : BitVec 22) : Statement (.brcNot p off) := fun _ => rfl
theorem jal (d : SReg) (off : BitVec 21) : Statement (.jal d off) := fun _ => rfl
theorem jalr (d a : SReg) (imm : BitVec 16) : Statement (.jalr d a imm) := fun _ => rfl
theorem ldI8 (d a : SReg) (off : BitVec 12) : Statement (.ldI8 d a off) := fun _ => rfl
theorem ldI16 (d a : SReg) (off : BitVec 12) : Statement (.ldI16 d a off) := fun _ => rfl
theorem ldI32 (d a : SReg) (off : BitVec 12) : Statement (.ldI32 d a off) := fun _ => rfl
theorem ld64 (d a : SReg) (off : BitVec 12) : Statement (.ld64 d a off) := fun _ => rfl
theorem ldN8 (d a : SReg) (off : BitVec 12) : Statement (.ldN8 d a off) := fun _ => rfl
theorem ldN16 (d a : SReg) (off : BitVec 12) : Statement (.ldN16 d a off) := fun _ => rfl
theorem ldN32 (d a : SReg) (off : BitVec 12) : Statement (.ldN32 d a off) := fun _ => rfl
theorem st8 (d a : SReg) (off : BitVec 12) : Statement (.st8 d a off) := fun _ => rfl
theorem st16 (d a : SReg) (off : BitVec 12) : Statement (.st16 d a off) := fun _ => rfl
theorem st32 (d a : SReg) (off : BitVec 12) : Statement (.st32 d a off) := fun _ => rfl
theorem st64 (d a : SReg) (off : BitVec 12) : Statement (.st64 d a off) := fun _ => rfl
theorem lda (d a : SReg) (scope : Scope) (w : Width) : Statement (.lda d a scope w) := fun _ => rfl
theorem stl (a b : SReg) (scope : Scope) (w : Width) : Statement (.stl a b scope w) := fun _ => rfl
theorem aadd (d a b : SReg) (scope : Scope) (w : Width) : Statement (.aadd d a b scope w) := fun _ => rfl
theorem aand (d a b : SReg) (scope : Scope) (w : Width) : Statement (.aand d a b scope w) := fun _ => rfl
theorem aor (d a b : SReg) (scope : Scope) (w : Width) : Statement (.aor d a b scope w) := fun _ => rfl
theorem axor (d a b : SReg) (scope : Scope) (w : Width) : Statement (.axor d a b scope w) := fun _ => rfl
theorem amin (d a b : SReg) (scope : Scope) (w : Width) : Statement (.amin d a b scope w) := fun _ => rfl
theorem amax (d a b : SReg) (scope : Scope) (w : Width) : Statement (.amax d a b scope w) := fun _ => rfl
theorem aminn (d a b : SReg) (scope : Scope) (w : Width) : Statement (.aminn d a b scope w) := fun _ => rfl
theorem amaxn (d a b : SReg) (scope : Scope) (w : Width) : Statement (.amaxn d a b scope w) := fun _ => rfl
theorem aswp (d a b : SReg) (scope : Scope) (w : Width) : Statement (.aswp d a b scope w) := fun _ => rfl
theorem acas (d a b : SReg) (scope : Scope) (w : Width) : Statement (.acas d a b scope w) := fun _ => rfl
theorem fence (scope : Scope) : Statement (.fence scope) := fun _ => rfl
theorem fenceAcq (scope : Scope) : Statement (.fenceAcq scope) := fun _ => rfl
theorem fenceRel (scope : Scope) : Statement (.fenceRel scope) := fun _ => rfl
theorem ldf (d a : SReg) (scope : Scope) (w : Width) : Statement (.ldf d a scope w) := fun _ => rfl
theorem pclr (a : SReg) : Statement (.pclr a) := fun _ => rfl
theorem probe (d a : SReg) : Statement (.probe d a) := fun _ => rfl
theorem scld (d a : SReg) (w : Width) : Statement (.scld d a w) := fun _ => rfl
theorem scst (a b : SReg) (w : Width) : Statement (.scst a b w) := fun _ => rfl
theorem pref (a : SReg) : Statement (.pref a) := fun _ => rfl
theorem cfg (a : SReg) : Statement (.cfg a) := fun _ => rfl
theorem run : Statement (.run) := fun _ => rfl
theorem swo (a : SReg) : Statement (.swo a) := fun _ => rfl
theorem injData (a b : SReg) (port : BitVec 4) : Statement (.injData a b port) := fun _ => rfl
theorem injDataP (a b : SReg) (port : BitVec 4) : Statement (.injDataP a b port) := fun _ => rfl
theorem injStop (a b : SReg) (port : BitVec 4) : Statement (.injStop a b port) := fun _ => rfl
theorem take (d : SReg) (port : BitVec 4) : Statement (.take d port) := fun _ => rfl
theorem wex (d : SReg) : Statement (.wex d) := fun _ => rfl
theorem halta (arc : BitVec 10) : Statement (.halta arc) := fun _ => rfl
theorem rela (arc : BitVec 10) : Statement (.rela arc) := fun _ => rfl
theorem icomma (a : SReg) : Statement (.icomma a) := fun _ => rfl
theorem imode (m : BitVec 8) : Statement (.imode m) := fun _ => rfl
theorem bar (scope : Scope) : Statement (.bar scope) := fun _ => rfl
theorem launch (d a b : SReg) : Statement (.launch d a b) := fun _ => rfl
theorem sema (n : BitVec 6) : Statement (.sema n) := fun _ => rfl
theorem semr (n : BitVec 6) : Statement (.semr n) := fun _ => rfl
theorem copy (d a : SReg) (e : BitVec 5) : Statement (.copy d a e) := fun _ => rfl
theorem conv (d a : SReg) (e : BitVec 5) : Statement (.conv d a e) := fun _ => rfl
theorem coll (d a : SReg) (e : BitVec 5) : Statement (.coll d a e) := fun _ => rfl
theorem ewait (a : SReg) : Statement (.ewait a) := fun _ => rfl
theorem csrr (d : SReg) (csr : BitVec 12) : Statement (.csrr d csr) := fun _ => rfl
theorem csrw (a : SReg) (csr : BitVec 12) : Statement (.csrw a csr) := fun _ => rfl
theorem csrx (d a : SReg) (csr : BitVec 12) : Statement (.csrx d a csr) := fun _ => rfl
theorem trap (code : BitVec 12) : Statement (.trap code) := fun _ => rfl
theorem rtt : Statement (.rtt) := fun _ => rfl
theorem wfe : Statement (.wfe) := fun _ => rfl
theorem halt : Statement (.halt) := fun _ => rfl
theorem evtPend (v : W64) : Statement (.evtPend v) := fun h => Bool.noConfusion h
theorem alertPend (v : W64) : Statement (.alertPend v) := fun h => Bool.noConfusion h
theorem mcAsinval (v : W64) : Statement (.mcAsinval v) := fun h => Bool.noConfusion h
theorem meterStep (v : W64) : Statement (.meterStep v) := fun h => Bool.noConfusion h
theorem member (v : W64) : Statement (.member v) := fun h => Bool.noConfusion h
theorem csrWrite (csr : BitVec 12) (v : W64) : Statement (.csrWrite csr v) := fun h => Bool.noConfusion h
theorem semAcq (port : PortId) : Statement (.semAcq port) := fun h => Bool.noConfusion h
theorem semRel (port : PortId) : Statement (.semRel port) := fun h => Bool.noConfusion h
theorem carReg (port : PortId) : Statement (.carReg port) := fun h => Bool.noConfusion h
theorem carUnreg (port : PortId) : Statement (.carUnreg port) := fun h => Bool.noConfusion h
theorem asSetSet (port : PortId) : Statement (.asSetSet port) := fun h => Bool.noConfusion h
theorem asSetRemove (port : PortId) : Statement (.asSetRemove port) := fun h => Bool.noConfusion h
theorem asSetInval (port : PortId) : Statement (.asSetInval port) := fun h => Bool.noConfusion h
theorem resSet (port : PortId) : Statement (.resSet port) := fun h => Bool.noConfusion h
theorem portReset (port : PortId) : Statement (.portReset port) := fun h => Bool.noConfusion h
theorem cellClr (port : PortId) : Statement (.cellClr port) := fun h => Bool.noConfusion h
theorem getCert (port : PortId) : Statement (.getCert port) := fun h => Bool.noConfusion h
theorem attest (port : PortId) : Statement (.attest port) := fun h => Bool.noConfusion h
theorem keyAgree (port : PortId) : Statement (.keyAgree port) := fun h => Bool.noConfusion h
theorem sessionOpen (port : PortId) : Statement (.sessionOpen port) := fun h => Bool.noConfusion h
theorem sessionClose (port : PortId) : Statement (.sessionClose port) := fun h => Bool.noConfusion h
theorem read (chain : ChainId) : Statement (.read chain) := fun h => Bool.noConfusion h
theorem powerOn : Statement (.powerOn) := fun h => Bool.noConfusion h
theorem linkTrain (lotar : Nat) (peer : LotarPeer) : Statement (.linkTrain lotar peer) := fun h => Bool.noConfusion h
theorem linkRekey (lotar : Nat) : Statement (.linkRekey lotar) := fun h => Bool.noConfusion h
theorem linkDown (port : PortId) : Statement (.linkDown port) := fun h => Bool.noConfusion h
theorem linkUp (port : PortId) : Statement (.linkUp port) := fun h => Bool.noConfusion h
theorem launchRecordRead (caravan : Nat) : Statement (.launchRecordRead caravan) := fun h => Bool.noConfusion h
theorem dependenceFill (caravan : Nat) : Statement (.dependenceFill caravan) := fun h => Bool.noConfusion h
theorem imageMeasure (caravan : Nat) : Statement (.imageMeasure caravan) := fun h => Bool.noConfusion h
theorem arbitrationRound : Statement (.arbitrationRound) := fun h => Bool.noConfusion h
theorem configLoad (region site : Nat) : Statement (.configLoad region site) := fun h => Bool.noConfusion h
theorem prefetchCheck (region : Nat) : Statement (.prefetchCheck region) := fun h => Bool.noConfusion h
theorem predictorFetch (region cfgid : Nat) : Statement (.predictorFetch region cfgid) := fun h => Bool.noConfusion h
theorem elementAdopt (region site : Nat) : Statement (.elementAdopt region site) := fun h => Bool.noConfusion h
theorem switchoverDiscard (region site port : Nat) : Statement (.switchoverDiscard region site port) := fun h => Bool.noConfusion h
theorem stopHandling (region site : Nat) : Statement (.stopHandling region site) := fun h => Bool.noConfusion h
theorem modeHandling (region site : Nat) : Statement (.modeHandling region site) := fun h => Bool.noConfusion h
theorem exitArrival (region : Nat) : Statement (.exitArrival region) := fun h => Bool.noConfusion h
theorem instanceRetire (region : Nat) : Statement (.instanceRetire region) := fun h => Bool.noConfusion h
theorem storeModeChange (region tile : Nat) : Statement (.storeModeChange region tile) := fun h => Bool.noConfusion h
theorem accessPerformed (k : Nat) : Statement (.accessPerformed k) := fun h => Bool.noConfusion h
theorem scAccessPerform : Statement (.scAccessPerform) := fun h => Bool.noConfusion h
theorem teCopy (e : Nat) : Statement (.teCopy e) := fun h => Bool.noConfusion h
theorem cvCast (e : Nat) : Statement (.cvCast e) := fun h => Bool.noConfusion h
theorem cvCsr (e : Nat) : Statement (.cvCsr e) := fun h => Bool.noConfusion h
theorem clAllreduce (e : Nat) (peers : PeerParts) : Statement (.clAllreduce e peers) := fun h => Bool.noConfusion h
theorem clRedscat (e : Nat) (peers : PeerParts) : Statement (.clRedscat e peers) := fun h => Bool.noConfusion h
theorem clAllgather (e : Nat) (peers : PeerParts) : Statement (.clAllgather e peers) := fun h => Bool.noConfusion h
theorem clBcast (e : Nat) (peers : PeerParts) : Statement (.clBcast e peers) := fun h => Bool.noConfusion h
theorem engineCommandEnd (e : Nat) : Statement (.engineCommandEnd e) := fun h => Bool.noConfusion h
theorem phaseMessage (member gtag : Nat) (phase : W64) : Statement (.phaseMessage member gtag phase) := fun h => Bool.noConfusion h
theorem pacingDescriptorValid (idx : Nat) : Statement (.pacingDescriptorValid idx) := fun h => Bool.noConfusion h
theorem parkComplete (agent : AgentId) : Statement (.parkComplete agent) := fun h => Bool.noConfusion h
theorem faultRecordWrite (asid : Nat) : Statement (.faultRecordWrite asid) := fun h => Bool.noConfusion h
theorem fqLinkRead (asid : Nat) : Statement (.fqLinkRead asid) := fun h => Bool.noConfusion h
theorem resume (asid : Nat) : Statement (.resume asid) := fun h => Bool.noConfusion h
theorem substitute (asid : Nat) : Statement (.substitute asid) := fun h => Bool.noConfusion h
theorem abort (asid : Nat) : Statement (.abort asid) := fun h => Bool.noConfusion h
theorem clusterAbort : Statement (.clusterAbort) := fun h => Bool.noConfusion h
theorem elementFreeze (region site : Nat) : Statement (.elementFreeze region site) := fun h => Bool.noConfusion h
theorem snapshotComplete (cluster : Nat) : Statement (.snapshotComplete cluster) := fun h => Bool.noConfusion h
theorem clusterComplete (cluster : Nat) : Statement (.clusterComplete cluster) := fun h => Bool.noConfusion h
theorem sensorSweep (raw : List Int) (pwr : Nat) : Statement (.sensorSweep raw pwr) := fun h => Bool.noConfusion h
theorem tickEnd (ticks : List RegionTick) : Statement (.tickEnd ticks) := fun h => Bool.noConfusion h
theorem droop (region quadrant : Nat) : Statement (.droop region quadrant) := fun h => Bool.noConfusion h
theorem emergencyExpire (region quadrant : Nat) : Statement (.emergencyExpire region quadrant) := fun h => Bool.noConfusion h
theorem learnedHoldExpire (region : Nat) : Statement (.learnedHoldExpire region) := fun h => Bool.noConfusion h
theorem give : Statement (.give) := fun h => Bool.noConfusion h
theorem giveReceive (member count : Nat) : Statement (.giveReceive member count) := fun h => Bool.noConfusion h
theorem giveAnswer (res : GiveAnswer) : Statement (.giveAnswer res) := fun h => Bool.noConfusion h
theorem veAdd (region site : Nat) : Statement (.veAdd region site) := fun h => Bool.noConfusion h
theorem veSub (region site : Nat) : Statement (.veSub region site) := fun h => Bool.noConfusion h
theorem veMul (region site : Nat) : Statement (.veMul region site) := fun h => Bool.noConfusion h
theorem veFma (region site : Nat) : Statement (.veFma region site) := fun h => Bool.noConfusion h
theorem veFms (region site : Nat) : Statement (.veFms region site) := fun h => Bool.noConfusion h
theorem veNeg (region site : Nat) : Statement (.veNeg region site) := fun h => Bool.noConfusion h
theorem veAbs (region site : Nat) : Statement (.veAbs region site) := fun h => Bool.noConfusion h
theorem veMin (region site : Nat) : Statement (.veMin region site) := fun h => Bool.noConfusion h
theorem veMax (region site : Nat) : Statement (.veMax region site) := fun h => Bool.noConfusion h
theorem veClamp (region site : Nat) : Statement (.veClamp region site) := fun h => Bool.noConfusion h
theorem veCmp (region site : Nat) : Statement (.veCmp region site) := fun h => Bool.noConfusion h
theorem veSelect (region site : Nat) : Statement (.veSelect region site) := fun h => Bool.noConfusion h
theorem veCvt (region site : Nat) : Statement (.veCvt region site) := fun h => Bool.noConfusion h
theorem veCvtEmit (region site : Nat) : Statement (.veCvtEmit region site) := fun h => Bool.noConfusion h
theorem veRint (region site : Nat) : Statement (.veRint region site) := fun h => Bool.noConfusion h
theorem veScale (region site : Nat) : Statement (.veScale region site) := fun h => Bool.noConfusion h
theorem veShl (region site : Nat) : Statement (.veShl region site) := fun h => Bool.noConfusion h
theorem veShr (region site : Nat) : Statement (.veShr region site) := fun h => Bool.noConfusion h
theorem veSar (region site : Nat) : Statement (.veSar region site) := fun h => Bool.noConfusion h
theorem veAnd (region site : Nat) : Statement (.veAnd region site) := fun h => Bool.noConfusion h
theorem veOr (region site : Nat) : Statement (.veOr region site) := fun h => Bool.noConfusion h
theorem veXor (region site : Nat) : Statement (.veXor region site) := fun h => Bool.noConfusion h
theorem veNot (region site : Nat) : Statement (.veNot region site) := fun h => Bool.noConfusion h
theorem veAndn (region site : Nat) : Statement (.veAndn region site) := fun h => Bool.noConfusion h
theorem veExp2 (region site : Nat) : Statement (.veExp2 region site) := fun h => Bool.noConfusion h
theorem veLog2 (region site : Nat) : Statement (.veLog2 region site) := fun h => Bool.noConfusion h
theorem veRcp (region site : Nat) : Statement (.veRcp region site) := fun h => Bool.noConfusion h
theorem veRsqrt (region site : Nat) : Statement (.veRsqrt region site) := fun h => Bool.noConfusion h
theorem veSqrt (region site : Nat) : Statement (.veSqrt region site) := fun h => Bool.noConfusion h
theorem veTanh (region site : Nat) : Statement (.veTanh region site) := fun h => Bool.noConfusion h
theorem veLogistic (region site : Nat) : Statement (.veLogistic region site) := fun h => Bool.noConfusion h
theorem veBcast (region site : Nat) : Statement (.veBcast region site) := fun h => Bool.noConfusion h
theorem vePerm (region site : Nat) : Statement (.vePerm region site) := fun h => Bool.noConfusion h
theorem veRot (region site : Nat) : Statement (.veRot region site) := fun h => Bool.noConfusion h
theorem veRsum (region site : Nat) : Statement (.veRsum region site) := fun h => Bool.noConfusion h
theorem vePsum (region site : Nat) : Statement (.vePsum region site) := fun h => Bool.noConfusion h
theorem veRmax (region site : Nat) : Statement (.veRmax region site) := fun h => Bool.noConfusion h
theorem veRmin (region site : Nat) : Statement (.veRmin region site) := fun h => Bool.noConfusion h
theorem veTacc (region site : Nat) : Statement (.veTacc region site) := fun h => Bool.noConfusion h
theorem veTaccClose (region site : Nat) : Statement (.veTaccClose region site) := fun h => Bool.noConfusion h
theorem veMxpack (region site : Nat) : Statement (.veMxpack region site) := fun h => Bool.noConfusion h
theorem veMxpackEmit (region site : Nat) : Statement (.veMxpackEmit region site) := fun h => Bool.noConfusion h
theorem veMxunpack (region site : Nat) : Statement (.veMxunpack region site) := fun h => Bool.noConfusion h
theorem veMxunpackEmit (region site : Nat) : Statement (.veMxunpackEmit region site) := fun h => Bool.noConfusion h
theorem veAmask (region site : Nat) : Statement (.veAmask region site) := fun h => Bool.noConfusion h
theorem veConst (region site : Nat) : Statement (.veConst region site) := fun h => Bool.noConfusion h
theorem veSteer (region site : Nat) : Statement (.veSteer region site) := fun h => Bool.noConfusion h
theorem veMerge (region site : Nat) : Statement (.veMerge region site) := fun h => Bool.noConfusion h
theorem veCarry (region site : Nat) : Statement (.veCarry region site) := fun h => Bool.noConfusion h
theorem veInv (region site : Nat) : Statement (.veInv region site) := fun h => Bool.noConfusion h
theorem veFork (region site : Nat) : Statement (.veFork region site) := fun h => Bool.noConfusion h
theorem veSink (region site : Nat) : Statement (.veSink region site) := fun h => Bool.noConfusion h
theorem sqLoopa (region site : Nat) : Statement (.sqLoopa region site) := fun h => Bool.noConfusion h
theorem sqLoopt (region site : Nat) : Statement (.sqLoopt region site) := fun h => Bool.noConfusion h
theorem sqMxcmd (region site : Nat) : Statement (.sqMxcmd region site) := fun h => Bool.noConfusion h
theorem sqSeq (region site : Nat) : Statement (.sqSeq region site) := fun h => Bool.noConfusion h
theorem sqPipe (region site : Nat) : Statement (.sqPipe region site) := fun h => Bool.noConfusion h
theorem sqStream (region site : Nat) : Statement (.sqStream region site) := fun h => Bool.noConfusion h
theorem sqPermit (region site : Nat) : Statement (.sqPermit region site) := fun h => Bool.noConfusion h
theorem sqDone (region site : Nat) : Statement (.sqDone region site) := fun h => Bool.noConfusion h
theorem sqCount (region site : Nat) : Statement (.sqCount region site) := fun h => Bool.noConfusion h
theorem sqExit (region site : Nat) : Statement (.sqExit region site) := fun h => Bool.noConfusion h
theorem mxMma (region site : Nat) : Statement (.mxMma region site) := fun h => Bool.noConfusion h
theorem mxMmt (region site : Nat) : Statement (.mxMmt region site) := fun h => Bool.noConfusion h
theorem mxMres (region site : Nat) : Statement (.mxMres region site) := fun h => Bool.noConfusion h
theorem mxTxch (region site : Nat) : Statement (.mxTxch region site) := fun h => Bool.noConfusion h
theorem mxDrain (region site : Nat) : Statement (.mxDrain region site) := fun h => Bool.noConfusion h
theorem mxLdacc (region site : Nat) : Statement (.mxLdacc region site) := fun h => Bool.noConfusion h
theorem mxZero (region site : Nat) : Statement (.mxZero region site) := fun h => Bool.noConfusion h
theorem mxErrorCommand (region site : Nat) : Statement (.mxErrorCommand region site) := fun h => Bool.noConfusion h
theorem mxStep (region site : Nat) : Statement (.mxStep region site) := fun h => Bool.noConfusion h
theorem mxLdaccBeat (region site : Nat) : Statement (.mxLdaccBeat region site) := fun h => Bool.noConfusion h
theorem mxDrainBeat (region site : Nat) : Statement (.mxDrainBeat region site) := fun h => Bool.noConfusion h
theorem mxStopBoundary (region site : Nat) : Statement (.mxStopBoundary region site) := fun h => Bool.noConfusion h
theorem agAload (region site : Nat) : Statement (.agAload region site) := fun h => Bool.noConfusion h
theorem agAstore (region site : Nat) : Statement (.agAstore region site) := fun h => Bool.noConfusion h
theorem agGather (region site : Nat) : Statement (.agGather region site) := fun h => Bool.noConfusion h
theorem agScatter (region site : Nat) : Statement (.agScatter region site) := fun h => Bool.noConfusion h
theorem agDload (region site : Nat) : Statement (.agDload region site) := fun h => Bool.noConfusion h
theorem agDloadEmit (region site : Nat) : Statement (.agDloadEmit region site) := fun h => Bool.noConfusion h
theorem agPclear (region site : Nat) : Statement (.agPclear region site) := fun h => Bool.noConfusion h
theorem agFill (region site : Nat) : Statement (.agFill region site) := fun h => Bool.noConfusion h
theorem agResponseEmit (region site : Nat) : Statement (.agResponseEmit region site) := fun h => Bool.noConfusion h
theorem agCompletion (region site : Nat) : Statement (.agCompletion region site) := fun h => Bool.noConfusion h
theorem hdBvscan (region site : Nat) : Statement (.hdBvscan region site) := fun h => Bool.noConfusion h
theorem hdBtscan (region site : Nat) : Statement (.hdBtscan region site) := fun h => Bool.noConfusion h
theorem hdScanEmit (region site : Nat) : Statement (.hdScanEmit region site) := fun h => Bool.noConfusion h
theorem hdMclass (region site : Nat) : Statement (.hdMclass region site) := fun h => Bool.noConfusion h
theorem hdPmask (region site : Nat) : Statement (.hdPmask region site) := fun h => Bool.noConfusion h
theorem hdPmaskRow (region site : Nat) : Statement (.hdPmaskRow region site) := fun h => Bool.noConfusion h
theorem owOadd (region site : Nat) : Statement (.owOadd region site) := fun h => Bool.noConfusion h
theorem owOmin (region site : Nat) : Statement (.owOmin region site) := fun h => Bool.noConfusion h
theorem owOmax (region site : Nat) : Statement (.owOmax region site) := fun h => Bool.noConfusion h
theorem owOand (region site : Nat) : Statement (.owOand region site) := fun h => Bool.noConfusion h
theorem owOor (region site : Nat) : Statement (.owOor region site) := fun h => Bool.noConfusion h
theorem owOxor (region site : Nat) : Statement (.owOxor region site) := fun h => Bool.noConfusion h
theorem owOswp (region site : Nat) : Statement (.owOswp region site) := fun h => Bool.noConfusion h
theorem owOcas (region site : Nat) : Statement (.owOcas region site) := fun h => Bool.noConfusion h
theorem owOinc (region site : Nat) : Statement (.owOinc region site) := fun h => Bool.noConfusion h
theorem owOmxacc (region site : Nat) : Statement (.owOmxacc region site) := fun h => Bool.noConfusion h
theorem owOread (region site : Nat) : Statement (.owOread region site) := fun h => Bool.noConfusion h
theorem owCompletion (region site : Nat) : Statement (.owCompletion region site) := fun h => Bool.noConfusion h
theorem brEreq (region site : Nat) : Statement (.brEreq region site) := fun h => Bool.noConfusion h
theorem brEresp (region site : Nat) : Statement (.brEresp region site) := fun h => Bool.noConfusion h
theorem brRload (region site : Nat) : Statement (.brRload region site) := fun h => Bool.noConfusion h
theorem brRstore (region site : Nat) : Statement (.brRstore region site) := fun h => Bool.noConfusion h
theorem brRatom (region site : Nat) : Statement (.brRatom region site) := fun h => Bool.noConfusion h
theorem illegalInstruction (w : W32) : Statement (.illegalInstruction w) := fun h => Bool.noConfusion h
theorem fetch : Statement (.fetch) := fun h => Bool.noConfusion h
theorem powerRemoval : Statement (.powerRemoval) := fun h => Bool.noConfusion h
theorem lotarLinkDown (lotar : Nat) : Statement (.lotarLinkDown lotar) := fun h => Bool.noConfusion h
theorem groupSetWrite (bits : BitVec 576) : Statement (.groupSetWrite bits) := fun h => Bool.noConfusion h

end Sys2Proof.Laws.F
end

