-- ==== Sys2Proof/Tests/Slice0.lean ====
section
/-! SUPPORT. Tests of the model on small cases, and, for each statement with hypotheses, a state and operands that meet
them. -/

namespace Sys2Proof.Tests

set_option Elab.async false

open Sys2Proof Sys2Proof.Machine Sys2Proof.Claims

/-! ## Decoding: each word is written out from the encoding tables R60 to R67 (the row's fixed bits and its fields) -/

/-- Each word decodes to the instruction beside it, and is that instruction's word. -/
def readsAll (l : List (W32 × Instr)) : Bool :=
  l.all (fun p => match decode p.1 with
    | .ok i => decide (i = p.2) && decide (encode p.2 = some p.1)
    | .error _ => false)

def words_alu : List (W32 × Instr) := [
  (0x0689C000#32, .add 20 9 24), (0x059AB801#32, .sub 12 26 23), (0x07FBC002#32, .mul 31 27 24),
    (0x06BE8803#32, .mulh 21 30 17), (0x043B7804#32, .mulhn 1 27 15), (0x073F4005#32, .div 25 31 8),
    (0x06A2E806#32, .divn 21 2 29), (0x04C46007#32, .rem 6 4 12), (0x061C4008#32, .remn 16 28 8),
    (0x05B22009#32, .and 13 18 4), (0x0668080A#32, .or 19 8 1), (0x0707700B#32, .xor 24 7 14),
    (0x0526F00C#32, .andn 9 6 30), (0x0799680D#32, .sll 28 25 13), (0x04D9D00E#32, .srl 6 25 26),
    (0x0465A00F#32, .sra 3 5 20), (0x068F2810#32, .min 20 15 5), (0x04A1E011#32, .max 5 1 28),
    (0x0427C812#32, .minn 1 7 25), (0x04FF3013#32, .maxn 7 31 6), (0x07860014#32, .popc 28 6),
    (0x054B0015#32, .clz 10 11), (0x07E79016#32, .sh1add 31 7 18), (0x07B6A817#32, .sh2add 29 22 21),
    (0x04E6F818#32, .sh3add 7 6 31)]

theorem test_words_alu : readsAll words_alu = true := by decide +kernel

def words_immediates : List (W32 × Instr) := [
  (0x0BF73267#32, .addi 31 23 0x3267), (0x0FFD621B#32, .andi 31 29 0x621b), (0x11415C77#32, .ori 10 1 0x5c77),
    (0x15C6EF91#32, .xori 14 6 0xef91), (0x18A90016#32, .slli 5 9 22), (0x1D5B0027#32, .srli 10 27 39),
    (0x22610027#32, .srai 19 1 39), (0x26D85681#32, .liz 22 3 0x5681), (0x24725AF9#32, .lin 3 2 0x5af9),
    (0x27747B13#32, .lik 27 2 0x7b13)]

theorem test_words_immediates : readsAll words_immediates = true := by decide +kernel

def words_fields_predicates : List (W32 × Instr) := [
  (0x2AEB19E0#32, .ext 23 11 6 30), (0x2A171831#32, .exts 16 23 6 3), (0x293F0562#32, .ins 9 31 1 22),
    (0x2FB06400#32, .cmp 7 .le 1 18), (0x33B31817#32, .cmpi 7 .le 12 0x1817), (0x36F30000#32, .plog 5 7 1 8),
    (0x38573500#32, .sel 2 23 6 5)]

theorem test_words_fields_predicates : readsAll words_fields_predicates = true := by decide +kernel

def words_branches : List (W32 × Instr) := [
  (0x41079E09#32, .brc 2 0x79e09), (0x43CFBFE3#32, .brcNot 7 0xfbfe3), (0x47DA394A#32, .jal 30 0x1a394a),
    (0x4BEF582A#32, .jalr 31 15 0x582a)]

theorem test_words_branches : readsAll words_branches = true := by decide +kernel

def words_loads_stores : List (W32 × Instr) := [
  (0x522C0E49#32, .ldI8 17 12 0xe49), (0x52291C69#32, .ldI16 17 9 0xc69), (0x51E42970#32, .ldI32 15 4 0x970),
    (0x53193CC2#32, .ld64 24 25 0xcc2), (0x519C44BC#32, .ldN8 12 28 0x4bc), (0x504E5F22#32, .ldN16 2 14 0xf22),
    (0x50676574#32, .ldN32 3 7 0x574), (0x563405CE#32, .st8 17 20 0x5ce), (0x57C51571#32, .st16 30 5 0x571),
    (0x553E2B3E#32, .st32 9 30 0xb3e), (0x56433500#32, .st64 18 3 0x500)]

theorem test_words_loads_stores : readsAll words_loads_stores = true := by decide +kernel

def words_ordered_atomics : List (W32 × Instr) := [
  (0x5ACB0200#32, .lda 22 11 .package .w32), (0x5C1A1940#32, .stl 26 3 .cluster .w64),
    (0x6206C000#32, .aadd 16 6 24 .tile .w32), (0x6292F301#32, .aand 20 18 30 .domain .w32),
    (0x6118A2C2#32, .aor 8 24 20 .group .w64), (0x61F57103#32, .axor 15 21 14 .cluster .w32),
    (0x63D513C4#32, .amin 30 21 2 .network .w64), (0x63672945#32, .amax 27 7 5 .cluster .w64),
    (0x60867286#32, .aminn 4 6 14 .group .w32), (0x605C7207#32, .amaxn 2 28 14 .package .w32),
    (0x61FEA148#32, .aswp 15 30 20 .cluster .w64), (0x63F0BAC9#32, .acas 31 16 23 .group .w64),
    (0x64000200#32, .fence .package), (0x64000201#32, .fenceAcq .package), (0x64000382#32, .fenceRel .network)]

theorem test_words_ordered_atomics : readsAll words_ordered_atomics = true := by decide +kernel

def words_presence_sc : List (W32 × Instr) := [
  (0x69BD0100#32, .ldf 13 29 .cluster .w32), (0x680D0001#32, .pclr 13), (0x6B720002#32, .probe 27 18),
    (0x6FE60240#32, .scld 31 6 .w64), (0x6C1C5A01#32, .scst 28 11 .w32)]

theorem test_words_presence_sc : readsAll words_presence_sc = true := by decide +kernel

def words_staging : List (W32 × Instr) := [
  (0x80030000#32, .pref 3), (0x80100100#32, .cfg 16), (0x84000000#32, .run), (0x84090100#32, .swo 9)]

theorem test_words_staging : readsAll words_staging = true := by decide +kernel

def words_ports : List (W32 × Instr) := [
  (0x8811D1C0#32, .injData 17 26 14), (0x881C88A2#32, .injDataP 28 17 5), (0x8803D0A4#32, .injStop 3 26 5),
    (0x8AE003C0#32, .take 23 14)]

theorem test_words_ports : readsAll words_ports = true := by decide +kernel

def words_fabric_control : List (W32 × Instr) := [
  (0x8EC00000#32, .wex 22), (0x90000024#32, .halta 0x24), (0x9000070A#32, .rela 0x30a), (0x940A0000#32, .icomma 10),
    (0x9400023A#32, .imode 0x3a)]

theorem test_words_fabric_control : readsAll words_fabric_control = true := by decide +kernel

def words_cluster : List (W32 × Instr) := [
  (0xA0000400#32, .bar .system), (0xA6F64800#32, .launch 23 22 9), (0xA8000036#32, .sema 54),
    (0xA8000420#32, .semr 32)]

theorem test_words_cluster : readsAll words_cluster = true := by decide +kernel

def words_engines : List (W32 × Instr) := [
  (0xB13900B8#32, .copy 9 25 23), (0xB2EA0148#32, .conv 23 10 9), (0xB2A602B8#32, .coll 21 6 23),
    (0xB01C0300#32, .ewait 28)]

theorem test_words_engines : readsAll words_engines = true := by decide +kernel

def words_csrs : List (W32 × Instr) := [
  (0xC0200011#32, .csrr 1 0x11), (0xC0121008#32, .csrw 18 0x8), (0xC1762008#32, .csrx 11 22 0x8)]

theorem test_words_csrs : readsAll words_csrs = true := by decide +kernel

def words_system : List (W32 × Instr) := [
  (0xC4000769#32, .trap 0x769), (0xC4001000#32, .rtt), (0xC4002000#32, .wfe), (0xC4003000#32, .halt)]

theorem test_words_system : readsAll words_system = true := by decide +kernel

/-! ## Well-formedness: a term that each check refuses, beside the last one it admits (R64 to R67) -/

theorem test_wf_ext : Instr.wf (.ext 1 2 60 3) = true ∧ Instr.wf (.ext 1 2 61 3) = false := by decide
theorem test_wf_exts : Instr.wf (.exts 1 2 0 63) = true ∧ Instr.wf (.exts 1 2 1 63) = false := by decide
theorem test_wf_ins : Instr.wf (.ins 1 2 63 0) = true ∧ Instr.wf (.ins 1 2 63 1) = false := by decide
theorem test_wf_inj_data : Instr.wf (.injData 1 2 14) = true ∧ Instr.wf (.injData 1 2 15) = false := by decide
theorem test_wf_inj_data_p : Instr.wf (.injDataP 1 2 14) = true ∧ Instr.wf (.injDataP 1 2 15) = false := by decide
theorem test_wf_inj_stop : Instr.wf (.injStop 1 2 14) = true ∧ Instr.wf (.injStop 1 2 15) = false := by decide
theorem test_wf_take : Instr.wf (.take 1 14) = true ∧ Instr.wf (.take 1 15) = false := by decide
theorem test_wf_imode : Instr.wf (.imode 0x3C) = true ∧ Instr.wf (.imode 0x05) = false ∧ Instr.wf (.imode 0x40) = false := by
  decide
theorem test_wf_copy : Instr.wf (.copy 1 2 23) = true ∧ Instr.wf (.copy 1 2 24) = false := by decide
theorem test_wf_conv : Instr.wf (.conv 1 2 23) = true ∧ Instr.wf (.conv 1 2 24) = false := by decide
theorem test_wf_coll : Instr.wf (.coll 1 2 23) = true ∧ Instr.wf (.coll 1 2 24) = false := by decide
theorem test_wf_csrr : Instr.wf (.csrr 1 0x809) = true ∧ Instr.wf (.csrr 1 0x80A) = false := by decide
theorem test_wf_csrw : Instr.wf (.csrw 1 0x012) = true ∧ Instr.wf (.csrw 1 0x013) = false := by decide
theorem test_wf_csrx : Instr.wf (.csrx 1 2 0x400) = true ∧ Instr.wf (.csrx 1 2 0x3FF) = false := by decide
theorem test_wf_event : Instr.wf .powerOn = false ∧ encode .powerOn = none := by decide

/-! ## Words that are none (R62, R63, R65, R67, R68) -/

theorem test_reserved_opcode : (decode 0x3C000000#32).toOption = none := by decide
theorem test_reserved_function : (decode 0x04000019#32).toOption = none := by decide
theorem test_nonzero_field : (decode 0x04000040#32).toOption = none := by decide
theorem test_field_past_bit_63 : (decode 0x2800FC10#32).toOption = none := by decide
theorem test_unnamed_csr : (decode 0xC000000D#32).toOption = none := by decide
theorem test_reserved_scope : (decode 0x64000480#32).toOption = none := by decide



/-! ## Small states -/

/-- A launch record of address space 5 whose partition has PSA as given. -/
def aRec (psa : Bool) : LaunchRec :=
  { image := 0x10000#64, next := 0#64, compl := 0#64, asidField := 5#16, prio := 0#8, shape := 0#8, csize := 0#8, rect := 0#8,
    part := if psa then 0x8004#16 else 0x0004#16, ndep := 0#8, deps := [], args := [], clean := true }

def aHeader : Header :=
  { ncfg := 1, progOff := 0x100#64, progLen := 0x1000#64, cdirOff := 0x40#64, imageLen := 0x2000#64, digest := 0#384 }

/-- A cluster of region 0 with a partition of four banks. -/
def aCluster (psa : Bool) : Cluster :=
  { caravan := 3, asid := 5, recd := aRec psa, header := aHeader, regions := [0], banks := [8, 9, 10, 11], dx := 0, dy := 0,
    barArrived := 0#128, barGen := 0#32, snapCount := 0#32, energy := 0#64, placedTick := 0, order := 1, abort := none,
    snap := none, checkpoint := none }

/-- A running core at a level. -/
def aCore (p : Priv) : Core := { Core.init with priv := p, run := .running, pc := 0x40#64 }

/-- An address space. -/
def aSpace : Aspace :=
  { root := 0x1000, winPort := .a, logh := 0#384, logn := 0#32, logged := [], kbind := 0#384, kx := 0#512, kp := 0#256,
    ks := 0#384, session := none, counter := none, rbctr := 0#64, fqseq := 0#64, fqNext := 0x20000, fqStuck := false,
    waiting := [], cells := [] }

/-- Region 0 with a core, in cluster 1. -/
def aRegion (c : Core) : Region := { Region.init with core := c, cluster := some 1 }

/-- A powered device with a region, its cluster and address space 5; the region's sequencer is the current core. -/
def dev (x : Region) (k : Cluster) : State :=
  { State.reset with
    power := .on, cur := .seq 0, regions := [(0, x)]
    disp := { State.reset.disp with clusters := [(1, k)], nextCluster := 2, aspaces := [(5, aSpace)] } }

/-- A sequencer at a level, with s1 as given. -/
def seqAt (p : Priv) (psa : Bool) (v : W64) : State := dev (aRegion ((aCore p).setReg 1 v)) (aCluster psa)

/-- The management core running, with s1 as given. -/
def mcAt (v : W64) : State :=
  { State.reset with power := .on, mc := { State.reset.mc with run := .running, regs := (State.reset.mc.setReg 1 v).regs } }

/-- The state with the presence of bank granules. -/
def withGst (s : State) (t : Table Gst) : State := { s with mem := { s.mem with gstBank := t } }

/-- The state with HBM bytes. -/
def withHbm (s : State) (l : List Host.Cell) : State := { s with mem := { s.mem with hbm := l } }

/-- The state with reads at the memory ports. -/
def withReads (s : State) (l : List Read) : State := { s with ports := { s.ports with reads := l } }

/-- The state with SC accesses on the ring. -/
def withSc (s : State) (l : List ScAccess) : State := { s with ports := { s.ports with sc := l } }

/-- The first byte of the partition, as an address. -/
def part0 : W64 := 0xFFFF000000000000#64

/-! ## Witnesses: cores -/

theorem witness_FieldsAndPredicates : (63#6).toNat + (0#6).toNat + 1 ≤ 64 ∧ (0#6).toNat + (63#6).toNat + 1 ≤ 64 := by decide

theorem witness_BranchesAndJumps : (((mcAt 0x104#64).me.reg 1#5) + BitVec.ofInt 64 (0xFFFC#16).toInt).toNat % 4 = 0 := by
  decide +kernel

theorem witness_AddressesDirected_seq :
    let s := seqAt .graph true 0#64
    s.cur = .seq 0 ∧ s.clusterOf 0 = some 1 ∧ s.cluster? 1 = some (aCluster true) ∧ 0xFFFFF < 2 ^ 48 ∧ 0x100000 < 2 ^ 48 ∧
      0xFFFFF < (aCluster true).banks.length * 262144 ∧ (aCluster true).banks.length * 262144 ≤ 0x100000 := by
  decide +kernel

theorem witness_AddressesDirected_mc : (mcAt 0#64).cur = .mc ∧ 0x1FFFFF < 2 ^ 48 ∧ 0x200000 < 2 ^ 48 := by decide +kernel

/-- Tables whose first entry is invalid. -/
theorem witness_WalkFollowsTables_invalid :
    let s := seqAt .graph true 0#64
    s.aspace? 5 = some aSpace ∧ leNat (s.mem.bytes (.hbm (0x1000 % 2 ^ 47 + 8 * bits 0 51 43)) 8) = 0 := by
  decide +kernel

/-- The entries of a walk to a 64 KiB page. -/
def walkEntries (l : Nat) : Nat := [0x2001, 0x3001, 0x4001, 0x7000F].getD l 0

/-- Memory that holds them. -/
def walkState : State := withHbm (seqAt .graph true 0#64)
  [(0x1000, 0x01#8), (0x1001, 0x20#8), (0x2000, 0x01#8), (0x2001, 0x30#8), (0x3000, 0x01#8), (0x3001, 0x40#8),
   (0x4000, 0x0F#8), (0x4002, 0x07#8)]

theorem witness_WalkFollowsTables_page :
    walkState.aspace? 5 = some aSpace ∧
    (∀ l, l ≤ 3 → leNat (walkState.mem.bytes (.hbm ((if l = 0 then 0x1000 % 2 ^ 47 else bits (walkEntries (l - 1)) 46 12 * 4096) +
      8 * bits 0xFFFF (51 - 9 * l) (43 - 9 * l))) 8) = walkEntries l) ∧
    (∀ l, l < 3 → bits (walkEntries l) 5 0 = 1 ∧ bits (walkEntries l) 63 57 = 0 ∧ bits (walkEntries l) 11 6 = 0 ∧
      bits (walkEntries l) 56 47 = walkState.member) ∧
    walkEntries 3 % 4 = 3 ∧ bits (walkEntries 3) 63 57 = 0 ∧ bits (walkEntries 3) 11 6 = 0 ∧ bits (walkEntries 3) 5 4 ≤ 1 ∧
      bits (walkEntries 3) (42 - 9 * 3) 12 = 0 ∧ bits (walkEntries 3) 56 47 ≤ 575 := by
  decide +kernel

/-- A load from ordinary memory: the last eight bytes of the SRAM. -/
theorem witness_LoadsComplete_ordinary : (0x1FFFF8#64).toNat % 8 = 0 ∧
    Reaches (mcAt 0x1FFFF8#64) (0xFFFF0000001FFFF8#64) .read (mcAt 0x1FFFF8#64) (.sram 0x1FFFF8) false :=
  ⟨by decide, by constructor <;> decide +kernel⟩

/-- A FULL granule: the last word of the partition's first granule. -/
def fullState : State := withGst (seqAt .graph true 0#64) [(8 * 4096, .full)]

theorem witness_LoadsComplete_full : Reaches fullState (part0 + 0x38#64) .presence fullState (.bank 8 0x38) true ∧
    fullState.answerAt (.core fullState.cur) (.bank 8 0x38) = none ∧ fullState.mem.gst (.bank 8 0x38) = .full :=
  ⟨by constructor <;> decide +kernel, by decide +kernel⟩

/-- A granule whose fill has served the core's read. -/
def filledState : State := withReads (seqAt .graph true 0#64)
  [{ reader := .core (.seq 0), place := .bank 8 0, virt := none, asid := 5, answer := some (.filled 7#512 false) }]

theorem witness_LoadsComplete_filled : Reaches filledState part0 .presence filledState (.bank 8 0) true ∧
    filledState.answerAt (.core filledState.cur) (.bank 8 0) = some (.filled 7#512 false) :=
  ⟨by constructor <;> decide +kernel, by decide +kernel⟩

theorem witness_LoadsComplete_empty :
    let s := seqAt .graph true 0#64
    Reaches s part0 .read s (.bank 8 0) true ∧ s.answerAt (.core s.cur) (.bank 8 0) = none ∧ s.mem.gst (.bank 8 0) = .empty :=
  ⟨by constructor <;> decide +kernel, by decide +kernel⟩

theorem witness_StoresComplete_ordinary :
    let s := mcAt 0#64
    Reaches s (0xFFFF0000001FEFF8#64) .write s (.sram 0x1FEFF8) false ∧ s.mem.wf = true ∧ NotPacing (.sram 0x1FEFF8) :=
  ⟨by constructor <;> decide +kernel, by decide +kernel, by simp [NotPacing]⟩

theorem witness_StoresComplete_empty :
    let s := seqAt .graph true 0#64
    Reaches s part0 .write s (.bank 8 0) true ∧ s.mem.wf = true ∧ NotPacing (.bank 8 0) ∧ s.mem.gst (.bank 8 0) = .empty :=
  ⟨by constructor <;> decide +kernel, by decide +kernel, trivial, by decide +kernel⟩

theorem witness_AtomicsComplete :
    let s := mcAt 0xFFFF0000001FFFF8#64
    (s.me.reg 1#5).toNat % 8 = 0 ∧ Reaches s (s.me.reg 1#5) .write s (.sram 0x1FFFF8) false ∧
      (Place.sram 0x1FFFF8).isHost = false ∧ s.mem.wf = true ∧ NotPacing (.sram 0x1FFFF8) :=
  ⟨by decide +kernel, by constructor <;> decide +kernel, by decide +kernel, by decide +kernel, by simp [NotPacing]⟩

theorem witness_PresenceInstructions :
    let s := seqAt .graph true 0xFFFF0000000FFFC0#64
    (s.me.reg 1#5).toNat % 64 = 0 ∧ s.coreResolve (s.me.reg 1#5) .presence = (s, .ok (.bank 11 0x3FFC0) true) ∧
      HasPresence (.bank 11 0x3FFC0) := by
  refine ⟨by decide +kernel, by decide +kernel, trivial⟩

theorem witness_ScAccesses_posted :
    let s := seqAt .graph false part0
    s.me.wait = .none ∧ (s.me.reg 1#5).toNat % wBytes .w64 = 0 ∧ (Place.bank 8 0).isLocal = true ∧
      s.coreResolve (s.me.reg 1#5) .read = (s, .ok (.bank 8 0) false) ∧
      s.coreResolve (s.me.reg 1#5) .write = (s, .ok (.bank 8 0) false) := by
  decide +kernel

/-- An SC store on the ring. -/
def aSc : ScAccess :=
  { core := .seq 0, place := .bank 8 0, asid := 5, page := none, width := 4, store := some 1#64 }

theorem witness_ScAccesses_performed :
    let s := withSc (seqAt .graph false part0) [aSc]
    s.ports.sc = aSc :: [] ∧ s.eccAt aSc.place = false ∧ s.mem.wf = true ∧ NotPacing aSc.place ∧
      (aSc.width = 4 ∨ aSc.width = 8) ∧ aSc.place.key % aSc.width = 0 :=
  ⟨by decide +kernel, by decide +kernel, by decide +kernel, trivial, .inl rfl, by decide +kernel⟩

/-- A load of eight bytes on the ring. -/
theorem witness_ScAccesses_performed_load :
    let x : ScAccess := { aSc with width := 8, store := none, place := .bank 8 0x38 }
    let s := withSc (seqAt .graph false part0) [x]
    s.ports.sc = x :: [] ∧ s.eccAt x.place = false ∧ s.mem.wf = true ∧ (x.width = 4 ∨ x.width = 8) ∧ x.place.key % x.width = 0 := by
  decide +kernel

/-- A core with an SC access performed. -/
def scDoneState : State := dev (aRegion { aCore .graph with wait := .scDone true 9#64 }) (aCluster false)

theorem witness_ScAccesses_done : scDoneState.me.wait = .scDone true 9#64 := by decide +kernel

/-- A sequencer with events pending and selected. -/
def evtState (pend mask : BitVec 5) : State := dev (aRegion { aCore .graph with evtPend := pend, evtMask := mask }) (aCluster true)

theorem witness_WaitingAndReturning_wfe :
    (evtState 0x10#5 0x10#5).me.evtPend &&& (evtState 0x10#5 0x10#5).me.evtMask ≠ 0#5 ∧
    (evtState 0x10#5 0#5).me.evtMask = 0#5 ∧
    (evtState 0x10#5 0x0F#5).me.evtMask ≠ 0#5 ∧ (evtState 0x10#5 0x0F#5).me.evtPend &&& (evtState 0x10#5 0x0F#5).me.evtMask = 0#5 := by
  decide +kernel

/-! ## Witnesses: traps, returns, control registers -/

/-- A management core with its PC and TSTATUS given. -/
def mcTrap (pc status : W64) : State :=
  let s := mcAt 0#64
  { s with mc := { s.mc with pc := pc, trap := { s.mc.trap with status := status } } }

theorem witness_TrapEntry_code : (seqAt .graph true 0#64).cur = .seq 0 ∧ (0xFFE#12) ≠ 0xFFF#12 ∧ (mcAt 0#64).cur = .mc := by
  decide +kernel

theorem witness_TrapEntry_word : decode 0#32 = .error .reservedOpcode := rfl

theorem witness_TrapEntry_fetch_mc : let s := mcTrap 0x200000#64 0#64
    (s.cur = .mc → 0x200000 ≤ s.me.pc.toNat) ∧ ∀ r, s.cur = .seq r →
      if s.me.priv = .graph then (s.program s.cur).2.toNat ≤ s.me.pc.toNat else 0x10000 ≤ s.me.pc.toNat :=
  ⟨by decide +kernel, fun _ h => nomatch h⟩

/-- A sequencer with its PC given. -/
def seqPc (p : Priv) (pc : W64) : State := dev (aRegion { aCore p with pc := pc }) (aCluster true)

theorem witness_TrapEntry_fetch_graph : let s := seqPc .graph 0x1000#64
    (s.cur = .mc → 0x200000 ≤ s.me.pc.toNat) ∧ ∀ r, s.cur = .seq r →
      if s.me.priv = .graph then (s.program s.cur).2.toNat ≤ s.me.pc.toNat else 0x10000 ≤ s.me.pc.toNat :=
  ⟨(fun h => nomatch h), (fun _ _ => by decide +kernel)⟩

theorem witness_TrapEntry_fetch_supervisor : let s := seqPc .supervisor 0x10000#64
    (s.cur = .mc → 0x200000 ≤ s.me.pc.toNat) ∧ ∀ r, s.cur = .seq r →
      if s.me.priv = .graph then (s.program s.cur).2.toNat ≤ s.me.pc.toNat else 0x10000 ≤ s.me.pc.toNat :=
  ⟨(fun h => nomatch h), (fun _ _ => by decide +kernel)⟩

theorem witness_WaitingAndReturning_rtt : (seqAt .supervisor true 0#64).me.priv ≠ .graph ∧
    (seqAt .graph true 0#64).me.priv = .graph ∧ (mcTrap 0#64 6#64).me.trap.status.getLsbD 2 = true ∧
    (mcTrap 0#64 0#64).me.trap.status.getLsbD 2 = false := by decide +kernel

theorem witness_WaitingAndReturning_halt : let s := seqAt .graph true 0#64
    (∀ k c, s.clusterOf 0 = some k → s.cluster? k = some c → ∀ q ∈ c.regions, ∀ w, (s.core (.seq q)).wait ≠ .bar w) ∧
    s.me.atBarrier = false := by
  refine ⟨fun k c hk hc q hq w => ?_, by decide +kernel⟩
  obtain rfl : 1 = k := by simpa using Option.some.inj hk
  obtain rfl : aCluster true = c := by simpa using Option.some.inj hc
  obtain rfl : q = 0 := by simpa [aCluster] using hq
  exact fun h => nomatch h

theorem witness_AccessTraps_misaligned : ((0x1002#64).toNat % 4 ≠ 0) ∧ (0x1001#64).toNat % 2 ≠ 0 ∧ (0x1004#64).toNat % 8 ≠ 0 ∧
    (0x1002#64).toNat % wBytes .w32 ≠ 0 ∧ (0x1004#64).toNat % wBytes .w64 ≠ 0 ∧ (0x1020#64).toNat % 64 ≠ 0 := by decide

/-- A VOID granule in the partition. -/
def voidState : State := withGst (seqAt .graph true part0) [(8 * 4096, .void)]

theorem witness_AccessTraps_presence_load : Reaches voidState (voidState.me.reg 1#5 + BitVec.ofInt 64 (0#12).toInt) .read voidState (.bank 8 0) true ∧
    voidState.answerAt (.core voidState.cur) (.bank 8 0) = none ∧ voidState.mem.gst (.bank 8 0) = .void :=
  ⟨by constructor <;> decide +kernel, by decide +kernel⟩

theorem witness_AccessTraps_presence_store : let s := withGst (seqAt .graph true part0) [(8 * 4096, .full)]
    Reaches s (s.me.reg 1#5 + BitVec.ofInt 64 (0#12).toInt) .write s (.bank 8 0) true ∧ s.mem.gst (.bank 8 0) = .full :=
  ⟨by constructor <;> decide +kernel, by decide +kernel⟩

theorem witness_AccessTraps_presence_atomic : let s := seqAt .graph true part0
    Reaches s (s.me.reg 1#5) .write s (.bank 8 0) true ∧ (Place.bank 8 0).isHost = false ∧ s.mem.gst (.bank 8 0) = .empty :=
  ⟨by constructor <;> decide +kernel, by decide +kernel⟩

theorem witness_ControlRegisters_reads : let s := seqAt .graph true 0#64
    s.cur = .seq 0 ∧ s.clusterOf 0 = some 1 ∧ s.cluster? 1 = some (aCluster true) ∧
    indexOf? (aCluster true).regions 0 = some 0 ∧ s.me.priv = .graph ∧ (seqAt .supervisor true 0#64).me.priv ≠ .graph ∧
    (mcAt 0#64).cur = .mc ∧ (mcAt 0#64).me.priv = .management := by decide +kernel

theorem witness_ControlRegisters_writes : ((seqAt .graph true 31#64).me.reg 1#5).toNat < 32 ∧
    32 ≤ ((seqAt .graph true 32#64).me.reg 1#5).toNat ∧ ((seqAt .graph true 255#64).me.reg 1#5).toNat < 256 ∧
    ((seqAt .supervisor true 8#64).me.reg 1#5).toNat % 4 = 0 ∧ ((seqAt .supervisor true 9#64).me.reg 1#5).toNat % 4 ≠ 0 ∧
    ((mcAt 0x1FFFFC#64).me.reg 1#5).toNat < 0x200000 ∧ ((mcAt 575#64).me.reg 1#5).toNat < 576 ∧
    576 ≤ ((mcAt 576#64).me.reg 1#5).toNat ∧ ((mcAt 663#64).me.reg 1#5).toNat < 664 ∧ ((mcAt 15#64).me.reg 1#5).toNat < 16 := by
  decide +kernel

theorem witness_ControlRegisters_events : (15#64).toNat < 16 ∧ (mcAt 0#64).mcr.meterSel.toNat = 0 ∧ (575#64).toNat < 576 ∧
    (31#64).toNat < 32 ∧ (seqAt .supervisor true 0#64).cur = .seq 0 ∧ (seqAt .supervisor true 0#64).me.priv ≠ .graph := by
  decide +kernel

/-! ## Witnesses: synchronisation, engines, the fabric as the sequencer sees it -/

/-- The state with a semaphore held and waited for. -/
def withSem (s : State) (n holder : Nat) (w : List Nat) : State :=
  { s with disp := { s.disp with sems := [(n, { holder := holder, kept := none, waiters := w })] } }

theorem witness_CoreSynchronisation_semaphores :
    let s := seqAt .graph true 0#64
    s.me.wait = .none ∧ coreHolder s.cur = 0 ∧ (s.sem 63).holder = 0x1FF ∧ ((withSem s 63 5 []).sem 63).holder = 5 ∧
    ((withSem s 63 0 []).sem 63).holder = coreHolder s.cur ∧ ((withSem s 63 0 []).sem 63).waiters = [] ∧
    ((withSem s 63 0 [3]).sem 63).waiters = [3] ∧ (CoreId.seq 3 ≠ .seq 0) := by decide +kernel

/-- A cluster of two regions. -/
def twoRegions (x y : Region) : State :=
  let s := dev x { aCluster true with regions := [0, 1] }
  { s with regions := [(0, x), (1, y)] }

theorem witness_CoreSynchronisation_barriers :
    let s := seqAt .graph true 0#64
    let t := twoRegions (aRegion (aCore .graph)) (aRegion (aCore .graph))
    let u := twoRegions (aRegion (aCore .graph)) (aRegion { aCore .graph with run := .halted })
    (s.clusterOf 0 = some 1 ∧ s.cluster? 1 = some (aCluster true) ∧ s.me.wait = .none ∧
      (∀ q ∈ (aCluster true).regions, (s.core (.seq q)).run ≠ .halted) ∧
      (∀ x, x < 1 → ((aCluster true).barArrived ||| (1#128 <<< (aCluster true).indexOf 0)).getLsbD x = true)) ∧
    (t.clusterOf 0 = some 1 ∧ (∀ q ∈ [0, 1], (t.core (.seq q)).run ≠ .halted) ∧
      ((aCluster true).barArrived ||| (1#128 <<< 0)).getLsbD 1 = false) ∧
    (u.core (.seq 1)).run = .halted := by decide +kernel

/-- Tables of one 64 KiB page at virtual address 0, with its leaf, and bytes within the page. -/
def paged (s : State) (leaf : Nat) (l : List (Nat × List Byte)) : State :=
  withHbm s (l.foldl (fun m c => Memory.writeAll m (0x70000 + c.1) c.2)
    (Memory.writeAll [(0x1000, 0x01#8), (0x1001, 0x20#8), (0x2000, 0x01#8), (0x2001, 0x30#8), (0x3000, 0x01#8), (0x3001, 0x40#8)]
      0x4000 (leBytes 8 leaf)))

/-- A page of single-assignment memory, the record at the start of the partition, the cell at 0x1000. -/
def launchState : State :=
  let s := paged (dev (aRegion (((aCore .graph).setReg 1 part0).setReg 2 0x1000#64)) (aCluster false)) 0x7000F []
  { s with mem := { s.mem with bank := [(8 * 262144 + 8, 0x40#8)] } }

def launch1 : State := (launchState.bulkLoad part0 2 []).1
def launch2 : State := (launch1.launchCell 0x1000).1
def launch3 : State := (launch2.launchCell 0x1040).1

theorem witness_LaunchWritesRecord_checks :
    (launchState.me.reg 1#5).toNat % 64 = 0 ∧ (launchState.me.reg 2#5).toNat % 128 = 0 ∧
    (launchState.bulkLoad (launchState.me.reg 1#5) 2 []).2 = .ok (List.replicate 8 0#8 ++ [0x40#8] ++ List.replicate 119 0#8) ∧
    (launch1.launchCell (launchState.me.reg 2#5).toNat).2 = .ok (.hbm 0x71000) true ∧
    (launch2.launchCell (launchState.me.reg 2#5 + 64#64).toNat).2 = .ok (.hbm 0x71040) true := by decide +kernel

theorem witness_LaunchWritesRecord_memory :
    launch3.coreEcc (.hbm 0x71000) = false ∧ launch3.coreEcc (.hbm 0x71040) = false ∧
    launch3.mem.gst (.hbm 0x71000) = .empty ∧ launch3.mem.gst (.hbm 0x71040) = .empty ∧ launchState.mem.wf = true ∧
    launchState.isKeyed (launchState.coreAsid launchState.cur) = false := by decide +kernel

/-- The bytes of a command block (R343). -/
def blockBytes (kind spc ty scope rowlen aux : Nat) : List Byte :=
  leBytes 1 kind ++ leBytes 1 spc ++ leBytes 1 ty ++ leBytes 1 ty ++ leBytes 2 0 ++ leBytes 1 scope ++ leBytes 1 0 ++
  leBytes 8 0x100 ++ leBytes 8 0x200 ++ leBytes 4 rowlen ++ leBytes 4 1 ++ leBytes 4 64 ++ leBytes 4 64 ++ leBytes 8 aux ++
  leBytes 16 0

/-- A sequencer with a block at the start of its partition and a group table of members 0 and 5 at 0x1000. -/
def blockState (b : List Byte) : State :=
  let s := paged (seqAt .graph false part0) 0x70007 [(0x1000, [2#8, 0#8, 0#8, 0#8, 5#8])]
  { s with mem := { s.mem with bank := Memory.writeAll [] (8 * 262144) b } }

def copyBlock : List Byte := blockBytes 1 0x0A 0 4 64 0

theorem witness_EngineInstructions_copy : ((blockState copyBlock).bulkLoad part0 1 []).2 = .ok copyBlock ∧
    blockFails .te false copyBlock = false ∧ ((blockState copyBlock).queueOf 15).length < 64 ∧ (15#5).toNat < 16 := by decide +kernel

def convBlock : List Byte := blockBytes 1 0x0A 1 4 64 0

theorem witness_EngineInstructions_conv : ((blockState convBlock).bulkLoad part0 1 []).2 = .ok convBlock ∧
    blockFails .cv false convBlock = false ∧ 16 ≤ (16#5).toNat ∧ (19#5).toNat < 20 := by
  decide +kernel

def collBlock : List Byte := blockBytes 1 0x0A 1 5 64 0x1000
def coll1 : State := ((blockState collBlock).bulkLoad part0 1 []).1
def coll2 : State := (coll1.bulkLoad (BitVec.ofNat 64 (cmdBlock collBlock).aux) 1 []).1
def collTable : List Byte := [2#8, 0#8, 0#8, 0#8, 5#8] ++ List.replicate 59 0#8

theorem witness_EngineInstructions_coll :
    ((blockState collBlock).bulkLoad part0 1 []).2 = .ok collBlock ∧ blockFails .cl false collBlock = false ∧
    (cmdBlock collBlock).aux % 64 = 0 ∧ (coll1.bulkLoad (BitVec.ofNat 64 (cmdBlock collBlock).aux) 1 []).2 = .ok collTable ∧
    groupSizeBad (fieldLe collTable 0 2) = false ∧
    (coll2.bulkLoad (BitVec.ofNat 64 (cmdBlock collBlock).aux) (groupGranules 2) []).2 = .ok collTable ∧
    groupFails 0 (cmdBlock collBlock) (groupMembers collTable) = false ∧ 20 ≤ (23#5).toNat := by decide +kernel

/-- A core that has issued command 1 to engine 0, which holds it or does not. -/
def ewaitState (q : List Cmd) : State :=
  let s := dev (aRegion (((aCore .graph).setIssued 0 1#32).setReg 1 32#64)) (aCluster true)
  { s with engines := [(0, q)] }

def aCmd : Cmd := newCmd (.core (.seq 0)) 1#32 (cmdBlock (blockBytes 1 0x0A 0 4 64 0)) [] 5 (some 1)

theorem witness_EngineInstructions_ewait :
    ((ewaitState []).me.reg 1#5).toNat < 2 ^ 37 ∧ ((ewaitState []).me.reg 1#5).toNat % 32 ≤ 23 ∧
    (((ewaitState []).me.issued 0) - BitVec.ofNat 32 (((ewaitState []).me.reg 1#5).toNat / 32)).toNat < 2 ^ 31 ∧
    (ewaitState []).queueOf 0 = [] ∧ (∃ c ∈ (ewaitState [aCmd]).queueOf 0, c.issuer = .core (ewaitState [aCmd]).cur ∧
      (1#32 - c.n).toNat < 2 ^ 31) := by
  decide +kernel

/-! The configuration axpy_step of the spec's chapter on assembly, whose words R101's example gives. -/

def axpyWords : List W32 := [0x0001, 2, 5, 3, 0, 0, 0, 22, 0x00000002, 0x00000000, 0x07000044, 0x00000013, 0x00000001,
  0x040381C4, 0x09800010, 0x0A00809A, 0x09804098, 0x0980809C, 0x0904D018, 0x0000A100, 0x00016100, 0x000264C0]

/-- The loader accepts the words, and finds two records, five arcs and three routes. -/
theorem test_loader_accepts_axpy : (match parseImage false axpyWords with
    | .ok p => decide (secondPass p 0 0 4 = none ∧ (p.staged 0 0).recs.map Rec.site = [2, 19] ∧
        (p.staged 0 0).arcs.map ArcWord.slots = [1, 2, 1, 1, 1] ∧ (p.staged 0 0).routes.length = 3)
    | .error _ => false) = true := by decide +kernel

/-- As staged. -/
def axpyCfg : Cfg := match parseImage false axpyWords with
  | .ok p => p.staged 0 0
  | .error _ => Cfg.empty

/-- A configuration without elements. -/
def emptyCfg (id : Nat) : Cfg := { Cfg.empty with cfgid := id }

/-- A cache entry. -/
def anEntry (st : EntryState) (id cseq : Nat) (cfg : Cfg) : Entry :=
  { state := st, cfgid := id, cseq := cseq, age := cseq, cfg := cfg, exits := [0x80#32], reject := 0#64, byPred := false,
    exitSt := .unsent }

/-- Region 0 with a cache. -/
def cacheState (v : W64) (l : List Entry) : State :=
  dev { aRegion ((aCore .graph).setReg 1 v) with cache := l, nextCseq := l.length + 1 } (aCluster true)

theorem witness_Staging_pref : let s := cacheState 65535#64 []
    (s.me.reg 1#5).toNat ≠ 0 ∧ (s.me.reg 1#5).toNat < 65536 ∧ (∀ e ∈ (s.region 0).cache, e.cfgid = 65535 → e.state = .rejected) ∧
    (committedOf (s.region 0)).length < 8 ∧ 65535 < ((cacheState 65536#64 []).me.reg 1#5).toNat := by decide +kernel

def sevenStaged : List Entry := (List.range 7).map (fun n => anEntry .staged 9 (n + 1) (emptyCfg 9))

theorem witness_Staging_cfg : let s := cacheState 7#64 (sevenStaged ++ [anEntry .fetched 7 0 (emptyCfg 7)])
    s.clusterOf 0 = some 1 ∧ s.cluster? 1 = some (aCluster true) ∧ (committedOf (s.region 0)).length < 8 ∧
    (s.region 0).cache.find? (fun e => e.cfgid == 7 && e.state == .fetched) = some (anEntry .fetched 7 0 (emptyCfg 7)) ∧
    (let t := cacheState 9#64 (sevenStaged ++ [anEntry .staged 9 8 (emptyCfg 9)])
     8 ≤ (committedOf (t.region 0)).length ∧ ∃ e ∈ (t.region 0).cache, e.cfgid = 9) := by decide +kernel

/-- A graph image in an ordinary page: a directory with one entry, and the image of axpy_step. -/
def imageCluster : Cluster :=
  let k := aCluster true
  { k with recd := { k.recd with image := 0#64 }, header := { k.header with ncfg := 1, cdirOff := 0x40#64 } }

def imageState : State := paged (dev (aRegion ((aCore .graph).setReg 1 1#64)) imageCluster) 0x70007
  [(0x40, leBytes 8 1 ++ leBytes 8 0x80), (0x80, axpyWords.flatMap (fun w => leBytes 4 w.toNat))]

def imageDir : State × ReadRes := imageState.dirEntry (.core (.seq 0)) 1 imageCluster 0 1
def imageEntry : List Byte := leBytes 8 1 ++ leBytes 8 0x80 ++ List.replicate 48 0#8
def imageRead : State × ImageRes := imageDir.1.readImage (.core (.seq 0)) 1 imageCluster 0 imageEntry

theorem witness_Staging_image :
    imageDir.2 = .ok imageEntry ∧ imageEntry ≠ [] ∧ imageRead.2 = .ok axpyCfg (List.replicate 8 0#32) ∧
    imageRead.1.cur = imageState.cur ∧ imageRead.1.me = imageState.me ∧ imageRead.1.mem = imageState.mem ∧
    imageRead.1.region 0 = imageState.region 0 := by decide +kernel

theorem witness_StartingAndPorts_run : let s := cacheState 0#64 [anEntry .staged 7 1 (emptyCfg 7)]
    let x := s.region 0
    s.clusterOf 0 = some 1 ∧ s.cluster? 1 = some (aCluster true) ∧ (aCluster true).snap = none ∧ s.me.wait = .none ∧
    x.liveEntries = [] ∧ x.oldestStaged = some (anEntry .staged 7 1 (emptyCfg 7)) ∧
    (x.goLive 1).allAdopted 1 (emptyCfg 7) = true ∧ (x.goLive 1).held 1 = some (anEntry .live 7 1 (emptyCfg 7)) := by
  decide +kernel

theorem witness_StartingAndPorts_run_waits : let s := cacheState 0#64 [anEntry .staged 1 1 axpyCfg]
    let x := s.region 0
    x.liveEntries = [] ∧ x.oldestStaged = some (anEntry .staged 1 1 axpyCfg) ∧
    (x.goLive 1).allAdopted 1 axpyCfg = false ∧ (x.goLive 1).held 1 = some (anEntry .live 1 1 axpyCfg) := by
  decide +kernel

theorem witness_StartingAndPorts_swo : let s := cacheState 7#64 [anEntry .live 1 1 axpyCfg, anEntry .staged 7 2 (emptyCfg 7)]
    let x := s.region 0
    x.liveEntries ≠ [] ∧ x.youngestLive = some (anEntry .live 1 1 axpyCfg) ∧
    x.oldestStaged = some (anEntry .staged 7 2 (emptyCfg 7)) ∧ (s.me.reg 1#5).toNat = 7 ∧ axpyCfg.seqOut none ≠ [] ∧
    (∀ n ∈ axpyCfg.seqOut none, (x.goLive 2).acceptsCtl 1 n = true) := by decide +kernel

theorem witness_StartingAndPorts_none : ((cacheState 0#64 []).region 0).youngestLive = none ∧
    ((cacheState 0#64 []).region 0).oldestStaged = none ∧
    ((cacheState 0#64 [anEntry .live 1 1 axpyCfg]).region 0).oldestStaged = none := by decide +kernel

theorem witness_StartingAndPorts_inject : let s := cacheState 7#64 [anEntry .live 1 1 axpyCfg]
    let x := s.region 0
    x.youngestLive = some (anEntry .live 1 1 axpyCfg) ∧ axpyCfg.seqOut (some 2) ≠ [] ∧
    (∀ n ∈ axpyCfg.seqOut (some 2), x.acceptsData 1 n = true) ∧ (s.me.reg 1#5).toNat ≤ 7 ∧ s.me.reg 2#5 = 0#64 ∧
    (∀ n ∈ axpyCfg.seqOut (some 2), x.acceptsCtl 1 n = true) ∧ axpyCfg.seqOut (some 14) = [] ∧
    (∀ n ∈ axpyCfg.seqOut none, x.acceptsCtl 1 n = true) := by decide +kernel

/-- A token waits at sequencer input port 3. -/
def takeState (t : Token) : State :=
  let s := cacheState 0#64 [anEntry .live 1 1 axpyCfg]
  s.setRegion 0 ((s.region 0).setArc 1 4 { Arc.empty with queue := [t] })

theorem witness_StartingAndPorts_take : let x := (takeState (dataTok 5#512)).region 0
    x.portAt 3 = some (1, 4) ∧ x.headOf 1 4 = some (dataTok 5#512) ∧ x.portAt 14 = none ∧
    ((takeState (stopTok 7)).region 0).headOf 1 4 = some (stopTok 7) := by decide +kernel

/-- An instance whose exit 0 has arrived, or one whose exit has not been sent. -/
def exitState (st : ExitState) (exits : List W32) : State :=
  cacheState 0#64 [{ anEntry .live 1 1 axpyCfg with exitSt := st, exits := exits }]

theorem witness_FabricControl_exit :
    ((exitState (.arrived 7) (List.replicate 8 0x80#32)).region 0).exitNext =
      some { anEntry .live 1 1 axpyCfg with exitSt := .arrived 7, exits := List.replicate 8 0x80#32 } ∧
    (List.replicate 8 0x80#32).getD 7 0xFFFFFFFF#32 ≠ 0xFFFFFFFF#32 ∧
    ((exitState (.arrived 0) [0xFFFFFFFF#32]).region 0).exitNext =
      some { anEntry .live 1 1 axpyCfg with exitSt := .arrived 0, exits := [0xFFFFFFFF#32] } ∧
    ((exitState .unsent []).region 0).exitNext = some { anEntry .live 1 1 axpyCfg with exitSt := .unsent, exits := [] } := by
  decide +kernel

/-- Sixteen arcs of other instances are halted. -/
def haltedState (n : Nat) : State :=
  let s := cacheState 0#64 [anEntry .live 1 1 axpyCfg]
  s.setRegion 0 { s.region 0 with arcs := (List.range n).map (fun k => (2048 + k, { Arc.empty with halted := true })) }

theorem witness_FabricControl_halts :
    ((haltedState 15).region 0).youngestLive = some (anEntry .live 1 1 axpyCfg) ∧ (4#10).toNat < axpyCfg.arcs.length ∧
    (((haltedState 15).region 0).arc 1 4).halted = false ∧ ((haltedState 15).region 0).haltedArcs < 16 ∧
    axpyCfg.arcs.length ≤ (5#10).toNat ∧ 16 ≤ ((haltedState 16).region 0).haltedArcs := by decide +kernel

theorem witness_FabricControl_comma : let s := cacheState 0#64 [anEntry .live 1 1 axpyCfg]
    s.clusterOf 0 = some 1 ∧ s.cluster? 1 = some (aCluster true) ∧ (aCluster true).snap = none ∧ s.me.run = .running ∧
    s.me.wait = .none := by decide +kernel

/-! ## Witnesses: control ports, the security block, the read-back plane -/

/-- The bytes of a command cell (R103): reply cell 0x10040, next cell 0x10000. -/
def cmdBytes (opc sem : Nat) (args : List Byte) : List Byte :=
  leBytes 2 opc ++ leBytes 1 sem ++ leBytes 5 0 ++ leBytes 8 0x10000 ++ leBytes 8 0x10040 ++ args ++
    List.replicate (40 - args.length) 0#8

/-- Port A's chain stands at a command cell that has been filled. -/
def cmdState (s : State) (b : List Byte) : State :=
  let t := withReads s [{ reader := .command .a, place := .hbm 0x5BF0010000, virt := none, asid := 0, answer := some (.filled (beatOf b) false) }]
  t.setPort .a { t.port .a with cmd := some 0x10000#64 }

/-- Every byte of a list of zeros is zero. -/
def zeros (l : List Byte) : Bool := l.all (fun b => b == 0#8)

theorem zeros_all {l : List Byte} (h : zeros l = true) : ∀ b ∈ l, b = 0#8 := by simpa [zeros] using h

/-- The device with a session of port A on address space 5. -/
def portBase : State := seqAt .graph true 0#64

theorem witness_PortCommands_acquire : let b := cmdBytes 1 63 []
    CommandStands (cmdState portBase b) .a (commandOf b) 1 ∧ ZeroArgs (commandOf b) 0 40 ∧ (commandOf b).sem < 64 ∧
    ((cmdState portBase b).sem 63).holder = 0x1FF ∧ ((cmdState (withSem portBase 63 5 []) b).sem 63).holder = 5 ∧
    ((cmdState (withSem portBase 63 0x100 []) b).sem 63).holder = portHolder .a ∧
    FreeCell (cmdState portBase b) (commandOf b).reply 0x5BF0010040 :=
  ⟨by unfold CommandStands; decide +kernel, zeros_all (by decide +kernel), by decide +kernel, by decide +kernel,
    by decide +kernel, by decide +kernel, by unfold FreeCell; decide +kernel⟩

theorem witness_PortCommands_release : let b := cmdBytes 2 63 []
    CommandStands (cmdState (withSem portBase 63 0x100 []) b) .a (commandOf b) 2 ∧ ZeroArgs (commandOf b) 0 40 ∧
    ((cmdState (withSem portBase 63 0x100 []) b).sem 63).holder = portHolder .a ∧
    ((cmdState (withSem portBase 63 0x100 []) b).sem 63).waiters = [] ∧
    ((cmdState portBase b).sem 63).holder ≠ portHolder .a :=
  ⟨by unfold CommandStands; decide +kernel, zeros_all (by decide +kernel), by decide +kernel, by decide +kernel, by decide +kernel⟩

theorem witness_PortCommands_reset : let b := cmdBytes 7 0 []
    CommandStands (cmdState (withSem portBase 3 0x100 []) b) .a (commandOf b) 7 ∧ ZeroArgs (commandOf b) 0 40 ∧
    ∀ e ∈ (cmdState (withSem portBase 3 0x100 []) b).disp.sems, e.2.waiters = [] :=
  ⟨by unfold CommandStands; decide +kernel, zeros_all (by decide +kernel), by decide +kernel⟩

/-- CAR_REG of caravan 191 for address space 5, its first cell at 0x1000 of a single-assignment page. -/
def carRegBytes : List Byte := cmdBytes 3 1 (leBytes 2 191 ++ leBytes 2 5 ++ leBytes 1 7 ++ leBytes 3 0 ++ leBytes 8 0x1000)
def carRegState : State := cmdState (withSem (paged portBase 0x7000F []) 1 0x100 []) carRegBytes

theorem witness_PortCommands_register : let c := commandOf carRegBytes
    CommandStands carRegState .a c 3 ∧ ZeroArgs c 5 3 ∧ ZeroArgs c 16 24 ∧ arg c 4 1 ≤ 7 ∧ arg c 8 8 % 128 = 0 ∧ arg c 0 2 ≤ 191 ∧
    arg c 2 2 ≠ 0 ∧ (carRegState.aspace? (arg c 2 2)).isSome = true ∧
    (carRegState.askHead (arg c 0 2) (arg c 2 2) (arg c 8 8)).2 = true ∧ (carRegState.sem 1).holder = portHolder .a ∧
    (carRegState.caravan (arg c 0 2)).state = .unreg ∧
    ((carRegState.setCaravan 191 { Caravan.init with state := .waiting }).caravan 191).state ≠ .unreg ∧
    ((withSem carRegState 1 5 []).sem 1).holder ≠ portHolder .a :=
  ⟨by unfold CommandStands; decide +kernel, zeros_all (by decide +kernel), zeros_all (by decide +kernel), by decide +kernel⟩

theorem witness_PortCommands_unregister : let b := cmdBytes 4 1 (leBytes 2 191)
    let s := cmdState (withSem portBase 1 0x100 []) b
    CommandStands s .a (commandOf b) 4 ∧ ZeroArgs (commandOf b) 2 38 ∧ arg (commandOf b) 0 2 ≤ 191 ∧
    (s.sem 1).holder = portHolder .a ∧ (∀ v ∈ s.disp.saved, v.cluster.caravan ≠ 191) ∧
    ((s.setCaravan 191 { Caravan.init with state := .waiting }).caravan 191).state ≠ .ready ∧
    ((s.setCaravan 191 { Caravan.init with state := .ready }).caravan 191).state = .ready :=
  ⟨by unfold CommandStands; decide +kernel, zeros_all (by decide +kernel), by decide +kernel⟩

theorem witness_PortCommands_reserve : let b := cmdBytes 6 2 (leBytes 2 127 ++ leBytes 2 191)
    let d := cmdBytes 6 2 (leBytes 2 127 ++ leBytes 2 0xFFFF)
    let s := cmdState (withSem portBase 2 0x100 []) b
    CommandStands s .a (commandOf b) 6 ∧ ZeroArgs (commandOf b) 1 1 ∧ ZeroArgs (commandOf b) 4 36 ∧ arg (commandOf b) 0 1 ≤ 127 ∧
    arg (commandOf b) 2 2 ≤ 191 ∧ arg (commandOf d) 2 2 = 0xFFFF ∧ (s.sem 2).holder = portHolder .a ∧
    (portBase.sem 2).holder ≠ portHolder .a :=
  ⟨by unfold CommandStands; decide +kernel, zeros_all (by decide +kernel), zeros_all (by decide +kernel), by decide +kernel⟩

/-- AS_SET of an act on an address space. -/
def asSetBytes (asid act x y : Nat) : List Byte :=
  cmdBytes 5 0 (leBytes 2 asid ++ leBytes 1 act ++ leBytes 5 0 ++ leBytes 8 x ++ leBytes 8 y)
def asSetState (asid act x y : Nat) : State := cmdState (withSem portBase 0 0x100 []) (asSetBytes asid act x y)

theorem witness_AddressSpaceAndCells_set : let c := commandOf (asSetBytes 4095 0 0x5000 0x40)
    let s := asSetState 4095 0 0x5000 0x40
    CommandStands s .a c 5 ∧ ZeroArgs c 3 5 ∧ ZeroArgs c 24 16 ∧ arg c 0 2 = 4095 ∧ c.sem < 64 ∧ (s.sem 0).holder = portHolder .a ∧
    s.ports.pend = [] ∧ s.ports.sc = [] ∧ arg c 2 1 = 0 ∧ arg c 8 8 % 4096 = 0 ∧ arg c 8 8 / 2 ^ 47 = s.member ∧
    arg c 16 8 % 64 = 0 ∧ s.aspace? 4095 = none ∧ (asSetState 5 0 0x5000 0x40).aspace? 5 = some aSpace :=
  ⟨by unfold CommandStands; decide +kernel, zeros_all (by decide +kernel), zeros_all (by decide +kernel), by decide +kernel⟩

theorem witness_AddressSpaceAndCells_remove : let c := commandOf (asSetBytes 6 1 0 0)
    let s := asSetState 6 1 0 0
    CommandStands s .a c 5 ∧ ZeroArgs c 3 5 ∧ ZeroArgs c 24 16 ∧ arg c 2 1 = 1 ∧ (∀ e ∈ s.disp.caravans, e.2.asid ≠ 6) ∧
    (∀ e ∈ s.disp.clusters, e.2.asid ≠ 6) ∧ (∀ v ∈ s.disp.saved, v.cluster.asid ≠ 6) :=
  ⟨by unfold CommandStands; decide +kernel, zeros_all (by decide +kernel), zeros_all (by decide +kernel), by decide +kernel⟩

theorem witness_AddressSpaceAndCells_inval : let c := commandOf (asSetBytes 5 2 0x10000 1)
    let s := asSetState 5 2 0x10000 1
    CommandStands s .a c 5 ∧ ZeroArgs c 3 5 ∧ ZeroArgs c 24 16 ∧ arg c 2 1 = 2 ∧ arg c 8 8 % 65536 = 0 :=
  ⟨by unfold CommandStands; decide +kernel, zeros_all (by decide +kernel), zeros_all (by decide +kernel), by decide +kernel⟩

/-- CELL_CLR of granules from an address on. -/
def clearBytes (va n : Nat) : List Byte := cmdBytes 8 0 (leBytes 8 va ++ leBytes 2 n)

theorem witness_AddressSpaceAndCells_clear : let c := commandOf (clearBytes 0x1BFC0 1)
    let s := cmdState portBase (clearBytes 0x1BFC0 1)
    CommandStands s .a c 8 ∧ ZeroArgs c 10 30 ∧ c.sem < 64 ∧ arg c 0 8 % 64 = 0 ∧ arg c 8 2 = 1 ∧ clearable 0x1BFC0 = true ∧
    s.ports.reads.all (fun r => r.reader == .command .a) = true ∧ s.as0Place c.reply.toNat = some (.hbm 0x5BF0010040, true) ∧
    s.as0Place 0x1BFC0 = some (.hbm 0x5BF001BFC0, true) :=
  ⟨by unfold CommandStands; decide +kernel, zeros_all (by decide +kernel), by decide +kernel⟩

theorem witness_AddressSpaceAndCells_clear_bad : let c := commandOf (clearBytes 0x10001 0)
    CommandStands (cmdState portBase (clearBytes 0x10001 0)) .a c 8 ∧ ZeroArgs c 10 30 ∧ arg c 0 8 % 64 ≠ 0 ∧ arg c 8 2 = 0 ∧
    arg (commandOf (clearBytes 0x10000 1025)) 8 2 = 1025 ∧ clearable (0x1BFC0 + 64 * 1) = false :=
  ⟨by unfold CommandStands; decide +kernel, zeros_all (by decide +kernel), by decide +kernel⟩

/-- The bytes of a security cell (R124): status cell 0x10040, body 0x200000, next cell 0x10080. -/
def secBytes (opc : Nat) (args : List Byte) : List Byte :=
  leBytes 2 opc ++ leBytes 6 0 ++ leBytes 8 0x10080 ++ leBytes 8 0x10040 ++ leBytes 8 0x200000 ++ args ++
    List.replicate (96 - args.length) 0#8

/-- Port A's security chain stands at a cell whose granules have been filled. -/
def secState (s : State) (b : List Byte) : State :=
  let t := withReads s
    [{ reader := .security .a, place := .hbm 0x5BF0010080, virt := none, asid := 0, answer := some (.filled (beatOf (b.take 64)) false) },
     { reader := .security .a, place := .hbm 0x5BF00100C0, virt := none, asid := 0, answer := some (.filled (beatOf (b.drop 64)) false) }]
  t.setPort .a { t.port .a with sec := some 0x10080#64 }

theorem witness_SecurityCommands_certificate : let b := secBytes 1 []
    RequestStands (secState portBase b) .a (requestOf b) 1 ∧ (∀ x ∈ (requestOf b).args, x = 0#8) ∧
    (secState portBase b).as0Place (requestOf b).body = some (.hbm 0x5BF0200000, false) ∧ bodyOk (requestOf b).body = true :=
  ⟨by unfold RequestStands; decide +kernel, zeros_all (by decide +kernel), by decide +kernel⟩

theorem witness_SecurityCommands_attest : let b := secBytes 2 (List.replicate 48 7#8 ++ leBytes 2 0xFFFF)
    let d := secBytes 2 (List.replicate 48 7#8 ++ leBytes 2 9)
    RequestStands (secState portBase b) .a (requestOf b) 2 ∧ (∀ x ∈ (requestOf b).args.drop 50, x = 0#8) ∧
    leNat (((requestOf b).args.drop 48).take 2) = 0xFFFF ∧ (secState portBase b).aspace? 5 ≠ none ∧
    leNat (((requestOf d).args.drop 48).take 2) = 9 ∧ (secState portBase d).aspace? 9 = none :=
  ⟨by unfold RequestStands; decide +kernel, zeros_all (by decide +kernel), by decide +kernel⟩

/-- Address space 5 with a key binding. -/
def keyed (k : Option W64) (s : State) : State := s.setAspace 5 { aSpace with kbind := 1#384, counter := k }

/-- The base point of the curve in the body buffer. -/
def pointState (b : List Byte) : State :=
  secState (withHbm portBase (Memory.writeAll [] 0x5BF0200000 (beBytes 48 g384.1 ++ beBytes 48 g384.2))) b

theorem witness_SecurityCommands_agree : let b := secBytes 3 (leBytes 2 5)
    RequestStands (pointState b) .a (requestOf b) 3 ∧ (∀ x ∈ ((requestOf b).args.drop 2).take 94, x = 0#8) ∧
    leNat ((requestOf b).args.take 2) = 5 ∧ (pointState b).as0Place (requestOf b).body = some (.hbm 0x5BF0200000, false) ∧
    (pointState b).aspace? 5 = some aSpace ∧ aSpace.kbind = 0#384 ∧
    onCurve (beNat (((pointState b).mem.bytes (.hbm 0x5BF0200000) 96).take 48))
      (beNat (((pointState b).mem.bytes (.hbm 0x5BF0200000) 96).drop 48)) = true :=
  ⟨by unfold RequestStands; decide +kernel, zeros_all (by decide +kernel), by decide +kernel⟩

theorem witness_SecurityCommands_agree_refused : let b := secBytes 3 (leBytes 2 5)
    RequestStands (secState (keyed none portBase) b) .a (requestOf b) 3 ∧
    (secState (keyed none portBase) b).aspace? 5 = some { aSpace with kbind := 1#384 } ∧ (1#384 ≠ 0#384) ∧
    RequestStands (secState portBase b) .a (requestOf b) 3 ∧ onCurve (beNat (((secState portBase b).mem.bytes (.hbm 0x5BF0200000) 96).take 48))
      (beNat (((secState portBase b).mem.bytes (.hbm 0x5BF0200000) 96).drop 48)) = false :=
  ⟨by unfold RequestStands; decide +kernel, by decide +kernel, by decide +kernel, by unfold RequestStands; decide +kernel, by decide +kernel⟩

/-- SESSION_OPEN with its tag: the key is 48 zero bytes. -/
def openBytes : List Byte := secBytes 4 (leBytes 2 5 ++ leBytes 6 0 ++ leBytes 8 9 ++
  hmac384 (bytes384 0#384) (asciiBytes "open" ++ beBytes 1 0 ++ beBytes 8 9))

theorem witness_SecurityCommands_open : let q := requestOf openBytes
    let s := secState (keyed (some 8#64) portBase) openBytes
    RequestStands s .a q 4 ∧ (∀ x ∈ (q.args.drop 2).take 6, x = 0#8) ∧ (∀ x ∈ (q.args.drop 64).take 32, x = 0#8) ∧
    s.aspace? 5 = some { aSpace with kbind := 1#384, counter := some 8#64 } ∧ leNat ((q.args.drop 8).take 8) = 9 ∧
    ((8#64).toNat < 9) ∧ (q.args.drop 16).take 48 = hmac384 (bytes384 0#384) (asciiBytes "open" ++ beBytes 1 0 ++ beBytes 8 9) :=
  ⟨by unfold RequestStands; decide +kernel, zeros_all (by decide +kernel), zeros_all (by decide +kernel), by decide +kernel⟩

theorem witness_SecurityCommands_open_stale : let s := secState (keyed (some 9#64) portBase) openBytes
    RequestStands s .a (requestOf openBytes) 4 ∧ s.aspace? 5 = some { aSpace with kbind := 1#384, counter := some 9#64 } ∧
    ¬((9#64).toNat < 9) :=
  ⟨by unfold RequestStands; decide +kernel, by decide +kernel⟩

theorem witness_SecurityCommands_close : let b := secBytes 5 (leBytes 2 5)
    RequestStands (secState (keyed none portBase) b) .a (requestOf b) 5 ∧ (∀ x ∈ ((requestOf b).args.drop 2).take 94, x = 0#8) ∧
    (secState portBase (secBytes 5 (leBytes 2 9))).aspace? 9 = none ∧
    RequestStands (secState portBase (secBytes 5 (leBytes 2 9))) .a (requestOf (secBytes 5 (leBytes 2 9))) 5 :=
  ⟨by unfold RequestStands; decide +kernel, zeros_all (by decide +kernel), by decide +kernel, by unfold RequestStands; decide +kernel⟩

/-- A read-back request (R433): its selector, and the next cell. -/
def readBytes (sel : Nat) : List Byte :=
  leBytes 8 1 ++ leBytes 8 0x10180 ++ leBytes 8 sel ++ List.replicate 40 0#8

/-- Chain A stands at a request that has been filled. -/
def readState (b : List Byte) : State :=
  let t := withReads portBase [{ reader := .readback .a, place := .hbm 0x5BF0010180, virt := none, asid := 0, answer := some (.filled (beatOf b) false) }]
  t.setChain .a { t.disp.chain .a with cell := some 0x10180#64 }

theorem witness_ReadBack : let sel := 3 * 2 ^ 56 + 127 * 2 ^ 48 + 31
    (readState (readBytes sel)).readAt .a = some (0x10180#64, readBytes sel) ∧ (readState (readBytes sel)).readTurn .a = true ∧
    (readState (readBytes sel)).mem.wf = true ∧ (readState (readBytes sel)).isKeyed 0 = false ∧
    FreeCell (readState (readBytes sel)) (0x10180#64 + 64#64) 0x5BF00101C0 ∧ (readBytes sel).length = 64 ∧
    (let f (off n : Nat) : Nat := leNat (((readBytes sel).drop off).take n)
     f 0 1 = 1 ∧ f 1 7 = 0 ∧ f 8 8 % 128 = 0 ∧ f 40 24 = 0 ∧ f 16 8 = 3 * 2 ^ 56 + 127 * 2 ^ 48 + 31 ∧ f 24 8 = 0) ∧
    (readState (readBytes sel)).clusterOf 127 = none ∧
    leNat (((readBytes 0).drop 16).take 8) / 2 ^ 56 = 0 ∧ (readState (readBytes 0)).readAt .a = some (0x10180#64, readBytes 0) :=
  ⟨by decide +kernel, by decide +kernel, by decide +kernel, by decide +kernel, by unfold FreeCell; decide +kernel, by decide +kernel⟩

/-! ## Elements: a record at a site, its arcs to and from the sequencer, and tokens at its ports -/

/-- A record. -/
def elRec (site opc inMask md : Nat) (ext : List W32) : Rec :=
  { site := site, sites := [site], mode0 := 0#8, seed := 1#32, opc := opc, nx := ext.length, repm := 0, pv := 0, ro := 0, sat := false,
    inMask := inMask, oc1 := 0, oc0 := 1, md := md, ext := ext }

/-- An arc of a type from a sequencer port to an input port of a site. -/
def inArcWord (site ty q : Nat) : ArcWord :=
  { ty := ty, slots := 2, pseq := true, psite := q, pport := 0, cseq := false, csite := site, cport := q, elastic := 0, latch := 0, chans := [] }

/-- An arc of a type from an output port of a site to a sequencer port. -/
def outArcWord (site ty p : Nat) : ArcWord :=
  { ty := ty, slots := 2, pseq := false, psite := site, pport := p, cseq := true, csite := p, cport := 0, elastic := 0, latch := 0, chans := [] }

/-- Its configuration: an arc of each type to port 0, 1, … and from output 0, 1, …. -/
def elCfg (q : Rec) (ins outs : List Nat) : Cfg :=
  { emptyCfg 7 with recs := [q], arcs := ins.zipIdx.map (fun a => inArcWord q.site a.1 a.2) ++
      outs.zipIdx.map (fun a => outArcWord q.site a.1 a.2) }

/-- A site that runs the record, with its operation state. -/
def elSite (q : Rec) (op : OpState) : Site :=
  { Site.init with active := some { cseq := 1, cfgid := 7, recd := some q, copy := 0 }, lfsr := 1#32, op := op }

/-- Tokens at the heads of arcs. -/
def headArcs (l : List (Nat × Token)) : Table Arc := l.map (fun a => (arcKey 1 a.1, { Arc.empty with queue := [a.2] }))

/-- The region of an element: its configuration is LIVE, its site runs it, tokens stand at its input ports. -/
def elRegion (cfg : Cfg) (q : Rec) (op : OpState) (l : List (Nat × Token)) : Region :=
  { aRegion (aCore .graph) with
    cache := [anEntry .live 7 1 cfg], nextCseq := 2, sites := [(q.site, elSite q op)], arcs := headArcs l }

/-- The element. -/
def elCtx (cfg : Cfg) (q : Rec) (op : OpState) (l : List (Nat × Token)) : Ctx :=
  { r := 0, x := elRegion cfg q op l, site := q.site, st := elSite q op, recd := q, cfg := cfg, cseq := 1, cfgid := 7 }

/-- The device. -/
def elState (cfg : Cfg) (q : Rec) (op : OpState) (l : List (Nat × Token)) : State :=
  dev (elRegion cfg q op l) (aCluster true)

/-- Poisoned. -/
def bad (t : Token) : Token := { t with poison := true }

/-! ## Witnesses: the vector element, at site 2 -/

/-- Operand tokens. -/
def operands (n : Nat) : List Token := (List.range n).map (fun k => dataTok (BitVec.ofNat 512 (k + 3)))

/-- A lane-wise operation with `n` operands of a type. -/
def veRec (opc n : Nat) : Rec := elRec 2 opc (2 ^ n - 1) 0 []
def veCfg (opc n ty : Nat) : Cfg := elCfg (veRec opc n) (List.replicate n ty) [ty]
def veHeads (n : Nat) : List (Nat × Token) := (operands n).zipIdx.map (fun t => (t.2, t.1))
def veState (opc n ty : Nat) : State := elState (veCfg opc n ty) (veRec opc n) .none (veHeads n)
def veCtx (opc n ty : Nat) : Ctx := elCtx (veCfg opc n ty) (veRec opc n) .none (veHeads n)

theorem witness_VectorLanesFire : ∀ p ∈ [(0x01, 2), (0x02, 2), (0x03, 2), (0x04, 3), (0x05, 3), (0x06, 1), (0x07, 1), (0x08, 2),
      (0x09, 2), (0x0A, 3), (0x0B, 2), (0x11, 1), (0x12, 2), (0x20, 1), (0x21, 1), (0x22, 1), (0x23, 1), (0x24, 1), (0x25, 1),
      (0x26, 1), (0x2B, 1), (0x2C, 1), (0x2D, 1), (0x2E, 1)],
    LanesReady (veState p.1 p.2 1) 0 2 p.1 (veCtx p.1 p.2 1) (operands p.2) := by
  unfold LanesReady Stands; decide +kernel

theorem witness_VectorIntegers : ∀ p ∈ [(0x01, 2), (0x02, 2), (0x03, 2), (0x04, 3), (0x05, 3), (0x06, 1), (0x07, 1), (0x08, 2),
      (0x09, 2), (0x0A, 3), (0x0B, 2)],
    LanesReady (veState p.1 p.2 14) 0 2 p.1 (veCtx p.1 p.2 14) (operands p.2) ∧ inI ((veCtx p.1 p.2 14).outTy 0) = true ∧
      inI ((veCtx p.1 p.2 14).inTy 0) = true ∧ p.2 ≤ (operands p.2).length ∧ (veCtx p.1 p.2 14).recd.e 0 % 16 < 8 := by
  unfold LanesReady Stands; decide +kernel

theorem witness_VectorIntegers_patterns : ∀ p ∈ [(0x18, 2), (0x19, 2), (0x1A, 2), (0x28, 1), (0x29, 2), (0x2A, 1), (0x1B, 2), (0x1C, 2),
      (0x1D, 2), (0x1E, 1), (0x1F, 2)],
    LanesReady (veState p.1 p.2 16) 0 2 p.1 (veCtx p.1 p.2 16) (operands p.2) := by
  unfold LanesReady Stands; decide +kernel

/-- CVT from a type to a type with lanes held. -/
def cvtState (src dst held : Nat) : State :=
  elState (elCfg (elRec 2 0x10 1 0 []) [src] [dst]) (elRec 2 0x10 1 0 [])
    (.cvt { lanes := List.replicate held (0#32, Ev.none), poison := false, recd := none }) [(0, dataTok 3#512)]
def cvtCtx (src dst held : Nat) : Ctx :=
  elCtx (elCfg (elRec 2 0x10 1 0 []) [src] [dst]) (elRec 2 0x10 1 0 [])
    (.cvt { lanes := List.replicate held (0#32, Ev.none), poison := false, recd := none }) [(0, dataTok 3#512)]

/-- Lanes of both types: as many, more at the output before and at the last token of a beat, fewer at the output. -/
theorem witness_VectorHoldingOperations_cvt : ∀ p ∈ [(1, 14, 0), (1, 2, 0), (1, 2, 16), (2, 1, 0), (2, 1, 17)],
    Stands (cvtState p.1 p.2.1 p.2.2) 0 2 .ve 0x10 (cvtCtx p.1 p.2.1 p.2.2) ∧
    (cvtCtx p.1 p.2.1 p.2.2).dataAt 0 = some (dataTok 3#512) ∧ (cvtCtx p.1 p.2.1 p.2.2).ports = [0] ∧
    (cvtCtx p.1 p.2.1 p.2.2).room 0 = true ∧ (cvtCtx p.1 p.2.1 p.2.2).copyReady = true ∧
    (p.1, p.2.1, laneCount ((cvtCtx p.1 p.2.1 p.2.2).inTy 0), laneCount ((cvtCtx p.1 p.2.1 p.2.2).outTy 0)) ∈
      [(1, 14, 16, 16), (1, 2, 16, 32), (2, 1, 32, 16)] := by
  unfold Stands; decide +kernel

/-- A STOP behind held lanes. -/
theorem witness_VectorHoldingOperations_cvt_emit :
    let q := elRec 2 0x10 1 0 []
    let op : OpState := .cvt { lanes := [(0#32, Ev.none)], poison := false, recd := none }
    Stands (elState (elCfg q [1] [2]) q op [(0, stopTok 0)]) 0 2 .ve 0x10 (elCtx (elCfg q [1] [2]) q op [(0, stopTok 0)]) ∧
    (elCtx (elCfg q [1] [2]) q op [(0, stopTok 0)]).headKind 0 = some .stop ∧
    (elCtx (elCfg q [1] [2]) q op [(0, stopTok 0)]).room 0 = true := by
  unfold Stands; decide +kernel

def taccRec : Rec := elRec 2 0x30 1 0 []
def taccOp (closing : Bool) : OpState :=
  .tacc { acc := [], ev := Ev.none, poison := false, recd := none, closing := closing }

theorem witness_VectorHoldingOperations_tacc :
    ∀ p ∈ [(false, dataTok 3#512), (false, stopTok 7), (true, stopTok 7)],
    Stands (elState (elCfg taccRec [14] [14]) taccRec (taccOp p.1) [(0, p.2)]) 0 2 .ve 0x30
      (elCtx (elCfg taccRec [14] [14]) taccRec (taccOp p.1) [(0, p.2)]) ∧
    (elCtx (elCfg taccRec [14] [14]) taccRec (taccOp p.1) [(0, p.2)]).head 0 = some p.2 ∧
    (elCtx (elCfg taccRec [14] [14]) taccRec (taccOp p.1) [(0, p.2)]).room 0 = true ∧
    (elCtx (elCfg taccRec [14] [14]) taccRec (taccOp p.1) [(0, p.2)]).roomAll = true := by
  unfold Stands; decide +kernel

def packRec : Rec := elRec 2 0x31 1 0 []
def packOp (n : Nat) (emit : List Beat) : OpState :=
  .mxpack { vals := List.replicate n 0#32, poison := false, recd := none, emit := emit, emitPoison := false }

theorem witness_VectorHoldingOperations_mxpack : ∀ p ∈ [(0, []), (2032, []), (0, [5#512])],
    Stands (elState (elCfg packRec [1] [9]) packRec (packOp p.1 p.2) [(0, dataTok 3#512)]) 0 2 .ve 0x31
      (elCtx (elCfg packRec [1] [9]) packRec (packOp p.1 p.2) [(0, dataTok 3#512)]) ∧
    (elCtx (elCfg packRec [1] [9]) packRec (packOp p.1 p.2) [(0, dataTok 3#512)]).dataAt 0 = some (dataTok 3#512) ∧
    (elCtx (elCfg packRec [1] [9]) packRec (packOp p.1 p.2) [(0, dataTok 3#512)]).room 0 = true ∧
    (fp32Lanes (elCtx (elCfg packRec [1] [9]) packRec (packOp p.1 p.2) [(0, dataTok 3#512)]) (dataTok 3#512)).length = 16 := by
  unfold Stands; decide +kernel

def unpackRec : Rec := elRec 2 0x32 1 0 []
def unpackOp (v : MxunpackState) : OpState := .mxunpack v
def unpackCtx (v : MxunpackState) : Ctx := elCtx (elCfg unpackRec [9] [1]) unpackRec (unpackOp v) [(0, dataTok 3#512)]

theorem witness_VectorHoldingOperations_mxunpack :
    ∀ v ∈ [({ scale := none, beats := 0, held := none, sent := 0 } : MxunpackState),
      { scale := some (dataTok 0#512), beats := 0, held := none, sent := 0 },
      { scale := some (dataTok 0#512), beats := 1, held := some (dataTok 3#512), sent := 1 },
      { scale := some (dataTok 0#512), beats := 31, held := some (dataTok 3#512), sent := 3 }],
    Stands (elState (elCfg unpackRec [9] [1]) unpackRec (unpackOp v) [(0, dataTok 3#512)]) 0 2 .ve 0x32 (unpackCtx v) ∧
    (unpackCtx v).dataAt 0 = some (dataTok 3#512) ∧ (unpackCtx v).room 0 = true ∧ ((unpackCtx v).take 0).room 0 = true ∧
    unpackCount (unpackCtx v) = 4 ∧ v.beats < groupBeats ((unpackCtx v).inTy 0) := by
  unfold Stands; decide +kernel

theorem witness_VectorChoices_select :
    LanesReady (veState 0x0C 3 1) 0 2 0x0C (veCtx 0x0C 3 1) [dataTok 3#512, dataTok 4#512, dataTok 5#512] ∧
    LanesReady (veState 0x33 2 1) 0 2 0x33 (veCtx 0x33 2 1) [dataTok 3#512, dataTok 4#512] := by
  unfold LanesReady Stands; decide +kernel

def constRec (mask : Nat) : Rec := elRec 2 0x3E mask 0 [5#32]
def constCtx (mask phase : Nat) : Ctx := elCtx (elCfg (constRec mask) [1] [1]) (constRec mask) (.const phase) [(0, dataTok 3#512)]

theorem witness_VectorChoices_const : ∀ p ∈ [(0, 0), (0, 1), (1, 0)],
    Stands (elState (elCfg (constRec p.1) [1] [1]) (constRec p.1) (.const p.2) [(0, dataTok 3#512)]) 0 2 .ve 0x3E (constCtx p.1 p.2) ∧
    (constCtx p.1 p.2).room 0 = true ∧ (constCtx p.1 p.2).roomAll = true ∧ ((constCtx p.1 p.2).recd.inMask = p.1) ∧
    (p.1 ≠ 0 → (constCtx p.1 p.2).dataAt 0 = some (dataTok 3#512)) := by
  unfold Stands; decide +kernel

/-- An element of two outputs with tokens at its ports. -/
def choiceRec (opc n : Nat) : Rec := elRec 2 opc (2 ^ n - 1) 0 []
def choiceState (opc n : Nat) (op : OpState) (l : List (Nat × Token)) : State :=
  elState (elCfg (choiceRec opc n) (List.replicate n 1) [1, 1]) (choiceRec opc n) op l
def choiceCtx (opc n : Nat) (op : OpState) (l : List (Nat × Token)) : Ctx :=
  elCtx (elCfg (choiceRec opc n) (List.replicate n 1) [1, 1]) (choiceRec opc n) op l

theorem witness_VectorChoices_steer : ∀ x ∈ [dataTok 0#512, dataTok 1#512, bad (dataTok 1#512)],
    Stands (choiceState 0x38 2 .none [(0, dataTok 3#512), (1, x)]) 0 2 .ve 0x38 (choiceCtx 0x38 2 .none [(0, dataTok 3#512), (1, x)]) ∧
    (choiceCtx 0x38 2 .none [(0, dataTok 3#512), (1, x)]).dataAt 0 = some (dataTok 3#512) ∧
    (choiceCtx 0x38 2 .none [(0, dataTok 3#512), (1, x)]).dataAt 1 = some x ∧
    (choiceCtx 0x38 2 .none [(0, dataTok 3#512), (1, x)]).room 0 = true ∧
    (choiceCtx 0x38 2 .none [(0, dataTok 3#512), (1, x)]).room 1 = true := by
  unfold Stands; decide +kernel

theorem witness_VectorChoices_merge : ∀ x ∈ [dataTok 0#512, dataTok 1#512, bad (dataTok 1#512)],
    Stands (choiceState 0x39 3 .none [(0, x), (1, dataTok 3#512), (2, dataTok 4#512)]) 0 2 .ve 0x39
      (choiceCtx 0x39 3 .none [(0, x), (1, dataTok 3#512), (2, dataTok 4#512)]) ∧
    (choiceCtx 0x39 3 .none [(0, x), (1, dataTok 3#512), (2, dataTok 4#512)]).dataAt 0 = some x ∧
    (choiceCtx 0x39 3 .none [(0, x), (1, dataTok 3#512), (2, dataTok 4#512)]).dataAt 1 = some (dataTok 3#512) ∧
    (choiceCtx 0x39 3 .none [(0, x), (1, dataTok 3#512), (2, dataTok 4#512)]).dataAt 2 = some (dataTok 4#512) ∧
    (choiceCtx 0x39 3 .none [(0, x), (1, dataTok 3#512), (2, dataTok 4#512)]).room 0 = true := by
  unfold Stands; decide +kernel

theorem witness_VectorChoices_carry : ∀ p ∈ [(false, dataTok 1#512), (true, dataTok 1#512), (true, dataTok 0#512), (true, bad (dataTok 1#512))],
    Stands (choiceState 0x3A 3 (.carry p.1) [(0, dataTok 3#512), (1, dataTok 4#512), (2, p.2)]) 0 2 .ve 0x3A
      (choiceCtx 0x3A 3 (.carry p.1) [(0, dataTok 3#512), (1, dataTok 4#512), (2, p.2)]) ∧
    (choiceCtx 0x3A 3 (.carry p.1) [(0, dataTok 3#512), (1, dataTok 4#512), (2, p.2)]).dataAt 0 = some (dataTok 3#512) ∧
    (choiceCtx 0x3A 3 (.carry p.1) [(0, dataTok 3#512), (1, dataTok 4#512), (2, p.2)]).dataAt 1 = some (dataTok 4#512) ∧
    (choiceCtx 0x3A 3 (.carry p.1) [(0, dataTok 3#512), (1, dataTok 4#512), (2, p.2)]).dataAt 2 = some p.2 ∧
    (choiceCtx 0x3A 3 (.carry p.1) [(0, dataTok 3#512), (1, dataTok 4#512), (2, p.2)]).room 0 = true := by
  unfold Stands; decide +kernel

theorem witness_VectorChoices_inv : ∀ p ∈ [(none, dataTok 1#512), (some (dataTok 9#512), dataTok 0#512), (none, bad (dataTok 1#512))],
    Stands (choiceState 0x3B 2 (.inv p.1) [(0, dataTok 3#512), (1, p.2)]) 0 2 .ve 0x3B (choiceCtx 0x3B 2 (.inv p.1) [(0, dataTok 3#512), (1, p.2)]) ∧
    (choiceCtx 0x3B 2 (.inv p.1) [(0, dataTok 3#512), (1, p.2)]).dataAt 0 = some (dataTok 3#512) ∧
    (choiceCtx 0x3B 2 (.inv p.1) [(0, dataTok 3#512), (1, p.2)]).dataAt 1 = some p.2 ∧
    (choiceCtx 0x3B 2 (.inv p.1) [(0, dataTok 3#512), (1, p.2)]).room 0 = true := by
  unfold Stands; decide +kernel

theorem witness_VectorChoices_fork : ∀ opc ∈ [0x3C, 0x3D],
    Stands (choiceState opc 1 .none [(0, dataTok 3#512)]) 0 2 .ve opc (choiceCtx opc 1 .none [(0, dataTok 3#512)]) ∧
    (choiceCtx opc 1 .none [(0, dataTok 3#512)]).dataAt 0 = some (dataTok 3#512) ∧
    (choiceCtx opc 1 .none [(0, dataTok 3#512)]).room 0 = true ∧ (choiceCtx opc 1 .none [(0, dataTok 3#512)]).room 1 = true := by
  unfold Stands; decide +kernel

/-- The element with a record, arcs of the types given, its operation state and tokens at its ports. -/
def elS (q : Rec) (ins outs : List Nat) (op : OpState) (l : List (Nat × Token)) : State := elState (elCfg q ins outs) q op l
def elC (q : Rec) (ins outs : List Nat) (op : OpState) (l : List (Nat × Token)) : Ctx := elCtx (elCfg q ins outs) q op l

/-- It stands there as an element of a kind and operation. -/
def ElStands (k : EKind) (q : Rec) (ins outs : List Nat) (op : OpState) (l : List (Nat × Token)) : Prop :=
  Stands (elS q ins outs op l) 0 q.site k q.opc (elC q ins outs op l)

/-! ## Witnesses: the stream sequencer, at site 1 -/

/-- A run of a loop in progress. -/
def aRun (j : Nat) (single : Bool) : LoopRun :=
  { start := 2, stop := 6, j := j, poison := false, err := false, recd := 0#32, single := single }

/-- LOOPA with the bounds 2 and 6 and a step: a source, and one that tokens trigger. -/
def loopaRec (mask : Nat) (step : W32) : Rec := elRec 1 0x01 mask 0 [2#32, 6#32, step]

theorem witness_SequenceGenerators_loopa_run : ∀ p ∈ [(2#32, 0), (2#32, 2)],
    ElStands .sq (loopaRec 1 p.1) [14] [14] (.loop (some (aRun p.2 false)) true) [] ∧
    (elC (loopaRec 1 p.1) [14] [14] (.loop (some (aRun p.2 false)) true) []).room 0 = true ∧
    (elC (loopaRec 1 p.1) [14] [14] (.loop (some (aRun p.2 false)) true) []).roomAll = true ∧
    (p.2 = 0 → (aRun p.2 false).start + (aRun p.2 false).j * 2 < (aRun p.2 false).stop) ∧
    (p.2 = 2 → (aRun p.2 false).stop ≤ (aRun p.2 false).start + (aRun p.2 false).j * 2) := by
  unfold ElStands Stands; decide +kernel

/-- A step below zero: 2 is below 6, so the run ends at once. -/
theorem witness_SequenceGenerators_loopa_source : ∀ step ∈ [2, 0xFFFFFFFF],
    ElStands .sq (loopaRec 0 (.ofNat 32 step)) [] [14] (.loop none false) [] ∧
    (elC (loopaRec 0 (.ofNat 32 step)) [] [14] (.loop none false) []).room 0 = true ∧
    (elC (loopaRec 0 (.ofNat 32 step)) [] [14] (.loop none false) []).roomAll = true ∧
    (loopaRec 0 (.ofNat 32 step)).inMask = 0 := by
  unfold ElStands Stands; decide +kernel

theorem witness_SequenceGenerators_loopa_trigger :
    ElStands .sq (loopaRec 1 2#32) [14] [14] (.loop none false) [(0, dataTok 3#512)] ∧
    (elC (loopaRec 1 2#32) [14] [14] (.loop none false) [(0, dataTok 3#512)]).dataAt 0 = some (dataTok 3#512) := by
  unfold ElStands Stands; decide +kernel

def looptRec : Rec := elRec 1 0x02 1 0 [2#32]

theorem witness_SequenceGenerators_loopt :
    ∀ op ∈ [OpState.loop none false, .loop (some (aRun 0 false)) true, .loop (some (aRun 2 false)) true,
      .loop (some (aRun 0 true)) true, .loop (some (aRun 1 true)) true],
    ElStands .sq looptRec [14] [14] op [(0, dataTok 3#512)] ∧
    (elC looptRec [14] [14] op [(0, dataTok 3#512)]).dataAt 0 = some (dataTok 3#512) ∧
    (elC looptRec [14] [14] op [(0, dataTok 3#512)]).room 0 = true ∧
    (elC looptRec [14] [14] op [(0, dataTok 3#512)]).roomAll = true := by
  unfold ElStands Stands; decide +kernel

def mxcmdRec : Rec := elRec 1 0x03 1 0 [1#32]

theorem witness_SequenceGenerators_mxcmd : ∀ ty ∈ [14, 17],
    ElStands .sq mxcmdRec [ty] [17] .none [(0, dataTok 3#512)] ∧
    (elC mxcmdRec [ty] [17] .none [(0, dataTok 3#512)]).dataAt 0 = some (dataTok 3#512) ∧
    (elC mxcmdRec [ty] [17] .none [(0, dataTok 3#512)]).room 0 = true ∧
    (elC mxcmdRec [ty] [17] .none [(0, dataTok 3#512)]).inTy 0 = ty := by
  unfold ElStands Stands; decide +kernel

/-- A controller. -/
def ctlRec (opc : Nat) : Rec := elRec 1 opc 3 0 [4#32]

/-- A done token at port 1. -/
theorem witness_SequenceControllers_done : ∀ opc ∈ [0x08, 0x09, 0x0A], ∀ out ∈ [0, 1],
    ElStands .sq (ctlRec opc) [17, 17] [17, 17] (.ctl (.ofNat 32 out) false) [(1, dataTok 3#512)] ∧
    (elC (ctlRec opc) [17, 17] [17, 17] (.ctl (.ofNat 32 out) false) [(1, dataTok 3#512)]).dataAt 1 = some (dataTok 3#512) ∧
    (elC (ctlRec opc) [17, 17] [17, 17] (.ctl (.ofNat 32 out) false) [(1, dataTok 3#512)]).room 1 = true := by
  unfold ElStands Stands; decide +kernel

/-- A go token at port 0, a permit left. -/
theorem witness_SequenceControllers_go : ∀ opc ∈ [0x08, 0x09, 0x0A],
    ElStands .sq (ctlRec opc) [17, 17] [17, 17] (.ctl 0#32 false) [(0, dataTok 3#512)] ∧
    (elC (ctlRec opc) [17, 17] [17, 17] (.ctl 0#32 false) [(0, dataTok 3#512)]).dataAt 0 = some (dataTok 3#512) ∧
    (elC (ctlRec opc) [17, 17] [17, 17] (.ctl 0#32 false) [(0, dataTok 3#512)]).dataAt 1 = none ∧
    (elC (ctlRec opc) [17, 17] [17, 17] (.ctl 0#32 false) [(0, dataTok 3#512)]).room 0 = true ∧
    0 < (ctlRec opc).e 0 % 256 := by
  unfold ElStands Stands; decide +kernel

/-- A STOP at port 0, and the STOP that ends the drain. -/
theorem witness_SequenceControllers_drain : ∀ opc ∈ [0x08, 0x09, 0x0A],
    (ElStands .sq (ctlRec opc) [17, 17] [17, 17] (.ctl 1#32 false) [(0, stopTok 0)] ∧
      (elC (ctlRec opc) [17, 17] [17, 17] (.ctl 1#32 false) [(0, stopTok 0)]).roomCtl 0 = true ∧
      (elC (ctlRec opc) [17, 17] [17, 17] (.ctl 1#32 false) [(0, stopTok 0)]).head 0 = some (stopTok 0)) ∧
    ElStands .sq (ctlRec opc) [17, 17] [17, 17] (.ctl 1#32 true) [(1, stopTok 0)] ∧
    (elC (ctlRec opc) [17, 17] [17, 17] (.ctl 1#32 true) [(1, stopTok 0)]).head 1 = some (stopTok 0) ∧
    (elC (ctlRec opc) [17, 17] [17, 17] (.ctl 1#32 true) [(1, stopTok 0)]).roomCtl 1 = true := by
  unfold ElStands Stands; decide +kernel

def permitRec : Rec := elRec 1 0x10 0 0 [4#32]

theorem witness_SequenceControllers_permit : ∀ k ∈ [3, 4],
    ElStands .sq permitRec [] [17] (.permit k false) [] ∧ permitRec.e 0 % 256 = 4 ∧
    (elC permitRec [] [17] (.permit k false) []).room 0 = true ∧
    (elC permitRec [] [17] (.permit k false) []).roomAll = true := by
  unfold ElStands Stands; decide +kernel

def doneRec (need : W32) : Rec := elRec 1 0x11 3 0 [need]
def doneAt (n : W32) : DoneState := { collected := n, count := 0#32, poison := false, recd := none }

/-- A token at port 1 alone; STOP(0) at both ports, the last and an earlier; a deeper STOP behind a counted end. -/
theorem witness_SequenceControllers_collect :
    ElStands .sq (doneRec 2#32) [17, 17] [17] (.done (doneAt 0#32)) [(1, dataTok 3#512)] ∧
    (elC (doneRec 2#32) [17, 17] [17] (.done (doneAt 0#32)) [(1, dataTok 3#512)]).ports = [0, 1] ∧
    (elC (doneRec 2#32) [17, 17] [17] (.done (doneAt 0#32)) [(1, dataTok 3#512)]).dataAt 0 = none ∧
    (elC (doneRec 2#32) [17, 17] [17] (.done (doneAt 0#32)) [(1, dataTok 3#512)]).dataAt 1 = some (dataTok 3#512) := by
  unfold ElStands Stands; decide +kernel

theorem witness_SequenceControllers_ends : ∀ p ∈ [(2#32, 0#32, 0), (2#32, 1#32, 0), (2#32, 1#32, 1)],
    ElStands .sq (doneRec p.1) [17, 17] [17] (.done (doneAt p.2.1)) [(0, stopTok 0), (1, stopTok p.2.2)] ∧
    (elC (doneRec p.1) [17, 17] [17] (.done (doneAt p.2.1)) [(0, stopTok 0), (1, stopTok p.2.2)]).ports = [0, 1] ∧
    (elC (doneRec p.1) [17, 17] [17] (.done (doneAt p.2.1)) [(0, stopTok 0), (1, stopTok p.2.2)]).head 0 = some (stopTok 0) ∧
    (elC (doneRec p.1) [17, 17] [17] (.done (doneAt p.2.1)) [(0, stopTok 0), (1, stopTok p.2.2)]).head 1 = some (stopTok p.2.2) ∧
    (stopTok p.2.2).depth = p.2.2 ∧ (doneRec p.1).e 0 % 65536 = 2 ∧
    (elC (doneRec p.1) [17, 17] [17] (.done (doneAt p.2.1)) [(0, stopTok 0), (1, stopTok p.2.2)]).room 0 = true := by
  unfold ElStands Stands; decide +kernel

def countRec (limit : W32) : Rec := elRec 1 0x12 1 0 [limit]

theorem witness_SequenceControllers_count : ∀ p ∈ [(0, 5), (4, 2), (4, 3)],
    ElStands .sq (countRec (.ofNat 32 p.1)) [17] [17, 17] (.count (.ofNat 32 p.2)) [(0, dataTok 3#512)] ∧
    (elC (countRec (.ofNat 32 p.1)) [17] [17, 17] (.count (.ofNat 32 p.2)) [(0, dataTok 3#512)]).dataAt 0 = some (dataTok 3#512) ∧
    (elC (countRec (.ofNat 32 p.1)) [17] [17, 17] (.count (.ofNat 32 p.2)) [(0, dataTok 3#512)]).room 0 = true ∧
    (elC (countRec (.ofNat 32 p.1)) [17] [17, 17] (.count (.ofNat 32 p.2)) [(0, dataTok 3#512)]).room 1 = true := by
  unfold ElStands Stands; decide +kernel

def exitRec : Rec := elRec 1 0x13 1 0 [3#32]

theorem witness_SequenceControllers_exit : ∀ sent ∈ [false, true], ∀ t ∈ [dataTok 3#512, stopTok 0],
    ElStands .sq exitRec [17] [17] (.exit sent) [(0, t)] ∧ (elC exitRec [17] [17] (.exit sent) [(0, t)]).head 0 = some t ∧
    (elC exitRec [17] [17] (.exit sent) [(0, t)]).room 0 = true := by
  unfold ElStands Stands; decide +kernel

/-! ## Witnesses: the matrix element, at site 0 -/

/-- The record of an integer matrix element. -/
def mxRec (opc : Nat) : Rec := elRec 0 opc 7 0 []
def mxIns : List Nat := [17, 15, 15]

/-- A command word. -/
def mxWord (op m n k : Nat) : Nat := op + 8 * m + 512 * n + 32768 * k

def mxIdle : MxState :=
  { cmd := none, aFrame := { scale := none, beats := 0 }, bFrame := { scale := none, beats := 0 }, ldPoison := false, ldRec := none,
    boundary := none }

/-- Each command at the port of an element whose record admits it. -/
theorem witness_MatrixElements_commands : ∀ p ∈ [(1, 3, 2, 2), (2, 3, 2, 2), (3, 3, 2, 2), (4, 0, 0, 0), (5, 0, 0, 0), (6, 0, 0, 0),
      (7, 0, 0, 0)],
    let t := dataTok (BitVec.ofNat 512 (mxWord p.1 p.2.1 p.2.2.1 p.2.2.2))
    MxAsked (elS (mxRec 2) mxIns [14] (.mx mxIdle) [(0, t)]) 0 0 (elC (mxRec 2) mxIns [14] (.mx mxIdle) [(0, t)]) mxIdle t p.1 ∧
    (p.1 ≤ 3 → 0 < (mxFields (t.payload.setWidth 32)).m ∧ 0 < (mxFields (t.payload.setWidth 32)).n ∧
      0 < (mxFields (t.payload.setWidth 32)).k) := by
  unfold MxAsked MxStands; decide +kernel

/-- A malformed command, and one with an error record. -/
theorem witness_MatrixElements_malformed :
    ∀ t ∈ [dataTok 0#512, errTok (errRecord 5 2)],
    MxStands (elS (mxRec 2) mxIns [14] (.mx mxIdle) [(0, t)]) 0 0 (elC (mxRec 2) mxIns [14] (.mx mxIdle) [(0, t)]) mxIdle ∧
    (elC (mxRec 2) mxIns [14] (.mx mxIdle) [(0, t)]).dataAt 0 = some t ∧
    commandOk (elC (mxRec 2) mxIns [14] (.mx mxIdle) [(0, t)]) t = false := by
  unfold MxStands; decide +kernel

/-- A command in progress. -/
def mxOpen (w steps drained loaded : Nat) : MxState :=
  { mxIdle with cmd := some { word := BitVec.ofNat 32 w, steps := steps, bBeats := steps, drained := drained, loaded := loaded,
                              cut := false } }

/-- The first and the last step of an integer MMA, of each type of operands. -/
theorem witness_MatrixElements_step : ∀ steps ∈ [0, 1], ∀ ty ∈ [15, 16, 18],
    let m := mxOpen (mxWord 1 3 2 2) steps 0 0
    let c := elC (mxRec 2) [17, ty, ty] [14] (.mx m) [(1, dataTok 3#512), (2, dataTok 4#512)]
    MxStands (elS (mxRec 2) [17, ty, ty] [14] (.mx m) [(1, dataTok 3#512), (2, dataTok 4#512)]) 0 0 c m ∧
    m.aFrame.scale = none ∧ m.bFrame.scale = none ∧ c.recd.consumes 1 = true ∧ c.inTy 1 = ty ∧ c.inTy 2 = ty ∧
    c.dataAt 1 = some (dataTok 3#512) ∧ c.dataAt 2 = some (dataTok 4#512) ∧ m.cmd.map MxCmd.cut = some false ∧
    m.cmd.map MxCmd.bBeats = some steps ∧
    (mxFields (BitVec.ofNat 32 (mxWord 1 3 2 2))).op = 1 ∧ (mxFields (BitVec.ofNat 32 (mxWord 1 3 2 2))).bk = false ∧
    steps < (mxFields (BitVec.ofNat 32 (mxWord 1 3 2 2))).k := by
  unfold MxStands; decide +kernel

/-- Beats 0 and 62 of LDACC. -/
theorem witness_MatrixElements_ldacc : ∀ loaded ∈ [0, 62],
    let q := elRec 0 2 15 0 []
    let m := mxOpen (mxWord 6 0 0 0) 0 0 loaded
    let c := elC q [17, 15, 15, 14] [14] (.mx m) [(3, dataTok 3#512)]
    MxStands (elS q [17, 15, 15, 14] [14] (.mx m) [(3, dataTok 3#512)]) 0 0 c m ∧
    (mxFields (BitVec.ofNat 32 (mxWord 6 0 0 0))).op = 6 ∧ c.dataAt 3 = some (dataTok 3#512) ∧ loaded + 1 < 64 := by
  unfold MxStands; decide +kernel

/-- The first, the last and the STOP beat of an integer drain of 64 beats. -/
theorem witness_MatrixElements_drain : ∀ drained ∈ [0, 63, 64],
    let m := mxOpen (mxWord 5 0 0 0) 0 drained 0
    let c := elC (mxRec 2) mxIns [14] (.mx m) []
    MxStands (elS (mxRec 2) mxIns [14] (.mx m) []) 0 0 c m ∧ (mxFields (BitVec.ofNat 32 (mxWord 5 0 0 0))).op = 5 ∧
    drainBeats c = 64 ∧ c.room 0 = true ∧ c.roomCtl 0 = true ∧ c.outTy 0 = 14 ∧ mxInteger c = true ∧
    c.regs.flag c.regs.act = (false, none) := by
  unfold MxStands; decide +kernel

/-- A STOP at the commands, and the boundary it opens once every other port has its STOP. -/
theorem witness_MatrixElements_boundary :
    (let c := elC (mxRec 2) mxIns [14] (.mx mxIdle) [(0, stopTok 1)]
     MxStands (elS (mxRec 2) mxIns [14] (.mx mxIdle) [(0, stopTok 1)]) 0 0 c mxIdle ∧ c.head 0 = some (stopTok 1)) ∧
    (let m : MxState := { mxIdle with boundary := some 1 }
     let c := elC (mxRec 2) mxIns [14] (.mx m) [(1, stopTok 1), (2, stopTok 1)]
     MxStands (elS (mxRec 2) mxIns [14] (.mx m) [(1, stopTok 1), (2, stopTok 1)]) 0 0 c m ∧ c.ports = [0, 1, 2] ∧
     c.headKind 1 = some .stop ∧ c.headKind 2 = some .stop ∧ c.roomCtl 0 = true) := by
  unfold MxStands; decide +kernel

/-! ## Witnesses: address generators, at site 8 -/

/-- An address generator's record: its descriptor is pool entry 0. -/
def agRec (opc mask : Nat) : Rec := elRec 8 opc mask 0 [0#32, 0#32]

/-- Four beats of the island, one after the other; word 15 as given. -/
def agPool (w15 : W32) : List W32 :=
  [5#32, 0#32, 0#32, 4096#32, 0#32, 4#32, 0#32, 0#32, 0#32, 0#32, 64#32, 0#32, 0#32, 0#32, 0#32, w15]

def agCfg (q : Rec) (ins outs : List Nat) (w15 : W32) : Cfg := { elCfg q ins outs with pool := [agPool w15] }

/-- Its cluster: four banks. -/
def agState (q : Rec) (ins outs : List Nat) (w15 : W32) (a : AgState) (l : List (Nat × Token)) : State :=
  dev (elRegion (agCfg q ins outs w15) q (.ag a) l) (aCluster true)
def agCtx (q : Rec) (ins outs : List Nat) (w15 : W32) (a : AgState) (l : List (Nat × Token)) : Ctx :=
  elCtx (agCfg q ins outs w15) q (.ag a) l

/-- A run at its first point, one past its last, and none. -/
def agOpen : AgState := { AgState.init with isOpen := true, runs := 1 }
def agPast : AgState := { agOpen with past := true }
def agIdleState : AgState := AgState.init

/-- An access is resolved. -/
def resolved (x : State × Resolve) : Bool :=
  match x.2 with
  | .ok _ _ => true
  | _ => false

/-- A load or fill at an open run's point. -/
theorem witness_LoadingGenerators_issue : ∀ opc ∈ [1, 3],
    let q := agRec opc 1
    let s := agState q [14] [14] 0#32 agOpen []
    let c := agCtx q [14] [14] 0#32 agOpen []
    CopyStands s 0 8 .ag opc c 0 ∧ RunOpen c 0 ∧ (c.agent 0).beats < 16 ∧
    c.cluster s = some (1, aCluster true) ∧
    c.tileWaits (pointOf c (c.ag 0) (aCluster true)).1 (pointOf c (c.ag 0) (aCluster true)).2 false
      (!(c.ag 0).touched) (s.pendingOf c.r (c.copySite 0)).length = false ∧
    resolved (s.resolveIn (aCluster true) c.r (pointOf c (c.ag 0) (aCluster true)).1
      (pointOf c (c.ag 0) (aCluster true)).2 AccKind.load.acc) = true := by
  unfold CopyStands RunOpen; decide +kernel

theorem witness_LoadingGenerators_begin : ∀ mask ∈ [0, 1],
    let q := agRec 1 mask
    let c := agCtx q [14] [14] 0#32 agIdleState [(0, dataTok 3#512)]
    CopyStands (agState q [14] [14] 0#32 agIdleState [(0, dataTok 3#512)]) 0 8 .ag 1 c 0 ∧ c.canBegin = true ∧ (c.ag 0).runs = 0 ∧
    (mask = 1 → c.dataAt 0 = some (dataTok 3#512)) := by
  unfold CopyStands; decide +kernel

/-- An index inside the pattern's bounds, one past them, and one that is no multiple of a beat. -/
theorem witness_LoadingGenerators_gather : ∀ p ∈ [(64, 3), (64, 63), (4, 3)],
    let q := agRec 3 1
    let c := agCtx q [17] [14] (.ofNat 32 p.1) agIdleState [(0, dataTok (.ofNat 512 p.2))]
    CopyStands (agState q [17] [14] (.ofNat 32 p.1) agIdleState [(0, dataTok (.ofNat 512 p.2))]) 0 8 .ag 3 c 0 ∧
    c.canBegin = true ∧ c.dataAt 0 = some (dataTok (.ofNat 512 p.2)) ∧ c.desc.isEmpty = false ∧
    (p = (64, 3) → indexOfTok (c.inTy 0) (dataTok (.ofNat 512 p.2)) * c.desc.word15.toNat % 64 = 0 ∧
      c.desc.inBounds (indexOfTok (c.inTy 0) (dataTok (.ofNat 512 p.2)) * c.desc.word15.toNat) = true) ∧
    (p = (64, 63) → indexOfTok (c.inTy 0) (dataTok (.ofNat 512 p.2)) * c.desc.word15.toNat % 64 = 0 ∧
      c.desc.inBounds (indexOfTok (c.inTy 0) (dataTok (.ofNat 512 p.2)) * c.desc.word15.toNat) = false) ∧
    (p = (4, 3) → indexOfTok (c.inTy 0) (dataTok (.ofNat 512 p.2)) * c.desc.word15.toNat % 64 ≠ 0) := by
  unfold CopyStands; decide +kernel

/-- The element with an agent. -/
def withAgent (s : State) (g : Agent) : State :=
  let x := s.region 0
  s.setRegion 0 { x with sites := x.sites.map (fun p => (p.1, { p.2 with agent := g })) }
def ctxAgent (c : Ctx) (g : Agent) : Ctx :=
  { c with st := { c.st with agent := g }, x := { c.x with sites := c.x.sites.map (fun p => (p.1, { p.2 with agent := g })) } }

theorem witness_LoadingGenerators_emit : ∀ opc ∈ [1, 3],
    let q := agRec opc 1
    let g : Agent := { Agent.init with resp := [.tok (dataTok 5#512), .tok (stopTok 0)] }
    let c := ctxAgent (agCtx q [14] [14] 0#32 agOpen []) g
    ctxOf (withAgent (agState q [14] [14] 0#32 agOpen []) g) 0 8 = some c ∧ c.recd.isOp .ag opc = true ∧
    (c.agent c.emitting).resp = [.tok (dataTok 5#512), .tok (stopTok 0)] ∧ (dataTok 5#512).isControl = false ∧
    c.room 0 = true ∧ [RespItem.tok (stopTok 0)].head? ≠ some .endRun := by
  decide +kernel

theorem witness_StoringGenerators_fill : ∀ opc ∈ [6, 7], ∀ mask ∈ [0, 1],
    let q := agRec opc mask
    let c := agCtx q [14] [14] 0#32 agIdleState [(0, dataTok 3#512)]
    CopyStands (agState q [14] [14] 0#32 agIdleState [(0, dataTok 3#512)]) 0 8 .ag opc c 0 ∧ c.canBegin = true ∧
    c.desc.isEmpty = false ∧ (c.ag 0).runs = 0 ∧ (mask = 1 → c.dataAt 0 = some (dataTok 3#512)) := by
  unfold CopyStands; decide +kernel

theorem witness_StoringGenerators_fill_point : ∀ opc ∈ [6, 7],
    let q := agRec opc 1
    let s := agState q [14] [14] 0#32 agOpen []
    let c := agCtx q [14] [14] 0#32 agOpen []
    CopyStands s 0 8 .ag opc c 0 ∧ RunOpen c 0 ∧ (c.agent 0).outst.length < 16 ∧
    c.tileWaits (pointOf c (c.ag 0) (aCluster true)).1 (pointOf c (c.ag 0) (aCluster true)).2 true
      (!(c.ag 0).touched) 0 = false ∧
    resolved (s.resolveIn (aCluster true) c.r (pointOf c (c.ag 0) (aCluster true)).1
      (pointOf c (c.ag 0) (aCluster true)).2 (if opc = 6 then AccKind.clear.acc else AccKind.store.acc)) = true := by
  unfold CopyStands RunOpen; decide +kernel

/-- ASTORE's beat in an open run and in a new one; SCATTER's beat at port 1 of an open run. -/
theorem witness_StoringGenerators_store : ∀ p ∈ [(2, 0, agOpen), (2, 0, agIdleState), (4, 1, agOpen)],
    let q := agRec p.1 (if p.1 = 4 then 3 else 1)
    let s := agState q [17, 14] [14] 0#32 p.2.2 [(p.2.1, dataTok 3#512)]
    let c := agCtx q [17, 14] [14] 0#32 p.2.2 [(p.2.1, dataTok 3#512)]
    CopyStands s 0 8 .ag p.1 c 0 ∧ (c.ag 0).closing = none ∧ c.dataAt p.2.1 = some (dataTok 3#512) ∧ c.desc.isEmpty = false ∧
    (c.agent 0).outst.length < 16 ∧ (c.ag 0).past = false ∧ (c.ag 0).bad = none ∧ c.nextRun = 0 ∧
    (p.1 = 4 → c.openCopy = some 0) ∧
    resolved (s.resolveIn (aCluster true) c.r (pointOf c (c.ag 0) (aCluster true)).1
      (pointOf c (c.ag 0) (aCluster true)).2 AccKind.store.acc) = true ∧
    c.tileWaits (pointOf c (c.ag 0) (aCluster true)).1 (pointOf c (c.ag 0) (aCluster true)).2 true true 0 = false := by
  unfold CopyStands; decide +kernel

theorem witness_StoringGenerators_scatter :
    let q := agRec 4 3
    let c := agCtx q [17, 14] [14] 64#32 agIdleState [(0, dataTok 3#512)]
    CopyStands (agState q [17, 14] [14] 64#32 agIdleState [(0, dataTok 3#512)]) 0 8 .ag 4 c 0 ∧ c.openCopy = none ∧
    c.canBegin = true ∧ (c.ag 0).closing = none ∧ c.dataAt 0 = some (dataTok 3#512) ∧ c.desc.isEmpty = false ∧
    indexOfTok (c.inTy 0) (dataTok 3#512) * c.desc.word15.toNat % 64 = 0 ∧
    c.desc.inBounds (indexOfTok (c.inTy 0) (dataTok 3#512) * c.desc.word15.toNat) = true := by
  unfold CopyStands; decide +kernel

/-- The completion of ASTORE and SCATTER behind a STOP, and that of FILL and PCLEAR past the last point. -/
theorem witness_StoringGenerators_completion : ∀ p ∈ [(2, { agIdleState with closing := some 1 }), (4, { agIdleState with closing := some 1 }),
      (6, agPast), (7, agPast)],
    let q := agRec p.1 (if p.1 = 4 then 3 else 1)
    let c := agCtx q [17, 14] [14] 0#32 p.2 []
    ctxOf (agState q [17, 14] [14] 0#32 p.2 []) 0 8 = some c ∧ c.recd.kind = .ag ∧ c.recd.copies = 1 ∧ c.room 0 = true ∧
    (c.emit 0 (dataTok 0#512)).roomAll = true ∧ c.recd.opc = p.1 ∧ c.stored = true ∧ (p.1 < 5 → (c.ag 0).closing = some 1) ∧
    (5 < p.1 → c.agIdle = false ∧ (c.ag 0).isOpen = true ∧ (c.ag 0).past = true ∧ (c.agent 0).outst = [] ∧
      (c.agent 0).park = .running ∧ (c.agent 0).heldTok = none) := by
  decide +kernel

/-- DLOAD at a point of its tile. -/
theorem witness_DecomposingLoad_point :
    let q := agRec 5 1
    let s := agState q [14] [1, 1] 0#32 agOpen []
    let c := agCtx q [14] [1, 1] 0#32 agOpen []
    CopyStands s 0 8 .ag 5 c 0 ∧ (c.ag 0).isOpen = true ∧ (c.ag 0).past = false ∧ c.canBegin = false ∧
    (s.pendingOf c.r c.site).length < 16 ∧
    c.tileWaits (pointOf c (c.ag 0) (aCluster true)).1 (pointOf c (c.ag 0) (aCluster true)).2 false true 0 = false ∧
    resolved (s.resolveIn (aCluster true) c.r (pointOf c (c.ag 0) (aCluster true)).1
      (pointOf c (c.ag 0) (aCluster true)).2 AccKind.load.acc) = true := by
  unfold CopyStands; decide +kernel

/-- A tile whose two beats are there. -/
theorem witness_DecomposingLoad_tile :
    let q := agRec 5 1
    let toks := [dataTok 3#512, dataTok 4#512]
    let g : Agent := { Agent.init with resp := toks.map RespItem.tok }
    let c := ctxAgent (agCtx q [14] [1, 1] 0#32 agPast []) g
    CopyStands (withAgent (agState q [14] [1, 1] 0#32 agPast []) g) 0 8 .ag 5 c 0 ∧ c.canBegin = false ∧
    (c.ag 0).isOpen = true ∧ (c.ag 0).past = true ∧ (c.ag 0).dl = none ∧ (c.agent 0).resp = toks.map RespItem.tok := by
  unfold CopyStands; decide +kernel

/-- Beats of a decomposed tile, the first with and without a beat of A. -/
theorem witness_DecomposingLoad_emit : ∀ x ∈ [none, some 5],
    let q := agRec 5 1
    let o : DloadOut := { beats := [(x.map (BitVec.ofNat 512), 6#512), (none, 7#512)], poison := false, recd := none }
    let a : AgState := { agPast with dl := some o }
    let c := agCtx q [14] [1, 1] 0#32 a []
    Stands (agState q [14] [1, 1] 0#32 a []) 0 8 .ag 5 c ∧ (c.ag 0).dl = some o ∧ c.room 0 = true ∧ c.room 1 = true := by
  unfold Stands; decide +kernel

/-! ## Witnesses: the header element, at site 13 -/

/-- A header element's record: mask program 0, no run table. -/
def hdRec (opc mask md : Nat) : Rec := elRec 13 opc mask md [0#32, 0x10000#32]

/-- A program that allows the keys up to the query. -/
def hdMasks : List (List Atom) := [[{ aop := 1, neg := false, eoc := true, eop := true, p := 0x1FF00, b := 0#32 }]]

def hdState (q : Rec) (ins outs : List Nat) (op : OpState) (l : List (Nat × Token)) : State :=
  dev (elRegion { elCfg q ins outs with masks := hdMasks } q op l) (aCluster true)
def hdCtx (q : Rec) (ins outs : List Nat) (op : OpState) (l : List (Nat × Token)) : Ctx :=
  elCtx { elCfg q ins outs with masks := hdMasks } q op l

/-- A scan with nothing at hand. -/
def scan0 : ScanState := { cur := none, nb := 0#32, ord := 0#32, summary := none, yielded := false }

theorem witness_ScansAndMasks_bvscan : ∀ md ∈ [0, 1],
    let q := hdRec 1 3 md
    let l := [(0, dataTok 3#512), (1, dataTok 6#512)]
    let c := hdCtx q [17, 17] [14] (.scan scan0) l
    Stands (hdState q [17, 17] [14] (.scan scan0) l) 0 13 .hd 1 c ∧ c.recd.md = md ∧
    c.ports.map c.dataAt = [dataTok 3#512, dataTok 6#512].map some := by
  unfold Stands; decide +kernel

theorem witness_ScansAndMasks_btscan : ∀ summary ∈ [none, some 6],
    let b : ScanState := { scan0 with summary := summary.map (fun l => (BitVec.ofNat 512 l, false, none, 0)) }
    let q := hdRec 2 3 0
    let l := [(0, dataTok 6#512), (1, dataTok 5#512)]
    let c := hdCtx q [17, 17] [14] (.scan b) l
    Stands (hdState q [17, 17] [14] (.scan b) l) 0 13 .hd 2 c ∧ c.dataAt 0 = some (dataTok 6#512) ∧
    c.dataAt 1 = some (dataTok 5#512) ∧ (dataTok 5#512).payload ≠ 0#512 := by
  unfold Stands; decide +kernel

/-- The lowest set bit of 6 is bit 1; the rest is 4. -/
theorem witness_ScansAndMasks_lowest : (6#512).getLsbD 1 = true ∧ (∀ j, j < 1 → (6#512).getLsbD j = false) ∧
    ∀ j, j < 512 → (4#512).getLsbD j = ((6#512).getLsbD j && decide (j ≠ 1)) := by decide +kernel

theorem witness_ScansAndMasks_emit : ∀ l ∈ [6, 0],
    let b : ScanState := { scan0 with cur := some (BitVec.ofNat 512 l, true, none, 512) }
    let c := hdCtx (hdRec 1 3 0) [17, 17] [14] (.scan b) []
    Stands (hdState (hdRec 1 3 0) [17, 17] [14] (.scan b) []) 0 13 .hd 1 c ∧ c.room 0 = true := by
  unfold Stands; decide +kernel

/-- The pairs of one query and one key: an allowed, and a forbidden one. -/
def pairTok (q k : Nat) : Token := dataTok (packLanes 32 [q, q, k, k, 9])

theorem witness_ScansAndMasks_mclass : ∀ p ∈ [(5, 3, 2), (3, 5, 0)],
    let c := hdCtx (hdRec 3 1 0) [17] [17, 17] .none [(0, pairTok p.1 p.2.1)]
    Stands (hdState (hdRec 3 1 0) [17] [17, 17] .none [(0, pairTok p.1 p.2.1)]) 0 13 .hd 3 c ∧ c.copy = 0 ∧ c.hasCopy 0 = true ∧
    (c.agent 0).park = .running ∧ c.dataAt 0 = some (pairTok p.1 p.2.1) ∧ PairGood (pairTok p.1 p.2.1) ∧
    c.noTable = true ∧ c.room 0 = true ∧ c.room 1 = true ∧
    pairClass [] c.program (pairOf (pairTok p.1 p.2.1) 0) (pairOf (pairTok p.1 p.2.1) 1) (pairOf (pairTok p.1 p.2.1) 2)
      (pairOf (pairTok p.1 p.2.1) 3) = p.2.2 := by
  unfold Stands PairGood; decide +kernel

theorem witness_ScansAndMasks_pmask : ∀ p ∈ [(5, 3, 2), (3, 5, 0)], ∀ row ∈ [false, true],
    let v : PmaskState := { pair := if row then some (pairTok p.1 p.2.1) else none, cls := if row then some p.2.2 else none, row := 0 }
    let c := hdCtx (hdRec 4 1 0) [17] [17] (.pmask v) [(0, pairTok p.1 p.2.1)]
    Stands (hdState (hdRec 4 1 0) [17] [17] (.pmask v) [(0, pairTok p.1 p.2.1)]) 0 13 .hd 4 c ∧
    (c.agent 0).park = .running ∧ (c.agent 0).heldTok = none ∧ c.dataAt 0 = some (pairTok p.1 p.2.1) ∧
    PairGood (pairTok p.1 p.2.1) ∧ pairOf (pairTok p.1 p.2.1) 3 - pairOf (pairTok p.1 p.2.1) 2 ≤ 511 ∧
    pairOf (pairTok p.1 p.2.1) 1 - pairOf (pairTok p.1 p.2.1) 0 ≤ 1023 ∧ c.noTable = true ∧ c.room 0 = true ∧
    pairClass [] c.program (pairOf (pairTok p.1 p.2.1) 0) (pairOf (pairTok p.1 p.2.1) 1) (pairOf (pairTok p.1 p.2.1) 2)
      (pairOf (pairTok p.1 p.2.1) 3) = p.2.2 := by
  unfold Stands PairGood; decide +kernel

/-- A box of FULL and one of EMPTY class, under the program of one atom. -/
theorem witness_MaskClassesSound :
    (∀ a ∈ hdMasks.getD 0 [], 1 ≤ a.aop ∧ a.aop ≤ 6 ∧ (a.aop = 6 → 1 ≤ a.p)) ∧ pairClass [] (hdMasks.getD 0 []) 5 6 1 3 = 2 ∧
    pairClass [] (hdMasks.getD 0 []) 1 2 4 6 = 0 := by decide +kernel

/-! ## Witnesses: the owner, at site 14 -/

/-- An owner's record, its range of sixteen lines of the island in pool entry 0. -/
def owRec (opc mask : Nat) : Rec := elRec 14 opc mask 0 [0#32]
def owPool : List W32 := [1#32, 0#32, 0#32, 1024#32, 0#32, 0#32, 0#32, 0#32]
def owState (q : Rec) (ins outs : List Nat) (o : OwState) (l : List (Nat × Token)) : State :=
  dev (elRegion { elCfg q ins outs with pool := [owPool] } q (.ow o) l) (aCluster false)
def owCtx (q : Rec) (ins outs : List Nat) (o : OwState) (l : List (Nat × Token)) : Ctx :=
  elCtx { elCfg q ins outs with pool := [owPool] } q (.ow o) l

def ow0 : OwState := { toks := [], blk := 0, applying := false, skip := false, closing := none }

/-- An address and operands. -/
def owToks (n : Nat) : List Token := [dataTok 64#512, dataTok 3#512, dataTok 4#512].take n
def owHeads (n : Nat) : List (Nat × Token) := (owToks n).zipIdx.map (fun t => (t.2, t.1))

/-- The line at offset 64 of the range is the second granule of bank 8. -/
theorem witness_Owners_line : ∀ off ∈ [0, 64, 960],
    let c := owCtx (owRec 1 3) [0, 14] [14] ow0 (owHeads 2)
    let s := owState (owRec 1 3) [0, 14] [14] ow0 (owHeads 2)
    c.cluster s = some (1, aCluster false) ∧
    (∀ acc ∈ [Acc.read, Acc.write], (s.resolveIn (aCluster false) c.r (c.ownedAt off).1 (c.ownedAt off).2 acc).2 = .ok (.bank 8 off) false) ∧
    s.eccAt (.bank 8 off) = false ∧ (c.ownedAt off).1 = .island ∧ s.mem.wf = true ∧ (Place.bank 8 off).offset = 0 ∧
    OffsetGood c.range off := by
  unfold OffsetGood; decide +kernel

theorem witness_Owners_lines : ∀ p ∈ [(1, 2), (2, 2), (3, 2), (4, 2), (5, 2), (6, 2), (7, 2), (8, 3), (0xB, 1)],
    let q := owRec p.1 (2 ^ p.2 - 1)
    let c := owCtx q [0, 14, 14] [14] ow0 (owHeads p.2)
    OwnerReady (owState q [0, 14, 14] [14] ow0 (owHeads p.2)) 0 14 p.1 c (owToks p.2) ∧ (p.1 ≠ 0xB → inI (c.inTy 1) = true) ∧
    offsetOf (owToks p.2) = 64 ∧ OffsetGood c.range (offsetOf (owToks p.2)) := by
  unfold OwnerReady Stands OffsetGood; decide +kernel

/-- OINC: a token to take; a counter of the range; one outside it. -/
theorem witness_Owners_oinc : ∀ o ∈ [ow0, { ow0 with toks := [dataTok 3#512], applying := true },
      { ow0 with toks := [dataTok 256#512], applying := true }, { ow0 with toks := [dataTok 0xFFFFFFFF#512], applying := true }],
    let c := owCtx (owRec 9 1) [14] [17] o [(0, dataTok 3#512)]
    Stands (owState (owRec 9 1) [14] [17] o [(0, dataTok 3#512)]) 0 14 .ow 9 c ∧ c.owReady = true ∧
    owTurn (owState (owRec 9 1) [14] [17] o [(0, dataTok 3#512)]) c = true ∧
    c.dataAt 0 = some (dataTok 3#512) ∧ rangeExtent c.range / 4 = 256 ∧ c.inTy 0 = 14 := by
  unfold Stands; decide +kernel

/-- OMXACC: the address, a beat of the group, and a block of a whole group. -/
theorem witness_Owners_omxacc :
    ∀ o ∈ [ow0, { ow0 with toks := [dataTok 64#512] },
      { ow0 with toks := dataTok 64#512 :: List.replicate 33 (dataTok 0#512), applying := true }],
    let c := owCtx (owRec 10 3) [0, 9] [17] o [(0, dataTok 64#512), (1, dataTok 0#512)]
    Stands (owState (owRec 10 3) [0, 9] [17] o [(0, dataTok 64#512), (1, dataTok 0#512)]) 0 14 .ow 0xA c ∧ c.owReady = true ∧
    c.copies.all (fun k => (c.agent k).runs) = true ∧
    owTurn (owState (owRec 10 3) [0, 9] [17] o [(0, dataTok 64#512), (1, dataTok 0#512)]) c = true ∧ c.dataAt 0 = some (dataTok 64#512) ∧ c.dataAt 1 = some (dataTok 0#512) ∧
    groupBeats (c.inTy 1) = 32 := by
  unfold Stands; decide +kernel

theorem witness_Owners_omxacc_block :
    let c := owCtx (owRec 10 3) [0, 9] [17] ow0 []
    (accBlock c (List.replicate 64 0#8) 0#512 (List.replicate 32 0#512).toArray 0 (c.copyState (c.workCopy 1)).lfsr).1.length = 64 := by
  decide +kernel

theorem witness_Owners_completion :
    let o : OwState := { ow0 with closing := some 1 }
    let c := owCtx (owRec 9 1) [14] [17] o []
    ctxOf (owState (owRec 9 1) [14] [17] o []) 0 14 = some c ∧ c.recd.kind = .ow ∧ c.room 0 = true ∧
    (c.emit 0 (dataTok 0#512)).roomAll = true ∧ c.recd.copies = 1 := by
  decide +kernel

/-! ## Witnesses: the bridge, at site 15 -/

/-- A bridge record, its remote range of sixteen lines at virtual address 0 in pool entry 0. -/
def brRec (opc mask : Nat) (e0 : W32) : Rec := elRec 15 opc mask 0 [e0]
def brPool : List W32 := [4#32, 0#32, 0#32, 1024#32, 0#32, 0#32, 0#32, 0#32]
def brCfg (q : Rec) (ins outs : List Nat) : Cfg := { elCfg q ins outs with pool := [brPool] }
def brState (q : Rec) (ins outs : List Nat) (op : OpState) (l : List (Nat × Token)) : State :=
  paged (dev (elRegion (brCfg q ins outs) q op l) (aCluster false)) 0x70007 []
def brCtx (q : Rec) (ins outs : List Nat) (op : OpState) (l : List (Nat × Token)) : Ctx := elCtx (brCfg q ins outs) q op l

/-- The virtual address 64 is ordinary memory that may be read and written. -/
theorem witness_BridgeElements_page : ∀ kind ∈ [AccKind.load, .store, .atom],
    ((brState (brRec 3 1 0#32) [0] [14] (.br []) []).resolveIn (aCluster false) 0 .virt 64 kind.acc).2 = .ok (.hbm 0x70040) false := by
  decide +kernel

theorem witness_BridgeElements_rload :
    let c := brCtx (brRec 3 1 0#32) [0] [14] (.br []) [(0, dataTok 64#512)]
    let s := brState (brRec 3 1 0#32) [0] [14] (.br []) [(0, dataTok 64#512)]
    Stands s 0 15 .br 3 c ∧ (c.agent 0).park = .running ∧ (c.agent 0).resp = [] ∧ (c.agent 0).beats < 16 ∧
    c.dataAt 0 = some (dataTok 64#512) ∧ OffsetGood c.remote (addressOf (dataTok 64#512)) ∧ c.mayIssue s = true ∧
    c.cluster s = some (1, aCluster false) := by
  unfold Stands OffsetGood; decide +kernel

theorem witness_BridgeElements_rstore :
    let c := brCtx (brRec 4 3 0#32) [0, 14] [17] (.ow ow0) [(0, dataTok 64#512), (1, dataTok 5#512)]
    let s := brState (brRec 4 3 0#32) [0, 14] [17] (.ow ow0) [(0, dataTok 64#512), (1, dataTok 5#512)]
    Stands s 0 15 .br 4 c ∧ (c.agent 0).park = .running ∧ (c.agent 0).heldTok = none ∧ c.ow.applying = false ∧
    c.ow.closing = none ∧ c.dataAt 0 = some (dataTok 64#512) ∧ c.dataAt 1 = some (dataTok 5#512) ∧
    OffsetGood c.remote (addressOf (dataTok 64#512)) ∧ (c.agent 0).outst.length < 16 ∧ c.mayIssue s = true := by
  unfold Stands OffsetGood; decide +kernel

theorem witness_BridgeElements_ratom :
    let c := brCtx (brRec 5 3 0x140#32) [0, 14] [14] (.br []) [(0, dataTok 64#512), (1, dataTok 5#512)]
    let s := brState (brRec 5 3 0x140#32) [0, 14] [14] (.br []) [(0, dataTok 64#512), (1, dataTok 5#512)]
    Stands s 0 15 .br 5 c ∧ (c.agent 0).park = .running ∧ (c.agent 0).resp = [] ∧ (c.agent 0).beats < 16 ∧
    c.ports.map c.dataAt = [dataTok 64#512, dataTok 5#512].map some ∧ 64 % c.atomBytes = 0 ∧ c.inFlight s = 0 := by
  unfold Stands; decide +kernel

theorem witness_BridgeElements_eresp : ∀ i ∈ [BrItem.answer 5#512, .tok (dataTok 5#512)],
    let c := brCtx (brRec 2 0 0#32) [] [17] (.br [i]) []
    Stands (brState (brRec 2 0 0#32) [] [17] (.br [i]) []) 0 15 .br 2 c ∧ c.room 0 = true := by
  unfold Stands; decide +kernel

/-- EREQ with a block of a copy between virtual addresses, and its ERESP at the next memory tile's bridge. -/
def ereqBlock : Token := dataTok (BitVec.ofNat 512 (leNat copyBlock))
def ereqCfg : Cfg :=
  { elCfg (brRec 1 1 0#32) [0] [] with recs := [brRec 1 1 0#32, { brRec 2 0 0#32 with site := 31 }] }
def ereqRegion : Region :=
  let x := elRegion ereqCfg (brRec 1 1 0#32) (.br []) [(0, ereqBlock)]
  { x with sites := x.sites ++ [(31, elSite { brRec 2 0 0#32 with site := 31 } (.br []))] }

theorem witness_BridgeElements_ereq :
    let s := dev ereqRegion (aCluster false)
    let c : Ctx := { r := 0, x := ereqRegion, site := 15, st := elSite (brRec 1 1 0#32) (.br []), recd := brRec 1 1 0#32,
                     cfg := ereqCfg, cseq := 1, cfgid := 7 }
    Stands s 0 15 .br 1 c ∧ c.partner = some 31 ∧ c.dataAt 0 = some ereqBlock ∧ (c.agent 0).park = .running ∧
    c.cluster s = some (1, aCluster false) ∧ blockFails (engineClass (c.recd.e 0 % 32)) false (leBytes 64 ereqBlock.payload.toNat) = false ∧
    c.recd.e 0 % 32 < 20 ∧ (s.queueOf (c.recd.e 0 % 32)).length < 64 ∧ awaited (c.x.site 31).items < 16 := by
  unfold Stands; decide +kernel

/-! ## Witnesses: start-up, links and power -/

/-- Firmware of no bytes with a key under which a signature of small scalars is good. -/
def signedFlash : Flash :=
  { image := []
    keyX := 0xCDBCCF13CCF5FB909E739D65EA65D8D9D13303659633FC4273A77B839EF89C3DD9201FB25CBDA82C0B941E9A32BCC210#384
    keyY := 0xB689D6808008568E95EFA34512BA63143989EC170C5785A3AF2B40BE0B15851614F91735AC4CABFF18A0F7836C9F7D28#384
    sigR := 0xCE2C1829D46B258E13364C9FAC6C78DA887F6DC4452F81D0A88DAC1150271ADE0BE741F5B060571B26F7C7CC6BBA0D6D#384
    sigS := 0xCE2C1829D46B258E13364C9FAC6C78DA887F6DC4452F81D0A88DAC1150271ADE0BE741F5B060571B26F7C7CC6BBA0D6D#384 }

theorem witness_PowerAndLinks_signature :
    ecdsaVerify signedFlash.keyX.toNat signedFlash.keyY.toNat signedFlash.sigR.toNat signedFlash.sigS.toNat
      (sha384 signedFlash.image) = true := by decide +kernel

/-- With that key fused, the firmware is genuine; with no signature it never is. -/
theorem witness_PowerAndLinks_on
    (h : vec384 (sha384 (pointBytes (some (signedFlash.keyX.toNat, signedFlash.keyY.toNat)))) = Config.firmwareKeyHash) :
    { State.reset with flash := signedFlash }.power = .off ∧ { State.reset with flash := signedFlash }.flash.genuine = true :=
  ⟨rfl, by simp only [Flash.genuine, h, witness_PowerAndLinks_signature, BEq.rfl, Bool.and_self]⟩

theorem witness_PowerAndLinks_unsigned :
    State.reset.power = .off ∧ { State.reset.flash with sigR := 0#384 }.genuine = false := by
  refine ⟨rfl, ?_⟩
  simp only [Flash.genuine, ecdsaVerify, BitVec.toNat_zero, true_or, if_true, Bool.and_false]

/-- A peer that offers twice the base point as its fresh key, with an identity key under which a signature of small scalars on it
is good (found outside by key recovery); and one that does not sign. -/
def aPeer : LotarPeer :=
  { member := 5, beyond := [7], cred := 2
    keyX := 0x38B7D615B9169B837FB9BFBF70BE7ED3C0CE46B777F90B2AC7E968E91657CE214F874B7E9BCB1187DA021BCD295EA71C#384
    keyY := 0xE618DAEA76C7CFC3F4421B92EEFDB493A864F65937F6BEC60992677DF1461EC9C4D56C372A57CE746F80B3767EE55BD5#384
    freshX := 0x08D999057BA3D2D969260045C55B97F089025959A6F434D651D207D19FB96E9E4FE0E86EBE0E64F85B96A9C75295DF61#384
    freshY := 0x8E80F1FA5B1B3CEDB7BFE8DFFD6DBA74B275D875BC6CC43E904E505F256AB4255FFD43E94D39E22D61501E700A940E80#384
    sigR := 0x728F0B1F7C8F999347DCA33C1964CF745779012692830EDC267075562DC31278439732D095AD7C6363EB54EB284BC8E4#384
    sigS := 0x728F0B1F7C8F999347DCA33C1964CF745779012692830EDC267075562DC31278439732D095AD7C6363EB54EB284BC8E4#384 }
def badPeer : LotarPeer := { aPeer with sigR := 0#384 }

def aLink : Link :=
  { trained := true, member := 5, beyond := [], keyHash := 7#384, offered := [], keyOut := 0#256, keyIn := 0#256, ivOut := 0#96, ivIn := 0#96 }

/-- A device with a trained link to member 5, a budget, and a give that waits for its answer, or none. -/
def linked (giving : Option (Nat × Nat)) (budget : Nat) : State :=
  let s := dev (aRegion (aCore .graph)) (aCluster true)
  { s with sec := { s.sec with links := [(3, aLink)] }, pow := { s.pow with giving := giving }, mcr := { s.mcr with budget := budget } }

theorem witness_PowerAndLinks_peer : peerGood aPeer = true ∧ peerGood badPeer = false := by decide +kernel

theorem witness_PowerAndLinks_train : (35 < 36) ∧ (linked none 500).mcr.budget ≤ 560 ∧
    (linked none 500).sec.links.Pairwise (fun a b => a.1 < b.1) ∧ Table.find? (linked none 500).sec.links 3 = some aLink ∧
    aLink.trained = true ∧ Table.find? { linked none 500 with lotar := [(3, aPeer)] }.lotar 3 = some aPeer ∧
    (linked none 500).pow.giving = none := by decide +kernel

theorem witness_PowerAndLinks_peers : (3, aPeer) ∈ [(3, aPeer), (35, badPeer)] ∧ [(3, aPeer), (35, badPeer)].length ≤ 36 ∧
    [(3, aPeer), (35, badPeer)].Pairwise (fun a b => a.1 ≠ b.1) := by decide +kernel

theorem witness_PowerAndLinks_mc : (linked none 500).mc.run ≠ .stopped ∧
    { linked none 500 with mc := { (linked none 500).mc with run := .stopped } }.mc.run = .stopped := by decide +kernel

theorem witness_PowerAndLinks_lost : ∀ g ∈ [none, some (5, 10)],
    Table.find? (linked g 500).sec.links 3 = some aLink ∧ aLink.trained = true ∧ (linked g 500).pow.giving = g ∧
    (linked g 500).mem.wf = true ∧ (linked g 500).sec.links.Pairwise (fun a b => a.1 < b.1) ∧
    aLink.leadsTo 5 = true ∧ (∀ l, l ∈ (linked g 500).sec.links → l.1 = 3) := by decide +kernel

theorem witness_PowerAndLinks_down : ∀ e ∈ (linked none 500).disp.sems, e.2.waiters = [] := by decide +kernel

/-- GREQ names a member, a count and GO. -/
def asks (member count budget : Nat) : State :=
  let s := linked none budget
  { s with mem := { s.mem with sram := Memory.writeAll [] 0x1FFB10 (leBytes 8 (1 + 2 * count + 2048 * member)) } }

/-- A give that is sent, a bad one, one that the budget does not allow, and one to a member without a link. -/
theorem witness_EnergyExchange_give : ∀ p ∈ [(5, 100, 500), (5, 0, 500), (5, 100, 100), (6, 100, 500)],
    let s := asks p.1 p.2.1 p.2.2
    let g := s.sramNat 0x1FFB10 8
    g % 2 = 1 ∧ s.pow.giving = none ∧ s.mem.wf = true ∧ g / 2 ^ 21 = 0 ∧ g / 2 % 1024 = p.2.1 ∧ g / 2048 % 1024 = p.1 ∧
    s.reachable 5 = true ∧ s.reachable 6 = false ∧ s.member ≠ 5 ∧ s.member ≠ 6 ∧ s.mcr.budget = p.2.2 := by
  decide +kernel

theorem witness_EnergyExchange_receive : (linked none 500).mcr.budget + 60 ≤ 560 ∧ 560 < (linked none 500).mcr.budget + 61 := by
  decide +kernel

theorem witness_EnergyExchange_answer : (linked (some (5, 10)) 560).pow.giving = some (5, 10) ∧
    (linked (some (5, 10)) 560).mem.wf = true ∧ (linked (some (5, 10)) 560).mcr.budget ≤ 560 := by decide +kernel

/-- A valid pacing descriptor 0 of tag 9 whose SET holds members 0 and 5, and one without V. -/
def pacedBytes (v : Nat) : List Byte :=
  leBytes 1 v ++ leBytes 1 3 ++ leBytes 1 1 ++ leBytes 1 0 ++ leBytes 2 5 ++ leBytes 2 9 ++ leBytes 24 0 ++ leBytes 72 33
def paced (v : Nat) : State :=
  let s := linked none 500
  { s with mem := { s.mem with sram := Memory.writeAll [] 0x1FF000 (pacedBytes v) } }

theorem witness_EnergyExchange_phase : (paced 1).mem.wf = true ∧ (paced 1).member = 0 ∧
    (paced 1).paceLive.find? (fun k => (paced 1).paceTag k == 9 && ((paced 1).paceSet k).contains 5) = some 0 := by decide +kernel

theorem witness_EnergyExchange_valid : (paced 0).mem.wf = true ∧ (paced 0).sramNat (paceAt 0) 1 % 2 = 0 := by decide +kernel

theorem witness_SensorSweeps : (linked none 500).mem.wf = true := by decide +kernel

/-- Region 0 with a signature, a droop table of one entry and a hold on it, and its first meter in an emergency or not. -/
def drooped (sig hold ticks : Nat) (quiet : BitVec 6) : State :=
  let x := { aRegion (aCore .graph) with
    sig := BitVec.ofNat 32 sig
    droop := [(0, { hits := 0#8, valid := true, quiet := quiet, hold := 16#8, step := 4#4, sig := 1#32 })]
    hold := some { entry := 0, ticks := hold, drooped := false } }
  let s := dev x (aCluster true)
  s.setMeter 0 { s.meter 0 with emergency := 12#4, emergencyTicks := ticks, admitting := 2000 }

/-- A signature of zero, one that the table does not hold, and one that it holds at entry 0. -/
theorem witness_DroopsAndTicks_droop :
    ((drooped 0 0 0 0#6).region 0).sig = 0#32 ∧
    (((drooped 2 0 0 0#6).region 0).sig ≠ 0#32 ∧ ∀ i, i < 32 →
      (Table.get ((drooped 2 0 0 0#6).region 0).droop i DroopEntry.empty).valid = true →
      (Table.get ((drooped 2 0 0 0#6).region 0).droop i DroopEntry.empty).sig ≠ ((drooped 2 0 0 0#6).region 0).sig) ∧
    ((drooped 1 0 0 0#6).region 0).sig ≠ 0#32 ∧
    (Table.get ((drooped 1 0 0 0#6).region 0).droop 0 DroopEntry.empty).valid = true ∧
    (Table.get ((drooped 1 0 0 0#6).region 0).droop 0 DroopEntry.empty).sig = ((drooped 1 0 0 0#6).region 0).sig := by decide +kernel

theorem witness_DroopsAndTicks_expire : ((drooped 1 0 0 0#6).meter 0).emergencyTicks = 0 ∧
    ((drooped 1 0 3 0#6).meter 0).emergencyTicks ≠ 0 ∧
    ∀ quiet ∈ [30, 31], ((drooped 1 0 0 (BitVec.ofNat 6 quiet)).region 0).hold = some { entry := 0, ticks := 0, drooped := false } ∧
      (Table.get ((drooped 1 0 0 (BitVec.ofNat 6 quiet)).region 0).droop 0 DroopEntry.empty).quiet.toNat = quiet := by decide +kernel

/-- A tick in which quadrant 0 of region 0 jumps, so that the signature becomes 1, which the table holds. -/
def aTick : RegionTick := { region := 0, replays := #v[3, 0, 0, 0], nanojoules := 5 }

theorem witness_DroopsAndTicks_tick :
    [aTick].find? (fun e => e.region == 0) = some aTick ∧ (drooped 0 0 0 0#6).clusterOf 0 = some 1 ∧
    (drooped 0 0 0 0#6).cluster? 1 = some (aCluster true) ∧
    (match execTickEnd [aTick] (drooped 0 0 0 0#6) with
      | .next t => (t.region 0).sig
      | _ => 0#32) = 1#32 ∧
    (Table.get ((drooped 0 0 0 0#6).region 0).droop 0 DroopEntry.empty).sig = 1#32 := by decide +kernel

/-- Sixty-three and sixty-four replays of a quadrant, at a signature that no entry holds and at the one that entry 0 holds; the
energy of a cluster that runs, and of one whose abort record has not been written. -/
theorem witness_DroopsAndTicks_replays : ∀ n ∈ [63, 64], ∀ sig ∈ [1, 2],
    let y : RegionTick := { region := 0, replays := #v[0, 0, 0, n], nanojoules := 5 }
    let x := (drooped sig 0 0 0#6).region 0
    [y].find? (fun e => e.region == 0) = some y ∧ y.replays.toList.getD 3 0 = n ∧ y.region < 128 ∧
    (Table.get x.droop 0 DroopEntry.empty).valid = true ∧
    (match execTickEnd [y] (drooped sig 0 0 0#6) with
      | .next t => (t.region 0).sig
      | _ => 0#32) = BitVec.ofNat 32 (16 * sig + 1) ∧
    (aCluster true).abort.any Abort.written = false := by decide +kernel

/-- A suspect sensor before its 64th sweep without a failure, and one whose reading has stood for 64 sweeps. -/
theorem witness_SensorSweeps_tests : ∀ p ∈ [(63, 63, true), (64, 62, false)],
    let x : Sensor := { Sensor.init with stuckn := p.1, suspect := p.2.2, cleann := p.2.1 }
    let s := { linked none 500 with pow := { (linked none 500).pow with sensors := [(3, x)] } }
    s.mem.wf = true ∧ (s.sensor 3).stuckn = p.1 ∧ (s.sensor 3).suspect = p.2.2 ∧ (s.sensor 3).cleann = p.2.1 := by decide +kernel

/-! ## Witnesses: launching, placement and the ends of clusters -/

/-- Caravan 3 in a state, with a record and a header at hand. -/
def aCaravan (st : CarState) (l : Option LaunchRec) (h : Option Header) : Caravan :=
  { Caravan.init with state := st, asid := 5, head := 0x1000#64, recd := l, header := h }
def carState (x : Caravan) (reads : List Read) : State :=
  let s := paged (dev (aRegion (aCore .graph)) (aCluster true)) 0x70007 []
  { s with disp := { s.disp with caravans := [(3, x)], clusters := [] }, regions := [], ports := { s.ports with reads := reads } }

/-- The head of caravan 3: a record of address space `asid` in two FULL granules, both read. -/
def headState (asid : Nat) : State :=
  let s := carState (aCaravan .waiting none none)
    [{ reader := .carHead 3, place := .hbm 0x71000, virt := none, asid := 5, answer := some (.filled 0#512 false) },
     { reader := .carHead 3, place := .hbm 0x71040, virt := none, asid := 5, answer := some (.filled 0#512 false) }]
  { s with mem := { s.mem with gstHbm := [(0x71000 / 64, .full), (0x71040 / 64, .full)], hbm := [(0x71018, BitVec.ofNat 8 asid)] } }
def headRecord (asid : Nat) : LaunchRec := recordOf ((List.replicate 128 0#8).set 24 (BitVec.ofNat 8 asid))

/-- A good record, and one of another address space. -/
theorem witness_LaunchRecords_head : ∀ p ∈ [(5, none), (6, some 2)],
    let s := headState p.1
    (s.caravan 3).state = .waiting ∧
    (s.readsOf (.carHead 3)).map (fun r => (r.place, r.answer.isSome)) = [(.hbm 0x71000, true), (.hbm 0x71040, true)] ∧
    s.mem.gst (.hbm 0x71000) = .full ∧ s.mem.gst (.hbm 0x71040) = .full ∧ s.mem.mark (.hbm 0x71000) = false ∧
    headRecord p.1 = recordOf (s.loadBytes (s.caravan 3).asid (.hbm 0x71000) 64 ++ s.loadBytes (s.caravan 3).asid (.hbm 0x71040) 64) ∧
    recordFault 3 (s.caravan 3) (headRecord p.1) false = p.2 ∧ (headRecord p.1).next = 0#64 ∧
    (headRecord p.1).depList = [] := by decide +kernel

theorem witness_LaunchRecords_asid : (headRecord 6).asidField.toNat ≠ ((headState 6).caravan 3).asid := by decide +kernel

/-- A record that waits for a dependence: filled, not answered, and voided. -/
theorem witness_LaunchRecords_dependence : ∀ a ∈ [some (Answer.filled 0#512 false), none, some .voided],
    let s := carState (aCaravan .depwait (some (aRec true)) none) [{ reader := .dep 3, place := .hbm 0x71000, virt := none, asid := 5, answer := a }]
    (s.caravan 3).state = .depwait ∧ (s.caravan 3).recd = some (aRec true) ∧
    (s.readsOf (.dep 3)).map Read.answer = [a] ∧ (aRec true).next = 0#64 := by decide +kernel

/-- An image of a header alone, its digest as given. -/
def imageBytes (digest : List Byte) : List Byte :=
  leBytes 4 0x4C425247 ++ leBytes 2 1 ++ leBytes 26 0 ++ leBytes 8 128 ++ leBytes 8 0 ++ digest ++ leBytes 32 0
def goodImage : List Byte :=
  imageBytes (beBytes 48
    0x1AAF4887AE5CFA5AD0911FE4D23310A574DBA17D5FA5E5F9A0F3719FA2988402729A6E667747647DA23702F2F281073F)

def measureState (img : List Byte) : State :=
  let s := carState (aCaravan .ready (some { aRec true with image := 0#64 }) none) []
  { s with mem := { s.mem with hbm := Memory.writeAll s.mem.hbm 0x70000 img } }

theorem witness_LaunchRecords_measure : ∀ p ∈ [(true, goodImage), (false, imageBytes (List.replicate 48 1#8))],
    let s := measureState p.2
    let b := s.asGranules (.measure 3) 5 2 0 []
    let c := b.1.asGranules (.measure 3) 5 2 0 []
    (s.caravan 3).state = .ready ∧ (s.caravan 3).recd = some { aRec true with image := 0#64 } ∧ (s.caravan 3).header = none ∧
    b.2 = .ok p.2 ∧ headerBad p.2 = false ∧ ((headerOf p.2).imageLen.toNat + 63) / 64 = 2 ∧ c.2 = .ok p.2 ∧
    (headerOf p.2).imageLen.toNat = 128 ∧ (p.1 = true ↔ imageDigest (p.2.take 128) = (headerOf p.2).digest) := by decide +kernel

/-- A ready head that fits, and one that asks for more banks than it can have. -/
def roundState (part : Nat) : State :=
  carState (aCaravan .ready (some { aRec true with part := BitVec.ofNat 16 part }) (some aHeader)) []

theorem witness_ArbitrationPlaces_heads :
    (roundState 4).headOf? 3 = some (.fresh { aRec true with part := 4#16 } aHeader) ∧
    (∀ m, m < 192 → m ≠ 3 → (roundState 4).headOf? m = none) ∧ (aRec true).prio.toNat < 8 ∧ (aRec true).next = 0#64 := by
  decide +kernel

theorem witness_ArbitrationPlaces_fits :
    ((roundState 4).fitHead 3 (.fresh { aRec true with part := 4#16 } aHeader) [] []).isSome = true := by decide +kernel

/-- The address space of the head, whose log holds the image or not. -/
theorem witness_ArbitrationPlaces_logged : (roundState 4).aspace? ((roundState 4).caravan 3).asid = some aSpace ∧
    aSpace.logged.contains aHeader.digest = false ∧
    { aSpace with logged := [aHeader.digest] }.logged.contains aHeader.digest = true := by decide +kernel

theorem witness_ArbitrationPlaces_none :
    (roundState 0x7FF).fitHead 3 (.fresh { aRec true with part := 0x7FF#16 } aHeader) [] [] = none ∧
    (aRec true).preempts = false ∧ ∀ k ∈ (roundState 0x7FF).disp.clusters, k.2.abort = none := by decide +kernel

/-- A cluster whose region has halted and retired everything. -/
theorem witness_ClusterLife_complete :
    let s := dev (aRegion { aCore .graph with run := .halted }) (aCluster true)
    s.cluster? 1 = some (aCluster true) ∧ s.canComplete 1 (aCluster true) = true := by decide +kernel

/-- A fatal fault of cluster 1, which runs or has aborted. -/
def fatalState (a : Option Abort) : State :=
  let s := dev (aRegion (aCore .graph)) { aCluster true with abort := a }
  { s with disp := { s.disp with fatal := [{ cluster := 1, cls := 0x10#8, region := 0, site := 511 }] } }
def anAbort : Abort := { cls := 0x10#8, region := 0, site := 511, cidx := 0, counts := Counts.zero, written := true }

theorem witness_ClusterLife_abort : ∀ a ∈ [none, some anAbort],
    let s := fatalState a
    s.disp.fatal = [{ cluster := 1, cls := 0x10#8, region := 0, site := 511 }] ∧ s.disp.saved = [] ∧
    s.cluster? 1 = some { aCluster true with abort := a } ∧ s.noCommands 1 = true := by decide +kernel

/-- A source at which COMMA has been delivered. -/
def commaRegion : Region :=
  let q := permitRec
  let x := elRegion (elCfg q [] [17]) q (.permit 0 false) []
  { x with sites := [(1, { elSite q (.permit 0 false) with deliv := [(1, { dataTok 0#512 with kind := .comma })] })] }

theorem witness_ClusterLife_freeze :
    (commaRegion.site 1).active = some { cseq := 1, cfgid := 7, recd := some permitRec, copy := 0 } ∧
    (commaRegion.site 1).frozen = false ∧ permitRec.site = 1 ∧ commaRegion.sites.Pairwise (fun a b => a.1 < b.1) ∧
    commaRegion.commaAt 1 = true ∧
    (dev commaRegion (aCluster true)).region 0 = commaRegion := by decide +kernel

/-- A cluster frozen for a checkpoint, and for a pre-emption. -/
theorem witness_ClusterLife_snapshot : ∀ p ∈ [none, some 4],
    let k : Cluster := { aCluster true with snap := some { preempt := p, number := 1#32 } }
    let s := dev (aRegion { aCore .graph with run := .frozen }) k
    s.cluster? 1 = some k ∧ s.mem.wf = true ∧ (s.quiesce k).snapReady 1 k = true ∧ (s.region 0).core.run = .frozen := by
  decide +kernel

/-! ## Witnesses: configurations and control tokens -/

/-- Region 0 with LIVE instances 1 and 2, whose site 2 stands as given. -/
def liveRegion (one two : Cfg) (st : Site) : Region :=
  { aRegion (aCore .graph) with
    cache := [anEntry .live 7 1 one, anEntry .live 8 2 two], nextCseq := 3, sites := [(2, st)] }

/-- The second instance names the site, or leaves it empty, and the site runs the first one's record or its empty record. -/
theorem witness_ConfigurationEvents_load : ∀ q ∈ [none, some (veRec 1 2)],
    let st : Site := { elSite (veRec 1 2) .none with active := some { cseq := 1, cfgid := 7, recd := q, copy := 0 } }
    let x := liveRegion (emptyCfg 7) (veCfg 1 2 1) st
    let y := liveRegion (veCfg 1 2 1) (emptyCfg 8) st
    ((dev x (aCluster true)).moves 0 = true ∧ (x.site 2).next = none ∧ (x.site 2).frozen = false ∧
     x.committed.find? (fun y => decide (x.adopted 2 < y.cseq)) = some (anEntry .live 8 2 (veCfg 1 2 1)) ∧
     (veCfg 1 2 1).recAt 2 = some (veRec 1 2, 0)) ∧
    ((dev y (aCluster true)).moves 0 = true ∧ (y.site 2).next = none ∧ (y.site 2).frozen = false ∧
     y.committed.find? (fun e => decide (y.adopted 2 < e.cseq)) = some (anEntry .live 8 2 (emptyCfg 8)) ∧
     (emptyCfg 8).recAt 2 = none) := by decide +kernel

/-- An image in memory, good or with its first word wrong, that the region is asked to fetch. -/
def fetchState (first : Nat) (x : Region) : State :=
  paged (dev x imageCluster) 0x70007
    [(0x40, leBytes 8 1 ++ leBytes 8 0x80), (0x80, leBytes 4 first ++ (axpyWords.drop 1).flatMap (fun w => leBytes 4 w.toNat))]

def imageKind : ImageRes → Nat
  | .ok _ _ => 1
  | .rejected _ => 2
  | .missing => 3
  | _ => 0

/-- A fetch that succeeds, one whose image is rejected, and one of an identifier that no image has. -/
theorem witness_ConfigurationEvents_fetch : ∀ p ∈ [(1, 1, 1), (0x10001, 1, 2), (1, 9, 3)], ∀ pred ∈ [false, true],
    let x : Region := { aRegion (aCore .graph) with prefetch := if pred then [] else [p.2.1], predReady := pred }
    let s := fetchState p.1 x
    let s0 := s.mapRegion 0 (fun x => if pred then { x with predReady := false } else { x with prefetch := [] })
    (s.region 0).prefetch = (if pred then [] else [p.2.1]) ∧ (s.region 0).predReady = pred ∧ s.moves 0 = true ∧ s.clusterOf 0 = some 1 ∧
    s.cluster? 1 = some imageCluster ∧ (s.region 0).wantsFetch p.2.1 = true ∧ (s.region 0).cache.length < 8 ∧
    imageKind (s0.fetchImage (.core (.seq 0)) 1 imageCluster 0 p.2.1).2 = p.2.2 := by decide +kernel

/-- A site that runs nothing, its next record loaded. -/
theorem witness_ConfigurationEvents_adopt_idle :
    let n : Loaded := { cseq := 2, cfgid := 8, recd := some (veRec 1 2), copy := 0 }
    let x := liveRegion (emptyCfg 7) (veCfg 1 2 1) { Site.init with next := some n }
    (dev x (aCluster true)).runs 0 = true ∧ (x.site 2).frozen = false ∧ (x.site 2).busy = false ∧ (x.site 2).next = some n ∧
    x.held 2 = some (anEntry .live 8 2 (veCfg 1 2 1)) := by decide +kernel

/-- An element with SWITCHOVER at each port, its next record loaded. -/
theorem witness_ConfigurationEvents_adopt :
    let n : Loaded := { cseq := 2, cfgid := 8, recd := none, copy := 0 }
    let st : Site := { elSite (veRec 1 2) .none with next := some n }
    let x : Region := { liveRegion (veCfg 1 2 1) (emptyCfg 8) st with arcs := headArcs [(0, switchTok 8), (1, switchTok 8)] }
    let c : Ctx := { r := 0, x := x, site := 2, st := st, recd := veRec 1 2, cfg := veCfg 1 2 1, cseq := 1, cfgid := 7 }
    ctxOf (dev x (aCluster true)) 0 2 = some c ∧ c.recd.inMask ≠ 0 ∧ c.recd.copies = 1 ∧ elementOwes c = false ∧ c.roomAll = true ∧
    c.ports.map c.head = [switchTok 8, switchTok 8].map some ∧ (switchTok 8).kind = .switchover ∧ c.st.next = some n ∧
    c.x.held 2 = some (anEntry .live 8 2 (emptyCfg 8)) ∧ veDiscards c = 0 := by decide +kernel

/-- STOP or MODE at both ports, STOPs of two depths, and DATA before one of them. -/
theorem witness_ControlTokens_stop : ∀ p ∈ [(stopTok 1, stopTok 1), (stopTok 1, stopTok 0), (stopTok 1, dataTok 3#512),
      (modeTok 2#8, modeTok 2#8), (modeTok 2#8, dataTok 3#512)],
    let c := elCtx (veCfg 1 2 1) (veRec 1 2) .none [(0, p.1), (1, p.2)]
    ctxOf (elState (veCfg 1 2 1) (veRec 1 2) .none [(0, p.1), (1, p.2)]) 0 2 = some c ∧ c.recd.kind = .ve ∧ c.recd.opc < 0x30 ∧
    c.st.op = .none ∧ c.whole = true ∧ c.ports.map c.head = [p.1, p.2].map some ∧ c.roomAll = true := by decide +kernel

/-- SWITCHOVER at port 1, another token at port 0. -/
theorem witness_ControlTokens_switchover : ∀ t ∈ [dataTok 3#512, stopTok 0, modeTok 0#8],
    let c := elCtx (veCfg 1 2 1) (veRec 1 2) .none [(0, t), (1, switchTok 8)]
    ctxOf (elState (veCfg 1 2 1) (veRec 1 2) .none [(0, t), (1, switchTok 8)]) 0 2 = some c ∧ c.head 0 = some t ∧
    t.kind ≠ .switchover ∧ 1 ∈ c.ports ∧ c.headKind 1 = some .switchover := by decide +kernel

/-- Tokens at the arc that ends at the sequencer's port 15. -/
def exitCfg : Cfg := { elCfg exitRec [17] [] with arcs := [inArcWord 1 17 0, outArcWord 1 17 15] }
theorem witness_ControlTokens_exit : ∀ t ∈ [dataTok 3#512, stopTok 0, modeTok 0#8, switchTok 8], ∀ st ∈ [ExitState.unsent, .arrived 3, .taken, .swept],
    let e := { anEntry .live 7 1 exitCfg with exitSt := st }
    let x : Region := { aRegion (aCore .graph) with cache := [e], nextCseq := 2, arcs := headArcs [(1, t)] }
    (dev x (aCluster true)).moves 0 = true ∧ x.portAt 15 = some (1, 1) ∧ x.portHead 15 = some t ∧ x.held 1 = some e := by decide +kernel

/-- The oldest instance of a program that has ended. -/
theorem witness_ControlTokens_retire :
    let e := { anEntry .live 7 1 (emptyCfg 7) with exitSt := .taken }
    let x : Region := { aRegion { aCore .graph with run := .halted } with cache := [e], nextCseq := 2 }
    let s := dev x (aCluster true)
    (s.region 0).committed.head? = some e ∧ s.clusterOf 0 = some 1 ∧ s.cluster? 1 = some (aCluster true) ∧
    s.runs 0 = true ∧ (aCluster true).snap = none ∧ canRetire s 0 e = true := by decide +kernel

/-- Tile 1 under the first instance, and an instance LIVE after it that every site of the tile has adopted. -/
theorem witness_ControlTokens_stores :
    let st : Site := { Site.init with active := some { cseq := 1, cfgid := 7, recd := none, copy := 0 } }
    let x : Region := { aRegion (aCore .graph) with
      cache := [anEntry .live 7 1 (emptyCfg 7)], nextCseq := 2, sites := (List.range 8).map (fun i => (8 + i, st)) }
    let s := dev x (aCluster true)
    x.cluster = some 1 ∧ s.cluster? 1 = some (aCluster true) ∧ s.moves 0 = true ∧
    x.liveEntries.find? (fun y => decide ((x.tileStore 1).cseq < y.cseq)) = some (anEntry .live 7 1 (emptyCfg 7)) ∧
    (∀ i, i < 8 → 1 ≤ x.adopted (8 * 1 + i)) ∧ x.namedByOlder 0 0 1 1 = false := by decide +kernel

/-! ## Witnesses: accesses at their ports, and the engines -/

/-- An access of an element of site `site` at a place of bank 8. -/
def anAccess (site : Nat) (kind : AccKind) (sa : Bool) (p : Place) : Access :=
  { region := 0, site := site, id := 4, kind := kind, space := .island, addr := 64, data := 5#512, j := [1, 0, 0, 0, 0],
    place := some p, sa := sa, page := none, asid := 5, cluster := 1 }

/-- An element with one access at its port, its agent as given. -/
def pendState (q : Rec) (op : OpState) (sa : Bool) (kind : AccKind) (p : Place) (gst : Table Gst) (g : Agent) : State :=
  let s := dev (elRegion { elCfg q [14] [14] with pool := [agPool 0#32] } q op []) (aCluster sa)
  let t := withAgent s g
  { withGst t gst with ports := { t.ports with pend := [anAccess q.site kind sa p] } }
def pendCtx (q : Rec) (op : OpState) (g : Agent) : Ctx :=
  ctxAgent (elCtx { elCfg q [14] [14] with pool := [agPool 0#32] } q op []) g

def waiting4 : Agent := { Agent.init with resp := [.load 4 false none], outst := [4], nextId := 5 }

/-- A load, a store, a clear and an atomic, where memory is ordinary and where it is single-assignment. -/
theorem witness_AccessesPerformed : ∀ p ∈ [(agRec 1 1, OpState.ag agOpen, AccKind.load, false, Gst.empty), (agRec 1 1, .ag agOpen, .load, true, .full),
      (agRec 1 1, .ag agOpen, .load, true, .empty), (agRec 2 1, .ag agOpen, .store, false, .empty),
      (agRec 2 1, .ag agOpen, .store, true, .empty), (agRec 2 1, .ag agOpen, .store, true, .full),
      (agRec 6 1, .ag agOpen, .clear, true, .full), (brRec 5 3 0x140#32, .br [], .atom, false, .empty)],
    let s := pendState p.1 p.2.1 p.2.2.2.1 p.2.2.1 (.bank 8 64) (if p.2.2.2.2 = .full then [(8 * 4096 + 1, .full)] else []) waiting4
    let a := anAccess p.1.site p.2.2.1 p.2.2.2.1 (.bank 8 64)
    let c := pendCtx p.1 p.2.1 waiting4
    PortReady s 0 a (.bank 8 64) c 0 ∧ a.kind = p.2.2.1 ∧ s.mem.gst (.bank 8 64) = p.2.2.2.2 ∧
    s.answerAt a.reader (.bank 8 64) = none ∧ (c.copyState 0).frozen = false ∧ (c.agent 0).park = .running ∧
    (Place.bank 8 64).offset = 0 := by
  unfold PortReady; decide +kernel

theorem witness_AccessesPerformed_atom : (Place.bank 8 64).isHost = false ∧
    (Place.bank 8 64).offset + (pendCtx (brRec 5 3 0x140#32) (.br []) waiting4).atomBytes ≤ 64 ∧ NotPacing (.bank 8 64) :=
  ⟨by decide +kernel, by decide +kernel, trivial⟩

/-- A command of region 0's sequencer, its block as given, in an engine's queue. -/
def engCmd (kind ty scope rowlen aux : Nat) : Cmd :=
  newCmd (.core (.seq 0)) 1#32 (cmdBlock (blockBytes kind 0x0A ty scope rowlen aux)) [2, 0, 5] 5 (some 1)
def engState (e : Nat) (c : Cmd) : State :=
  { paged (dev (aRegion (aCore .graph)) (aCluster false)) 0x70007 [] with engines := [(e, [c])] }

/-- The kernel looks at one command after the other. -/
def cmdStands (e : Nat) (c : Cmd) (k : EClass) (kind : Nat) : Bool :=
  decide (e < 24 ∧ engineClass e = k ∧
    ((engState e c).queueOf e).find? (fun x => canMove ((engState e c).queueOf e) x && x.blk.kind == kind) = some c)

/-- Copies and conversions: a row to read, formed bytes to write, and nothing left. -/
theorem witness_EngineRows_moves : ∀ p ∈ [(0, EClass.te, 0), (16, .cv, 1)],
    let c := engCmd 1 p.2.2 4 64 0
    (cmdStands p.1 c p.2.1 1 = true ∧ c.outBuf = [] ∧ c.row < c.blk.rows ∧ c.blk.rowlen ≠ 0) ∧
    (cmdStands p.1 { c with outBuf := leBytes 64 7 } p.2.1 1 = true ∧ leBytes 64 7 ≠ []) ∧
    (cmdStands p.1 { c with row := 1 } p.2.1 1 = true ∧ c.blk.rows ≤ 1) := by decide +kernel

/-- Granules of the command's source and destination, at virtual addresses 0x100 and 0x200. -/
theorem witness_EngineRows_granules :
    let c := engCmd 1 0 4 64 0
    let s := engState 0 c
    (s.cmdResolve 0 c c.blk.sspc (rowAt c.blk.src c.row c.blk.sstr c.buf.length) .read).2 = .ok (.hbm 0x70100) false ∧
    (s.cmdResolve 0 c c.blk.dspc c.outAddr .write).2 = .ok (.hbm 0x70200) false ∧ (Place.hbm 0x70200).offset = 0 ∧
    s.mem.wf = true ∧ s.eccAt (.hbm 0x70100) = false ∧ s.eccAt (.hbm 0x70200) = false := by decide +kernel

/-- A packing conversion: a row to read, a full granule to write, a count past the capacity, and the end of its pointers. -/
theorem witness_EngineRows_csr :
    let c := engCmd 2 14 4 16 0x400
    (cmdStands 16 c .cv 2 = true ∧ c.phase ≠ 2 ∧ c.outBuf.length < 64 ∧ c.idxBuf.length < 64 ∧ c.row < c.blk.rows ∧
      c.blk.rowlen ≠ 0 ∧ c.count ≤ c.blk.dstr ∧ c.blk.stype = 14) ∧
    (cmdStands 16 { c with outBuf := leBytes 64 7 } .cv 2 = true ∧ 64 ≤ (leBytes 64 7).length) ∧
    (cmdStands 16 { c with count := 65 } .cv 2 = true ∧ c.blk.dstr < 65) ∧
    cmdStands 16 { c with phase := 2 } .cv 2 = true := by decide +kernel

/-- Each collective: its source still to be read, read, its result formed, and written. -/
theorem witness_Collectives : ∀ kind ∈ [1, 2, 3, 4],
    let c := engCmd kind 14 5 16 0x1000
    let s := engState 20 c
    let size := c.blk.rows * c.blk.srcRow .cl
    (cmdStands 20 c .cl kind = true ∧ c.formed = false ∧ c.buf.length < size ∧ (kind ≠ 4 → s.brings c = true)) ∧
    (cmdStands 20 { c with buf := leBytes 64 7 } .cl kind = true ∧ size ≤ (leBytes 64 7).length) ∧
    (cmdStands 20 { c with formed := true, outBuf := leBytes 64 7 } .cl kind = true ∧ leBytes 64 7 ≠ []) ∧
    cmdStands 20 { c with formed := true } .cl kind = true := by decide +kernel

/-- The member is of rank 1; it is the root of a broadcast of rank 1, and then brings its source. -/
theorem witness_Collectives_rank :
    let c := engCmd 4 14 5 16 0x1000
    (engState 20 c).rankOf c = 1 ∧ 1 < c.group.length ∧
    (engState 20 c).brings { c with blk := { c.blk with aux2 := 1 } } = true ∧ c.blk.aux2 < c.group.length ∧
    c.blk.stype = 14 ∧ c.blk.dtype = 14 := by decide +kernel

/-- A command that has ended, without a status cell and with one in single-assignment memory at 0x300. -/
def endedCmd (status : Nat) : Cmd :=
  let c := engCmd 1 0 4 64 0
  { c with ended := some 0, blk := { c.blk with status := status } }
def endState (status : Nat) : State :=
  { paged (dev (aRegion (aCore .graph)) (aCluster false)) 0x7000F [] with engines := [(0, [endedCmd status])] }

theorem witness_EngineCommandsEnd : ∀ status ∈ [0, 0x300],
    (endState status).endedCmd 0 = some (endedCmd status, 0) ∧ engineClass 0 ≠ .cl ∧ (endedCmd status).blk.status = status ∧
    (status ≠ 0 → ((endState status).translate 5 status .write).2 = .ok (.hbm 0x70300) true ∧
      (endState status).mem.gst (.hbm 0x70300) = .empty ∧ (Place.hbm 0x70300).offset = 0 ∧ (endState status).mem.wf = true) := by
  decide +kernel

/-! ## Witnesses: parking and the fault queue -/

theorem witness_FaultRecords_park :
    (let s := withAgent (agState (agRec 1 1) [14] [14] 0#32 agOpen []) { Agent.init with park := .parking }
     ((s.region 0).site 8).agent.park = .parking ∧ (s.pendingOf 0 8).all s.isDeferred = true) ∧
    (engState 0 { engCmd 1 0 4 64 0 with park := .parking }).cmdOf 0 (.core (.seq 0)) 1#32 =
      some { engCmd 1 0 4 64 0 with park := .parking } := by
  decide +kernel

/-- A fault record of the element at site 8. -/
def aFault (agent : AgentId) (cls : Nat) : FaultRec :=
  { agent := agent, cluster := 1, cls := cls, who := 8, cidx := 0, acc := 0, cfgid := 7, addr := 64, j := List.replicate 5 0#32,
    errrec := 0#32 }

/-- An address space whose next record goes to `next`, with records that wait and cells to be answered. -/
def fqState (next : Nat) (waits : List FaultRec) (cells : List FqCell) (g : Agent) (l : List (Nat × List Byte)) (gst : Table Gst) : State :=
  let q := agRec 2 1
  let s := withAgent (dev (elRegion { elCfg q [14] [14] with pool := [agPool 0#32] } q (.ag agOpen) []) (aCluster false)) g
  let t := paged s 0x7000F l
  { t with
    mem := { t.mem with gstHbm := gst }
    disp := { t.disp with aspaces := [(5, { aSpace with fqNext := next, waiting := waits, cells := cells })] } }

theorem witness_FaultRecords_write : ∀ p ∈ [(Gst.empty, []), (.full, [(0x70100 / 64, Gst.full)])],
    let s := fqState 0x100 [aFault (.elem 0 8) 1] [] Agent.init [] p.2
    (s.aspace? 5).map Aspace.waiting = some [aFault (.elem 0 8) 1] ∧ (s.aspace? 5).map Aspace.fqNext = some 0x100 ∧ isLink 0x100 = false ∧
    (s.translate 5 0x100 .write).2 = .ok (.hbm 0x70100) true ∧ (s.translate 5 0x100 .write).1.mem.gst (.hbm 0x70100) = p.1 ∧
    (Place.hbm 0x70100).offset = 0 ∧ s.mem.wf = true ∧ (aFault (.elem 0 8) 1).j.length = 5 := by decide +kernel

/-- The link of the first 512 cells: FULL with a good and a bad address, and EMPTY. -/
theorem witness_FaultRecords_link : ∀ p ∈ [(0x200, [(0x7FF80 / 64, Gst.full)], Gst.full), (0x201, [(0x7FF80 / 64, .full)], .full), (0, [], .empty)],
    let s := fqState 0xFF80 [] [] Agent.init [(0xFF80, leBytes 8 p.1)] p.2.1
    isLink 0xFF80 = true ∧ (s.aspace? 5).map Aspace.fqStuck = some false ∧
    (s.translate 5 0xFF80 .read).2 = .ok (.hbm 0x7FF80) true ∧
    (s.translate 5 0xFF80 .read).1.answerAt (.fqLink 5) (.hbm 0x7FF80) = none ∧
    (s.translate 5 0xFF80 .read).1.mem.gst (.hbm 0x7FF80) = p.2.2 ∧
    leNat (((s.translate 5 0xFF80 .read).1.loadBytes 5 (.hbm 0x7FF80) 64).take 8) = p.1 := by decide +kernel

def gotBytes (x : State × ReplyRead) : List Byte :=
  match x.2 with
  | .got bs => bs
  | _ => []

/-- A cell of the element at site 8, which stands parked with a poisoned token or none, and its reply. -/
def replyState (agent : AgentId) (cls code addr : Nat) (g : Agent) (engines : Table (List Cmd)) : State :=
  { fqState 0x180 [] [{ addr := 0x100, seq := 0#64, recd := aFault agent cls, reply := none }] g
      [(0x140, leBytes 1 code ++ leBytes 7 0 ++ leBytes 8 addr ++ leBytes 48 0)] [(0x70140 / 64, .full)] with engines := engines }

theorem witness_FaultReplies : ∀ p ∈ [(AgentId.elem 0 8, 1, 1, 0), (.elem 0 8, 1, 2, 0), (.elem 0 8, clsPoison, 3, 0), (.elem 0 8, 1, 0, 0), (.elem 0 8, 1, 4, 0),
      (.engine 0 (.core (.seq 0)) 1#32, 1, 1, 0), (.engine 0 (.core (.seq 0)) 1#32, 1, 2, 0)],
    let h : HeldToken := { port := 0, token := bad (dataTok 3#512) }
    let g : Agent := { Agent.init with park := .parked, heldTok := if p.2.2.1 = 3 then some h else none }
    let c : Cmd := { engCmd 1 0 4 64 0 with park := .parked }
    let s := replyState p.1 p.2.1 p.2.2.1 p.2.2.2 g [(0, [c])]
    let f : FqCell := { addr := 0x100, seq := 0#64, recd := aFault p.1 p.2.1, reply := none }
    (s.aspace? 5).bind Aspace.oldest = some f ∧
    gotBytes (s.readReply 5 f) = leBytes 1 p.2.2.1 ++ leBytes 7 0 ++ leBytes 8 p.2.2.2 ++ leBytes 48 0 ∧
    s.standOf 1 = .placed ∧ s.parkOf p.1 = some .parked ∧ s.cmdOf 0 (.core (.seq 0)) 1#32 = some c ∧ c.ended = none := by
  decide +kernel

/-- The copy that a reply of code 3 names, and the beat it substitutes: an ordinary page at virtual address 0x10000. -/
def substState : State :=
  let s := replyState (.elem 0 8) clsPoison 3 0x10000
    { Agent.init with park := .parked, heldTok := some { port := 0, token := bad (dataTok 3#512) } } []
  { s with mem := { s.mem with hbm := Memory.writeAll s.mem.hbm 0x4008 (leBytes 8 0x80007) } }

theorem witness_FaultReplies_copy : (copyCtx substState 0 8).map (fun x => (x.2, x.1.recd.kind, (x.1.agent 0).heldTok)) =
      some (0, .ag, some { port := 0, token := bad (dataTok 3#512) }) ∧
    ((substState.readReply 5 { addr := 0x100, seq := 0#64, recd := aFault (.elem 0 8) clsPoison, reply := none }).1.translate 5 0x10000
      .read).2 = .ok (.hbm 0x80000) false ∧ substState.eccAt (.hbm 0x80000) = false := by decide +kernel

/-! ## Witnesses: the device as a whole -/

/-- A state with the core's turn free, and with a word in its hands. -/
def withFetched (s : State) (w : Nat) : State := s.setMe { s.me with fetched := some (BitVec.ofNat 32 w) }

theorem witness_StepRunsDecoded_held : CoreToMove (withFetched (mcAt 0#64) 0x0689C000) ∧
    (withFetched (mcAt 0#64) 0x0689C000).me.fetched = some 0x0689C000#32 ∧ decode 0x0689C000#32 = .ok (.add 20 9 24) := by
  unfold CoreToMove; decide +kernel

/-- A sequencer whose program at virtual address 0x100 holds a word, at a PC. -/
def seqProgram (w pc : Nat) : State :=
  paged (dev (aRegion { aCore .graph with pc := BitVec.ofNat 64 pc }) imageCluster) 0x70007 [(0x140, leBytes 4 w)]

def fetchedWord : State × FetchRes → Option Nat
  | (_, .ok w) => some w.toNat
  | _ => none
def fetchTraps : State × FetchRes → Bool
  | (_, .trap _) => true
  | _ => false

/-- An instruction, a word that is none, and a PC past the program. -/
theorem witness_StepRunsDecoded_fetched : ∀ p ∈ [(0x0689C000, true), (0xFFFFFFFF, false)],
    CoreToMove (seqProgram p.1 0x40) ∧ (seqProgram p.1 0x40).me.fetched = none ∧
    fetchedWord (seqProgram p.1 0x40).fetchWord = some p.1 ∧ (decode (BitVec.ofNat 32 p.1)).toOption.isSome = p.2 := by
  unfold CoreToMove; decide +kernel

theorem witness_StepRunsDecoded_trap : CoreToMove (seqProgram 0 0x1000) ∧ (seqProgram 0 0x1000).me.fetched = none ∧
    fetchTraps (seqProgram 0 0x1000).fetchWord = true := by
  unfold CoreToMove; decide +kernel

theorem witness_StepRunsDecoded_sram :
    let s := (mcAt 0#64).withFetchWord 32 0x0689C000
    CoreToMove s ∧ s.cur = .mc ∧ s.mc.fetched = none ∧ s.mc.pc.toNat < 0x200000 ∧
    decode (sramWord s) = .ok (.add 20 9 24) := by
  unfold CoreToMove; decide +kernel

theorem witness_StepRunsDecoded_turns :
    ({ mcAt 0#64 with agenda := [.event .give] }.power = .on ∧ encode .give = none) ∧
    (let s := { withFetched (mcAt 0#64) 0x0689C000 with agenda := [.core .mc] }
     s.power = .on ∧ (s.core .mc).run = .running ∧ (s.core .mc).fetched = some 0x0689C000#32) ∧
    (let s := (mcAt 0#64).setMe { (mcAt 0#64).me with wait := .scPosted }
     s.power = .on ∧ s.agenda = [] ∧ s.me.run = .running ∧ s.me.wait = .scPosted) := by decide +kernel

theorem witness_EncodeDecode : (Instr.add 20 9 24).wf = true ∧ decode 0x0689C000#32 = .ok (.add 20 9 24) := by decide +kernel

theorem witness_MemoryStaysCanonical : State.reset.memWf = true ∧
    (let s := (mcAt 0#64).withFetchWord 32 0x0689C000
     s.memWf = true ∧ (match step s with
      | .next t => t.memWf
      | _ => false) = true) := by decide +kernel

/-- An arc of two slots that is empty, half full, full with room for control, and full with a control token at its tail. -/
def arcRegion (l : List Token) (ctl : Option Token) : Region :=
  { elRegion (veCfg 1 2 1) (veRec 1 2) .none [] with arcs := [(arcKey 1 0, { Arc.empty with queue := l, ctl := ctl })] }

theorem witness_ArcQueues : (∀ n ∈ [0, 1, 2, 3],
      (arcRegion (List.replicate n (dataTok 3#512)) none).acceptsData 1 0 = decide (n < 3) ∧
      (arcRegion (List.replicate n (dataTok 3#512)) none).acceptsCtl 1 0 = true ∧
      (arcRegion (List.replicate n (dataTok 3#512)) none).cap 1 0 = 3 ∧
      ((arcRegion (List.replicate n (dataTok 3#512)) none).arcNow 1 0).queue = List.replicate n (dataTok 3#512)) ∧
    (dataTok 3#512).isControl = false ∧ (stopTok 0).isControl = true ∧
    ((arcRegion (List.replicate 3 (dataTok 3#512)) (some (stopTok 0))).arcNow 1 0).ctl = some (stopTok 0) ∧
    ((arcRegion [] none).arcWord 1 0).map ArcWord.slots = some 2 ∧ (∀ e ∈ (arcRegion [] none).committed, 1 ≤ e.cseq) ∧
    arcKey 1 1 ≠ arcKey 1 0 := by
  decide +kernel

/-! ## The spec's worked examples -/

/-- The state an instruction leaves. -/
def after (i : Instr) (s : State) : State :=
  match exec i s with
  | .next t => t
  | _ => s

/-- A sequencer with s1 and s2 as given. -/
def twoRegs (a b : Nat) : State := dev (aRegion (((aCore .graph).setReg 1 (.ofNat 64 a)).setReg 2 (.ofNat 64 b))) (aCluster true)

/-- DIV of −7 by 2 gives −3, REM −1, DIVN 0x7FFF_FFFF_FFFF_FFFC (R169). -/
theorem test_div : let s := twoRegs (2 ^ 64 - 7) 2
    (after (.div 3 1 2) s).me.reg 3 = -3#64 ∧ (after (.rem 3 1 2) s).me.reg 3 = -1#64 ∧
    (after (.divn 3 1 2) s).me.reg 3 = 0x7FFFFFFFFFFFFFFC#64 := by decide +kernel

/-- LIN s7, 0xFFFE, 0 and LIZ s1, 0x0001, 1 (R171). -/
theorem test_lin_liz : (after (.lin 7 0 0xFFFE) (twoRegs 0 0)).me.reg 7 = 0xFFFFFFFFFFFFFFFE#64 ∧
    (after (.liz 1 1 1) (twoRegs 0 0)).me.reg 1 = 0x10000#64 := by decide +kernel

/-- INS into 0xFFFF of 0x5 at 8, four bits (R172). -/
theorem test_ins : decode 0x28432032#32 = .ok (.ins 2 3 8 3) ∧
    (after (.ins 2 1 8 3) (twoRegs 5 0xFFFF)).me.reg 2 = 0xF5FF#64 := by decide +kernel

/-- CMPI.LTN p2, s1, −1 is true of every value but the largest (R173). -/
theorem test_cmpi : (after (.cmpi 2 .ltn 1 0x3FFF) (twoRegs 0 0)).me.pred 2 = true ∧
    (after (.cmpi 2 .ltn 1 0x3FFF) (twoRegs (2 ^ 64 - 1) 0)).me.pred 2 = false := by decide +kernel

/-- LD.64 s0, 0x40(s5) at 0x100 on an address whose level-3 entry is not valid (R183, R184, R188). -/
def faultingLoad : State :=
  let c := ((aCore .graph).setReg 5 0x200000000#64)
  let s := paged (dev (aRegion { c with pc := 0x100#64 }) (aCluster false)) 0x70007 []
  { s with mem := { s.mem with hbm := Memory.writeAll s.mem.hbm 0x2010 (leBytes 8 0x3001) } }
theorem test_load_trap : let t := after (.ld64 0 5 0x40) faultingLoad
    decode 0x50053040#32 = .ok (.ld64 0 5 0x40) ∧ t.me.trap.pc = 0x100#64 ∧ t.me.trap.cause = 5#64 ∧
    t.me.trap.addr = 0x200000040#64 ∧ t.me.trap.word = 0x50053040#64 ∧ t.me.trap.info = 3#64 ∧ t.me.priv = .supervisor ∧
    t.me.pc = 0#64 := by decide +kernel

/-- SEMA 5 twice raises SYNC at the second; a release passes semaphore 1 from 0x100 to 0x101, before region 9 (R108, R381). -/
theorem test_semaphores : (after (.sema 5) (after (.sema 5) (twoRegs 0 0))).me.trap.cause = 0x14#64 ∧
    (((twoRegs 0 0).setSem 1 { holder := 0x100, kept := none, waiters := [9, 0x101] }).releaseSem 1 0x100).sem 1 =
      { holder := 0x101, kept := none, waiters := [9] } := by decide +kernel

/-- TAKE s9, 3 of a STOP of depth 1 and of an error token of code 5 from site 412 (R207). -/
theorem test_take : decode 0x89200260#32 = .ok (.take 9 3) ∧
    (after (.take 9 3) (takeState (stopTok 1))).me.reg 9 = 1#64 ∧ (after (.take 9 3) (takeState (stopTok 1))).me.ltag = 1#8 ∧
    (after (.take 9 3) (takeState (errTok (errRecord 5 412)))).me.reg 9 = 0x19C0005#64 ∧
    (after (.take 9 3) (takeState (errTok (errRecord 5 412)))).me.ltag = 0x18#8 := by decide +kernel

/-- The token of output arc `n`. -/
def emitted (t : State) (n : Nat) : List Token := ((t.region 0).arc 1 n).queue

/-- A vector element of one output under a record changed as given. -/
def veAt (q : Rec) (ins : List Nat) (ty : Nat) (l : List Beat) : State :=
  elS q ins [ty] (opInit q) (l.zipIdx.map (fun b => (b.2, dataTok b.1)))

/-- SUB on n8 of 3 and 5: 254, or 0 under SAT, and poison when PV selects overflow (R243). -/
theorem test_sub_n8 : let q := veRec 2 2
    (emitted (after (.veSub 0 2) (veAt q [18, 18] 18 [3#512, 5#512])) 2).map (fun t => (laneAt t.payload 8 0, t.poison)) = [(254, false)] ∧
    (emitted (after (.veSub 0 2) (veAt { q with sat := true, pv := 2 } [18, 18] 18 [3#512, 5#512])) 2).map
      (fun t => (laneAt t.payload 8 0, t.poison)) = [(0, true)] := by decide +kernel

/-- SCALE on FP16 of 1.5 by 15, 16 and −25 (R249). -/
def scaled (n : Nat) (sat : Bool) : List Nat :=
  (emitted (after (.veScale 0 2) (veAt { veRec 0x12 2 with sat := sat } [3, 14] 3 [0x3E00#512, BitVec.ofNat 512 n])) 2).map
    (fun t => laneAt t.payload 16 0)
theorem test_scale : scaled 15 false = [0x7A00] ∧ scaled 16 false = [0x7C00] ∧ scaled 16 true = [0x7BFF] ∧
    scaled (2 ^ 32 - 25) false = [1] := by decide +kernel

/-- SHL and SAR by 3 of 0x9000_0001 (R251). -/
theorem test_shifts : let q (opc : Nat) : Rec := elRec 2 opc 1 1 [3#32]
    (emitted (after (.veShl 0 2) (veAt (q 0x18) [14] 14 [0x90000001#512])) 1).map (fun t => laneAt t.payload 32 0) = [0x80000008] ∧
    (emitted (after (.veSar 0 2) (veAt (q 0x1A) [14] 14 [0x90000001#512])) 1).map (fun t => laneAt t.payload 32 0) = [0xF2000000] := by
  decide +kernel

/-- RSUM of 2^24 and fifteen ones: the tree gives 2^24 + 14 (R254). -/
theorem test_rsum : (emitted (after (.veRsum 0 2) (veAt (veRec 0x2B 1) [1] 1
      [packLanes 32 (0x4B800000 :: List.replicate 15 0x3F800000)])) 1).map (fun t => t.payload) = [0x4B800007#512] := by decide +kernel

/-- Two FP32 lanes of 1 + 2^−9 to BF16 under SR from seed 1 (R50). -/
theorem test_stochastic : let lane (l : W32) : LaneOut := convertLane 1 2 4 false false l (laneValue 1 false 0x3F804000)
    (lane 1#32).bits = 0x3F80 ∧ (lane 1#32).lfsr = 0x80200003#32 ∧ (lane 0x80200003#32).bits = 0x3F81 ∧
    (lane 0x80200003#32).lfsr = 0xC0300002#32 := by decide +kernel

/-- EXP2 on FP16 of 16.0 under RNE and RTZ; LOG2 of −0 and −1 (R55, R252). -/
theorem test_special : let y (opc ro x : Nat) (i : Nat → Nat → Instr) : List Nat :=
      (emitted (after (i 0 2) (veAt { veRec opc 1 with ro := ro } [3] 3 [BitVec.ofNat 512 x])) 1).map (fun t => laneAt t.payload 16 0)
    y 0x20 1 0x4C00 .veExp2 = [0x7C00] ∧ y 0x20 2 0x4C00 .veExp2 = [0x7BFF] ∧ y 0x21 1 0x8000 .veLog2 = [0xFC00] ∧
    y 0x21 1 0xBC00 .veLog2 = [0x7E00] := by decide +kernel

/-- SELECT on FP32 with B poisoned: the output is poisoned when a lane comes from B (R237). -/
theorem test_select : let y (c : Nat) : List Bool :=
      (emitted (after (.veSelect 0 2) (elS (veRec 0x0C 3) [0, 1, 1] [1] .none
        [(0, dataTok (BitVec.ofNat 512 c)), (1, dataTok 7#512), (2, bad (dataTok 9#512))])) 3).map Token.poison
    y 0xFFFF = [false] ∧ y 0xFF = [true] := by decide +kernel

/-- LOOPA from 2^31 − 2 to 2^31 − 1 by 4: one token, then the run is over (R266). -/
theorem test_loopa : let q := elRec 1 0x01 0 0 [0x7FFFFFFE#32, 0x7FFFFFFF#32, 4#32]
    let s := after (.sqLoopa 0 1) (elS q [] [14] (.loop none false) [])
    emitted s 0 = [dataTok 0x7FFFFFFE#512] ∧
    emitted (after (.sqLoopa 0 1) s) 0 = [dataTok 0x7FFFFFFE#512, stopTok 0] := by decide +kernel

/-- BVSCAN of 0xF0 and 0x35: their AND is 0x30, and its indices are (4, 0) and (5, 1) (R317). -/
theorem test_bvscan : let s := after (.hdBvscan 0 13) (hdState (hdRec 1 3 0) [17, 17] [14] (.scan scan0)
      [(0, dataTok 0xF0#512), (1, dataTok 0x35#512)])
    let t := after (.hdScanEmit 0 13) (after (.hdScanEmit 0 13) s)
    (emitted t 2).map (fun x => (laneAt x.payload 32 0, laneAt x.payload 32 1)) = [(4, 0), (5, 1)] := by decide +kernel

/-- The document-causal program over three documents (R84, R325, R326), and rows 39 and 40 of its third pair. -/
def docRuns : List RunEntry := (runEntries (leBytes 8 0x80000000 ++ leBytes 8 0x180000028 ++ leBytes 8 0x280000064)).filter RunEntry.v
def docCausal : List Atom :=
  [{ aop := 1, neg := false, eoc := false, eop := false, p := 0x1FF00, b := 0#32 },
   { aop := 4, neg := false, eoc := true, eop := true, p := 0, b := 0#32 }]
theorem test_classes : pairClass docRuns docCausal 0 31 0 31 = 1 ∧ pairClass docRuns docCausal 0 31 32 63 = 0 ∧
    pairClass docRuns docCausal 32 63 0 31 = 1 ∧ pairClass docRuns docCausal 64 95 0 31 = 0 ∧
    allowed docRuns docCausal 39 31 = true ∧ allowed docRuns docCausal 40 31 = false := by decide +kernel

/-- The clause QRANGE 0, 9 & QRANGE 20, 29 is PARTIAL over 0 to 31 (R326). -/
theorem test_partial : pairClass [] [{ aop := 2, neg := false, eoc := false, eop := false, p := 0, b := 9#32 },
    { aop := 2, neg := false, eoc := true, eop := true, p := 20, b := 29#32 }] 0 31 0 31 = 1 := by decide +kernel

/-- Row 3 of a BF16 tile decomposed with shape 2:4 and one term: steps 0 to 3 and residual beat 0 (R333, R334). -/
def dloadTile : Array Beat :=
  ([0x3F00, 0xC040, 0x4040, 0x3E80, 0, 0x3F80, 0xBF80, 0x3F80].map (fun x => BitVec.ofNat 512 (2 ^ 48 * x))).toArray
theorem test_dload : let d := decompose 2 4 1 (laneValue 1 false 0) (tileValues 2 1 dloadTile)
    let b := tileBeats 2 1 2 4 1 d (tileLane 2 1 dloadTile)
    (b.take 4).map (fun x => (x.1.map (fun y => y.toNat / 2 ^ 48 % 65536), x.2.toNat)) =
      [(some 0xC040, 0x9000), (some 0x4040, 0xA000), (some 0x3F80, 0x9000), (some 0xBF80, 0xA000)] ∧
    ((b.drop 128).take 1).map (fun x => (x.1, x.2)) = [(none, packLanes 64 [0x800000C03F000000, 0x800000C33E800000, 0x800000C73F800000])] ∧
    b.length = 136 := by decide +kernel

/-- MXFP4 accumulation into line 0 (R42, R398): 1.5 + 2.0 saturates to 3.0 under the new scale. -/
theorem test_omxacc : let q := elRec 14 10 3 0 [0#32]
    let c := owCtx q [0, 13] [17] ow0 []
    (accBlock c (leBytes 16 0x13 ++ leBytes 48 0x7F) (BitVec.ofNat 512 0x80) #[BitVec.ofNat 512 2] 0 1#32).1 =
      leBytes 16 0x27 ++ leBytes 48 0x7E := by decide +kernel

/-- A GATHER's bounds at indices 5, 2047, 2048 and −1 (R301, R303). -/
theorem test_gather_bounds : let d := descOf [6#32, 0x100000#32, 0#32, 0x40000#32, 0#32, 2#32, 0#32, 0#32, 0#32, 0#32, 64#32, 0#32, 0#32, 0#32, 0#32, 128#32]
    ([5, 2047, 2048, -1] : List Int).map (fun i => d.inBounds (i * 128)) = [true, true, false, false] ∧
    (d.point (5 * 128) [1, 0, 0, 0, 0]) = 0x1002C0 ∧ (d.point (2047 * 128) [0, 0, 0, 0, 0]) = 0x13FF80 ∧
    errRecord 5 412 = 0x19C0005#32 := by decide +kernel

/-- An address of a 32 MiB page at level 2, and the same entry with bit 20 set (R149). -/
def walkTables (leaf : Nat) : List Host.Cell :=
  ((Memory.writeAll (Memory.writeAll (Memory.writeAll [] 0x1000 (leBytes 8 0x2001)) 0x2010 (leBytes 8 0x3001)) 0x3128 (leBytes 8 leaf)))
theorem test_walk : (match walk (walkTables 0x0002801200000007) 0 0x84A1C3D20 3 0x1000 with
      | .ok l => l.phys + 0x84A1C3D20 % l.size
      | .error _ => 0) = 0x00028012001C3D20 ∧
    (match walk (walkTables 0x0002801200100007) 0 0x84A1C3D20 3 0x1000 with
      | .ok _ => 0
      | .error e => e) = clsMalformed := by decide +kernel

/-- A 4 × 2 rectangle with flag 0 busy and region 33 busy, its banks, and an offset of its partition (R137 to R140). -/
def placeState : State :=
  let s := State.reset
  let busy (r : Nat) : Nat × Region := (r, { Region.init with cluster := some 9 })
  { s with
    regions := (List.range 32).map busy ++ [busy 33]
    disp := { s.disp with clusters := [(9, { aCluster true with regions := List.range 32 ++ [33], banks := (List.range 16).map (fun b => 256 + b) })] } }
def rectRec : LaunchRec := { aRec true with shape := 2#8, csize := 7#8, rect := 0x0B#8, part := 40#16 }
theorem test_placement : placeState.chooseRegions 3 [] rectRec = some [34, 35, 36, 37, 42, 43, 44, 45] ∧
    placeState.chooseBanks [] [34, 35, 36, 37, 42, 43, 44, 45] 40 = some ((List.range 40).map (fun b => 272 + b)) ∧
    islandPlace ((List.range 40).map (fun b => 272 + b)) 0x32100 = some (.bank 282 0x1100) ∧
    islandPlace ((List.range 40).map (fun b => 272 + b)) 0xA00000 = none := by decide +kernel

/-- The HD of image tile (1, 2) under the offset (2, 0) (R144). -/
theorem test_shift : shiftSite 2 0 141 = some 157 := by decide +kernel

/-- A pacing descriptor of step 2 and lead 1, its own phase 5 and the least heard phase 3, then 4 (R403). -/
def paceBytes (minph : Nat) : List Byte :=
  [1#8, 2#8, 1#8, 0#8] ++ leBytes 2 5 ++ leBytes 2 9 ++ leBytes 8 5 ++ leBytes 8 minph ++ leBytes 8 0 ++ leBytes 72 1
def pacedAt (minph : Nat) : State :=
  let s := dev (aRegion (aCore .graph)) (aCluster true)
  { s with mem := { s.mem with sram := Memory.writeAll [] 0x1FF000 (paceBytes minph) } }
theorem test_pace : (pacedAt 3).paceOf 0 = 10 ∧ (pacedAt 4).paceOf 0 = 6 := by decide +kernel

/-- The first command to engine 16 has the ticket 0x30 (R342). -/
theorem test_ticket : ticketOf 1#32 16 = 0x30 := by decide +kernel

/-! ## Witnesses of further clauses: cores -/

/-- A sequencer at the first word of a program in a page that holds it, at virtual address 0x100. -/
def programState (leaf : Nat) : State :=
  paged (dev (aRegion { aCore .graph with pc := 0#64 }) { imageCluster with recd := { imageCluster.recd with image := 0#64 } }) leaf []

theorem witness_TrapEntry_fetch_fault : let s := programState 0
    s.cur = .seq 0 ∧ s.me.priv = .graph ∧ s.me.pc.toNat < (s.program s.cur).2.toNat ∧
    (s.translateRead (.fetch s.cur) (s.coreAsid s.cur) ((s.program s.cur).1 + s.me.pc).toNat .read).2 = .fault 1 := by
  decide +kernel

theorem witness_TrapEntry_fetch_void :
    let s := programState 0x7000F
    let t := { s with mem := { s.mem with gstHbm := [(0x70100 / 64, .void)] } }
    let u := (t.translateRead (.fetch t.cur) (t.coreAsid t.cur) ((t.program t.cur).1 + t.me.pc).toNat .read).1
    t.me.pc.toNat < (t.program t.cur).2.toNat ∧
    (t.translateRead (.fetch t.cur) (t.coreAsid t.cur) ((t.program t.cur).1 + t.me.pc).toNat .read).2 = .ok (.hbm 0x70100) true ∧
    u.eccAt (.hbm 0x70100) = false ∧ u.answerAt (.fetch t.cur) (.hbm 0x70100) = none ∧ u.mem.gst (.hbm 0x70100) = .void := by
  decide +kernel

theorem witness_TrapEntry_fetch_partition :
    let k := { aCluster true with banks := [] }
    let s := dev (aRegion { aCore .supervisor with pc := 0xFFFC#64 }) k
    s.cur = .seq 0 ∧ s.me.priv = .supervisor ∧ s.clusterOf 0 = some 1 ∧ s.cluster? 1 = some k ∧
    s.me.pc.toNat < 0x10000 ∧ k.banks.length * 262144 ≤ s.me.pc.toNat := by
  decide +kernel

/-- A load of an element, translated through the page at 0x30000 of address space 5. -/
def pendAccess : Access :=
  { region := 0, site := 2, id := 1, kind := .load, space := .virt, addr := 0x30000, data := 0#512, j := [], place := some (.hbm 0x70000),
    sa := true, page := some (0x30000, 0x10000), asid := 5, cluster := 1 }

/-- MC_INVAL_BASE names address space 5 from 0x30000 on; the access waits at its place, or is a deferred read there. -/
def invalState (deferred : Bool) : State :=
  let s := seqAt .graph true 0#64
  let m : McRegs := { s.mcr with invalBase := 0x0050000000030000#64 }
  let rd : Read := { reader := pendAccess.reader, place := .hbm 0x70000, virt := none, asid := 5, answer := none }
  { s with cur := .mc, mc := { s.mc with run := .running }, mcr := m
           ports := { s.ports with pend := [pendAccess], reads := if deferred then [rd] else [] } }

theorem witness_ControlRegisters_inval_waits : InvalWaits (invalState false) 1#64 ∧ InvalWaits (invalState false) 0#64 ∧
    (invalState false).cur = .mc ∧ (invalState false).me.priv = .management ∧ (invalState false).mc.run ≠ .stopped :=
  ⟨.inl ⟨pendAccess, by decide +kernel, (0x30000, 0x10000), rfl, by unfold Covers; decide +kernel, by decide +kernel⟩,
   .inl ⟨pendAccess, by decide +kernel, (0x30000, 0x10000), rfl, by unfold Covers; decide +kernel, by decide +kernel⟩,
   by decide +kernel, by decide +kernel, by decide +kernel⟩

/-- A deferred load counts as performed. -/
theorem witness_ControlRegisters_inval_goes : ¬InvalWaits (invalState true) 1#64 := by
  rintro (⟨a, ha, q, _, _, h⟩ | ⟨a, ha, _⟩)
  · obtain rfl : a = pendAccess := by simpa [invalState] using ha
    exact h _ (by simp [invalState]; rfl) rfl
  · simp [invalState, seqAt, dev, State.reset] at ha

theorem witness_ControlRegisters_bases : ((mcAt 0x10000#64).me.reg 1#5).toNat % 65536 = 0 ∧
    ((mcAt 1#64).me.reg 1#5).toNat % 65536 ≠ 0 ∧ ((mcAt 511#64).me.reg 1#5).toNat < 512 ∧
    512 ≤ ((mcAt 512#64).me.reg 1#5).toNat ∧ (mcAt 0#64).mc.run ≠ .stopped ∧
    ({ mcAt 0#64 with mc := { (mcAt 0#64).mc with run := .stopped } } : State).mc.run = .stopped := by decide +kernel

/-! ## Witnesses of the traps of scalar accesses -/

/-- The shape of an instruction's access, and whether its address is aligned. -/
def accessKind (s : State) (i : Instr) : Option (Nat × Bool) :=
  (scalarAccess s i).map fun x => (match x.shape with
    | .load => 0
    | .store => 1
    | .atomic => 2
    | .granule => 3
    | .sc => 4, decide (x.ea.toNat % 2 ^ x.lg = 0))

/-- Each shape at a granule, and one byte past it. -/
theorem witness_AccessTraps_shapes : ∀ al : Bool, let s := seqAt .graph true (if al then 0x10000#64 else 0x10001#64)
    s.me.wait = .none ∧ accessKind s (.ldI16 2#5 1#5 0#12) = some (0, al) ∧ accessKind s (.st64 2#5 1#5 0#12) = some (1, al) ∧
    accessKind s (.acas 2#5 1#5 3#5 .system .w32) = some (2, al) ∧ accessKind s (.probe 2#5 1#5) = some (3, al) ∧
    accessKind s (.scst 1#5 2#5 .w64) = some (4, al) := by decide +kernel

/-- What a walk finds: the class of its fault, or 16 with the leaf's bits W and SA. -/
def walkKind : Except Nat Leaf → Nat
  | .error c => c
  | .ok l => 16 + (if l.w then 1 else 0) + (if l.sa then 2 else 0)

/-- An access beyond every table, one through a leaf without W and SA, and one whose entry is malformed. -/
theorem witness_AccessTraps_walks : ∀ q ∈ [(0, 1), (0x70003, 16), (0x70043, 2)],
    let s := paged (seqAt .graph true 0#64) q.1 []
    (s.me.reg 1#5).extractLsb' 48 16 ≠ 0xFFFF#16 ∧ s.ports.tlb = [] ∧ (∀ r ∈ s.ports.reads, r.reader ≠ .core s.cur) ∧
    walkKind (s.walkOf (s.coreAsid s.cur) (s.me.reg 1#5).toNat) = q.2 := by decide +kernel

/-- The first byte beyond the partition, and a byte of a partition without PSA; the same of the local SRAM. -/
theorem witness_AccessTraps_bounds : ∀ q ∈ [(0x100000, false), (0, true)],
    let s := seqAt .graph false (part0 + BitVec.ofNat 64 q.1)
    let m := mcAt (part0 + BitVec.ofNat 64 (2 * q.1))
    s.cur = .seq 0 ∧ s.clusterOf 0 = some 1 ∧ s.cluster? 1 = some (aCluster false) ∧
    (s.me.reg 1#5).extractLsb' 48 16 = 0xFFFF#16 ∧ (aCluster false).recd.psa = false ∧
    decide ((s.me.reg 1#5).toNat % 2 ^ 48 < (aCluster false).banks.length * 262144) = q.2 ∧
    m.cur = .mc ∧ (m.me.reg 1#5).extractLsb' 48 16 = 0xFFFF#16 ∧ decide ((m.me.reg 1#5).toNat % 2 ^ 48 < 0x200000) = q.2 := by
  decide +kernel

/-- A page of host memory, for an atomic and for an SC access. -/
theorem witness_AccessTraps_places :
    let w : Window := { size := 0x100000, key := 0#32, refused := [] }
    let s := paged (seqAt .graph true 0#64) 0x70017 []
    let s := { s with disp := s.disp.setPort .a { s.disp.portA with window := some w } }
    ∀ acc ∈ [Acc.read, .write], (match (s.coreResolve (s.me.reg 1#5) acc).2 with
      | .ok p _ => p.isHost && !p.isLocal
      | _ => false) = true := by decide +kernel

/-- A granule that became VOID while a load waited at it. -/
theorem witness_AccessTraps_presence_voided :
    let s := withReads (seqAt .graph true part0) [{ reader := .core (.seq 0), place := .bank 8 0, virt := none, asid := 5, answer := some .voided }]
    Reaches s (s.me.reg 1#5) .read s (.bank 8 0) true ∧ s.answerAt (.core s.cur) (.bank 8 0) = some .voided :=
  ⟨by constructor <;> decide +kernel, by decide +kernel⟩

/-- An SC access to the partition, of single-assignment memory. -/
theorem witness_AccessTraps_presence_sc : let s := seqAt .graph true part0
    (∀ acc ∈ [Acc.read, .write], s.coreResolve (s.me.reg 1#5) acc = (s, .ok (.bank 8 0) true)) ∧ (Place.bank 8 0).isLocal = true := by
  decide +kernel

/-! ## Witnesses of further clauses: control registers -/

/-- No committed instance, and three of them, in no order. -/
theorem witness_ControlRegisters_status :
    committedOf ((cacheState 0#64 []).region 0) = [] ∧ (cacheState 0#64 []).cur = .seq 0 ∧
    (let l := [anEntry .staged 9 3 (emptyCfg 9), anEntry .live 7 1 (emptyCfg 7), anEntry .staged 8 2 (emptyCfg 8)]
     let com := committedOf ((cacheState 0#64 l).region 0)
     let h := anEntry .live 7 1 (emptyCfg 7)
     let u := anEntry .staged 9 3 (emptyCfg 9)
     h ∈ com ∧ u ∈ com ∧ (∀ e ∈ com, e ≠ h → h.cseq < e.cseq) ∧ ∀ e ∈ com, e ≠ u → e.cseq < u.cseq) := by decide +kernel

/-- Cores that do not run. -/
theorem witness_ControlRegisters_not_running :
    (dev (aRegion { aCore .supervisor with run := .wedged }) (aCluster true)).me.run ≠ .running ∧ (seqAt .graph true 0#64).me.run = .running ∧
    ({ mcAt 0#64 with mc := { (mcAt 0#64).mc with run := .stopped } } : State).me.run ≠ .running ∧
    (31#64).toNat < 32 ∧ 32 ≤ (32#64).toNat := by decide +kernel

/-- The state with a semaphore that a saved cluster holds. -/
def keptSem (s : State) (n : Nat) : State :=
  { s with disp := { s.disp with sems := [(n, { holder := 0, kept := some 1, waiters := [] })] } }

theorem witness_CoreSynchronisation_held :
    let s := seqAt .graph true 0#64
    (s.sem 63).kept = none ∧ coreHolder s.cur ≠ 0x1FF ∧ ((withSem s 63 5 []).sem 63).heldBy (coreHolder s.cur) = false ∧
    ((withSem s 63 0 []).sem 63).heldBy (coreHolder s.cur) = true ∧ ((withSem s 63 0 [3]).sem 63).waiters = [3] ∧
    ((keptSem s 63).sem 63).holder ≠ 0x1FF ∧ ((keptSem s 63).sem 63).heldBy (coreHolder s.cur) = false := by
  decide +kernel

/-! ## Witnesses of further clauses: the sequencer and the ports -/

/-- The words of a committed entry, in a cache with a FREE entry and in a full one. -/
theorem witness_Staging_committed :
    let s := cacheState 9#64 [anEntry .staged 9 1 (emptyCfg 9)]
    let l := (List.range 7).map (fun n => anEntry .fetched (n + 10) n (emptyCfg (n + 10)))
    let t := cacheState 9#64 (anEntry .live 9 1 (emptyCfg 9) :: l)
    (s.me.reg 1#5).toNat = 9 ∧ (committedOf (s.region 0)).length < 8 ∧
    (∀ y ∈ (s.region 0).cache, y.cfgid = 9 → y.state ≠ .fetched) ∧
    (s.region 0).cache.find? (fun y => y.cfgid == 9 && y.state != .rejected) = some (anEntry .staged 9 1 (emptyCfg 9)) ∧
    (s.region 0).cache.length < 8 ∧ (committedOf (t.region 0)).length < 8 ∧
    (∀ y ∈ (t.region 0).cache, y.cfgid = 9 → y.state ≠ .fetched) ∧
    (t.region 0).cache.find? (fun y => y.cfgid == 9 && y.state != .rejected) = some (anEntry .live 9 1 (emptyCfg 9)) ∧
    8 ≤ (t.region 0).cache.length := by decide +kernel

/-- An instance whose exit 7 has arrived: its token at port 15, kept there by a debug halt or not. -/
def exitEntry (target : W32) : Entry :=
  { anEntry .live 7 1 exitCfg with exitSt := .arrived 7, exits := List.replicate 7 0x80#32 ++ [target] }
def exitToken (kept : Bool) (target : W32) : State :=
  dev { aRegion (aCore .graph) with
    cache := [exitEntry target], nextCseq := 2, arcs := [(arcKey 1 1, { Arc.empty with queue := [dataTok 7#512], halted := kept })] }
    (aCluster true)

theorem witness_FabricControl_exit_next (t : W32) : ((exitToken false t).region 0).exitNext = some (exitEntry t) ∧
    (exitEntry t).exits.getD 7 0#32 = t := ⟨rfl, rfl⟩

theorem witness_FabricControl_exit_token :
    ((exitToken false 0#32).region 0).portHead 15 = some (dataTok 7#512) ∧ ((exitToken true 0#32).region 0).portHead 15 = none ∧
    ((exitToken true 0#32).region 0).portAt 15 = some (1, 1) := by decide +kernel

theorem witness_InjectTakeMode_empty : let x := (cacheState 0#64 [anEntry .live 1 1 axpyCfg]).region 0
    x.portAt 3 = some (1, 4) ∧ x.headOf 1 4 = none := by decide +kernel

/-- LAUNCH in an address space with a key: the same granules. -/
def keyedLaunch : State := launchState.setAspace 5 { aSpace with kbind := 1#384 }
def keyed1 : State := (keyedLaunch.bulkLoad part0 2 []).1
def keyed2 : State := (keyed1.launchCell 0x1000).1
def keyed3 : State := (keyed2.launchCell 0x1040).1

theorem witness_LaunchWritesRecord_keyed : keyedLaunch.isKeyed (keyedLaunch.coreAsid keyedLaunch.cur) = true ∧
    (keyedLaunch.bulkLoad (keyedLaunch.me.reg 1#5) 2 []).2 = .ok (List.replicate 8 0#8 ++ [0x40#8] ++ List.replicate 119 0#8) ∧
    keyedLaunch.mem.wf = true := by decide +kernel

theorem witness_LaunchWritesRecord_keyed_cells :
    (keyed1.launchCell (keyedLaunch.me.reg 2#5).toNat).2 = .ok (.hbm 0x71000) true ∧
    (keyed2.launchCell (keyedLaunch.me.reg 2#5 + 64#64).toNat).2 = .ok (.hbm 0x71040) true := by decide +kernel

theorem witness_LaunchWritesRecord_keyed_empty :
    keyed3.coreEcc (.hbm 0x71000) = false ∧ keyed3.coreEcc (.hbm 0x71040) = false ∧
    keyed3.mem.gst (.hbm 0x71000) = .empty ∧ keyed3.mem.gst (.hbm 0x71040) = .empty := by decide +kernel

theorem witness_FabricControl_swept :
    ((exitState .swept []).region 0).exitNext = some { anEntry .live 1 1 axpyCfg with exitSt := .swept, exits := [] } ∧
    (0 : Nat) < 8 ∧ (anEntry .live 1 1 axpyCfg).cfgid < 65536 ∧ ((cacheState 0#64 []).region 0).youngestLive = none := by
  decide +kernel

/-- The halted arc of the youngest instance. -/
theorem witness_FabricControl_halted :
    let s := cacheState 0#64 [anEntry .live 1 1 axpyCfg]
    let t := s.setRegion 0 ((s.region 0).setArc 1 4 { Arc.empty with halted := true })
    (t.region 0).youngestLive = some (anEntry .live 1 1 axpyCfg) ∧ ((t.region 0).arc 1 4).halted = true ∧
    (4#10).toNat < axpyCfg.arcs.length := by decide +kernel

theorem witness_PortCommands_held : let b := cmdBytes 1 63 []
    ((cmdState portBase b).sem 63).heldBy (portHolder .a) = false ∧
    ((cmdState (withSem portBase 63 0x100 []) b).sem 63).heldBy (portHolder .a) = true ∧
    ((cmdState (withSem portBase 63 5 []) b).sem 63).heldBy (portHolder .a) = false ∧
    ((withSem portBase 3 0x100 []).aspace? 5) = some aSpace ∧
    ((portBase.setAspace 5 { aSpace with session := some .a }).aspace? 5).map Aspace.session = some (some .a) := by
  decide +kernel

/-- Both chains stand at a command, with the turn at port B or at port A. -/
theorem witness_PortCommands_turns : ∀ q ∈ [PortId.a, .b], let b := cmdBytes 1 63 []
    let t := cmdState portBase b
    let r : Read := { reader := .command .b, place := .hbm 0x5BF0010000, virt := none, asid := 0, answer := some (.filled (beatOf b) false) }
    let s := (withReads t (r :: t.ports.reads)).setPort .b { t.port .b with cmd := some 0x10000#64 }
    let s := { s with disp := { s.disp with cmdTurn := q } }
    (s.commandAt .a).isSome = true ∧ (s.commandAt .b).isSome = true ∧ s.disp.cmdTurn = q ∧ (otherPort q = .a ∨ otherPort q = .b) := by
  decide +kernel

/-- CAR_UNREG by a port that does not hold the table's semaphore. -/
theorem witness_PortCommands_unregister_refused : let b := cmdBytes 4 1 (leBytes 2 191)
    CommandStands (cmdState portBase b) .a (commandOf b) 4 ∧ ZeroArgs (commandOf b) 2 38 ∧ arg (commandOf b) 0 2 ≤ 191 ∧
    (commandOf b).sem < 64 ∧ ((cmdState portBase b).sem 1).heldBy (portHolder .a) = false :=
  ⟨by unfold CommandStands; decide +kernel, zeros_all (by decide +kernel), by decide +kernel⟩

/-- An address space whose element has a deferred load: AS_SET completes. -/
theorem witness_AddressSpaceAndCells_deferred : let s := invalState true
    (∀ a ∈ s.ports.pend, a.asid ≠ 5 ∨ a.page = none ∨ ∃ r ∈ s.ports.reads, r.reader = a.reader) ∧
    (∀ a ∈ s.ports.sc, a.asid ≠ 5 ∨ a.page = none) := by decide +kernel

/-- CELL_CLR of the command's own granule. -/
def ownState : State :=
  let b := clearBytes 0x10000 1
  withReads (cmdState portBase b)
    [{ reader := .command .a, place := .hbm 0x5BF0010000, virt := none, asid := 0, answer := some (.filled (beatOf b) false) }]

theorem witness_AddressSpaceAndCells_in_use : let c := commandOf (clearBytes 0x10000 1)
    CommandStands ownState .a c 8 ∧ ZeroArgs c 10 30 ∧ arg c 0 8 % 64 = 0 ∧ arg c 8 2 = 1 ∧ clearable 0x10000 = true ∧
    (∃ r ∈ ownState.ports.reads, ∃ i a, i < 1 ∧ ownState.as0Place (0x10000 + 64 * i) = some (.hbm a, true) ∧
        r.place = (Place.hbm a).granule ∧ r.reader.isChain = true) :=
  ⟨by unfold CommandStands; decide +kernel, zeros_all (by decide +kernel), by decide +kernel, by decide +kernel,
    by decide +kernel, _, List.mem_cons_self .., 0, 0x5BF0010000, by decide +kernel, by decide +kernel, by decide +kernel,
    by decide +kernel⟩

/-! ## Witnesses of further clauses: vector elements -/

theorem witness_VectorHoldingOperations_tacc_float :
    Stands (elState (elCfg taccRec [1] [1]) taccRec (taccOp false) [(0, dataTok 3#512)]) 0 2 .ve 0x30
      (elCtx (elCfg taccRec [1] [1]) taccRec (taccOp false) [(0, dataTok 3#512)]) ∧
    inI ((elCtx (elCfg taccRec [1] [1]) taccRec (taccOp false) [(0, dataTok 3#512)]).inTy 0) = false := by
  unfold Stands; decide +kernel

theorem two_up {α : Type} {l : List α} (h : 2 ≤ l.length) : ∃ b rest, l = b :: rest ∧ rest ≠ [] :=
  match l, h with
  | b :: x :: r, _ => ⟨b, x :: r, rfl, nofun⟩

/-- A STOP behind a part group. -/
theorem witness_VectorHoldingOperations_part_group :
    let c := elCtx (elCfg packRec [1] [9]) packRec (packOp 16 []) [(0, stopTok 0)]
    let o := mxpackBeats c (List.replicate 16 0#32)
    Stands (elState (elCfg packRec [1] [9]) packRec (packOp 16 []) [(0, stopTok 0)]) 0 2 .ve 0x31 c ∧
    c.headKind 0 = some .stop ∧ (∃ b rest, o.1 = b :: rest ∧ rest ≠ []) ∧ (c.setLfsr o.2.2).room 0 = true := by
  refine ⟨by unfold Stands; decide +kernel, by decide +kernel, ?_, by decide +kernel⟩
  exact two_up (by decide +kernel)

/-! ## Witnesses of further clauses: matrix elements -/

/-- Steps of an MMA on BF16 and, with its scale at hand, on an MX type, with the B operand of a beat and of the window. -/
theorem witness_MatrixElements_step_types : ∀ ty ∈ [2, 9], ∀ bk ∈ [0, 1],
    let f : MxFrame := { scale := if ty = 9 then some 0#512 else none, beats := 0 }
    let m := { mxOpen (mxWord 1 3 2 2 + bk * 2 ^ 31) 1 0 0 with aFrame := f, bFrame := f }
    let l := [(1, dataTok 3#512), (2, dataTok 4#512)]
    let c := elC (mxRec 2) [17, ty, ty] [1] (.mx m) l
    MxStands (elS (mxRec 2) [17, ty, ty] [1] (.mx m) l) 0 0 c m ∧ m.boundary = none ∧ scaleDue c 1 m.aFrame = false ∧
    scaleDue c 2 m.bFrame = false ∧ c.dataAt 1 = some (dataTok 3#512) ∧ c.dataAt 2 = some (dataTok 4#512) ∧ c.inTy 2 < 32 ∧
    (mxFields (BitVec.ofNat 32 (mxWord 1 3 2 2 + bk * 2 ^ 31))).op = 1 ∧
    (mxFields (BitVec.ofNat 32 (mxWord 1 3 2 2 + bk * 2 ^ 31))).bk = decide (bk = 1) ∧
    1 < (mxFields (BitVec.ofNat 32 (mxWord 1 3 2 2 + bk * 2 ^ 31))).k := by
  unfold MxStands; decide +kernel

/-- A step of a structured term, from the window and with its B beats taken, and one of a residual. -/
theorem witness_MatrixElements_sparse : ∀ p ∈ [(2, 1), (2, 0), (3, 0)],
    let w := mxWord p.1 3 2 2 + p.2 * 2 ^ 31
    let m : MxState := { mxIdle with cmd := some { word := BitVec.ofNat 32 w, steps := 0, bBeats := 4, drained := 0, loaded := 0, cut := false } }
    let l := [(1, dataTok 3#512), (3, dataTok 8#512)]
    let c := elC (elRec 0 2 15 0 []) [17, 15, 15, 16] [14] (.mx m) l
    MxStands (elS (elRec 0 2 15 0 []) [17, 15, 15, 16] [14] (.mx m) l) 0 0 c m ∧ m.boundary = none ∧
    c.dataAt 1 = some (dataTok 3#512) ∧ c.dataAt 3 = some (dataTok 8#512) ∧ (mxFields (BitVec.ofNat 32 w)).op = p.1 ∧
    (mxFields (BitVec.ofNat 32 w)).bk = decide (p.2 = 1) ∧ termBeats c 0 ≤ 4 ∧ 0 < (mxFields (BitVec.ofNat 32 w)).k := by
  unfold MxStands; decide +kernel

/-- A B beat of a structured term, which its A beat and its index beat wait for. -/
theorem witness_MatrixElements_b_beat : ∀ ty ∈ [15, 9],
    let w := mxWord 2 3 2 2
    let m : MxState := { mxIdle with
      cmd := some { word := BitVec.ofNat 32 w, steps := 0, bBeats := 0, drained := 0, loaded := 0, cut := false }
      bFrame := { scale := if ty = 9 then some 0#512 else none, beats := 0 } }
    let l := [(1, dataTok 3#512), (2, dataTok 4#512), (3, dataTok 8#512)]
    let c := elC (elRec 0 2 15 0 []) [17, ty, ty, 16] [14] (.mx m) l
    MxStands (elS (elRec 0 2 15 0 []) [17, ty, ty, 16] [14] (.mx m) l) 0 0 c m ∧ m.boundary = none ∧ scaleDue c 2 m.bFrame = false ∧
    c.dataAt 1 = some (dataTok 3#512) ∧ c.dataAt 2 = some (dataTok 4#512) ∧ c.dataAt 3 = some (dataTok 8#512) ∧ c.inTy 2 < 32 ∧
    (mxFields (BitVec.ofNat 32 w)).op = 2 ∧ (mxFields (BitVec.ofNat 32 w)).bk = false ∧ 0 < termBeats c 0 ∧
    0 < (mxFields (BitVec.ofNat 32 w)).k := by
  unfold MxStands; decide +kernel

/-- Drains that round: to BF16, to FP32, and from integers to i8; and a poisoned register. -/
theorem witness_MatrixElements_drain_types : ∀ p ∈ [(2, 1), (2, 2), (15, 15)],
    let m := mxOpen (mxWord 5 0 0 0) 0 31 0
    let c := elC (mxRec 2) [17, p.1, p.1] [p.2] (.mx m) []
    MxStands (elS (mxRec 2) [17, p.1, p.1] [p.2] (.mx m) []) 0 0 c m ∧ c.outTy 0 = p.2 ∧ mxInteger c = decide (p.1 = 15) ∧
    rmOf c.st.mode (if (mxFields (BitVec.ofNat 32 (mxWord 5 0 0 0))).ro = 0 then c.recd.ro else 0) ≠ 4 ∧ c.room 0 = true ∧
    (c.regs.flag c.regs.act).2 = none ∧ (c.regs.flag c.regs.act).1 = false ∧
    ((c.regs.poison none).flag c.regs.act).1 = true := by
  unfold MxStands; decide +kernel

/-! ## Witnesses of further clauses: owners -/

/-- Updates of a line of BF16. -/
theorem witness_Owners_floats : ∀ p ∈ [1, 2, 3],
    let c := owCtx (owRec p 3) [0, 2] [2] ow0 (owHeads 2)
    OwnerReady (owState (owRec p 3) [0, 2] [2] ow0 (owHeads 2)) 0 14 p c (owToks 2) ∧ inF (c.inTy 1) = true ∧
    OffsetGood c.range (offsetOf (owToks 2)) ∧ c.workCopy 1 = 0 := by
  unfold OwnerReady Stands OffsetGood; decide +kernel

/-- Offsets that cannot be used: no multiple of 64, past the range, below it. -/
theorem witness_Owners_refused : ∀ p ∈ [(1, 2), (2, 2), (3, 2), (4, 2), (5, 2), (6, 2), (7, 2), (8, 3)],
    ∀ off ∈ [32, 1024, 2 ^ 64 - 64],
    let ts := dataTok (BitVec.ofNat 512 off) :: (owToks p.2).drop 1
    let l := ts.zipIdx.map (fun t => (t.2, t.1))
    let c := owCtx (owRec p.1 (2 ^ p.2 - 1)) [0, 14, 14] [14] ow0 l
    OwnerReady (owState (owRec p.1 (2 ^ p.2 - 1)) [0, 14, 14] [14] ow0 l) 0 14 p.1 c ts ∧ ¬ OffsetGood c.range (offsetOf ts) := by
  unfold OwnerReady Stands OffsetGood; decide +kernel

theorem witness_Owners_oread :
    (owCtx (owRec 0xB 1) [0] [14] ow0 (owHeads 1)).ownerBusy = false := by decide +kernel

/-- A group whose block lies past the range. -/
theorem witness_Owners_omxacc_refused :
    let o : OwState := { ow0 with toks := dataTok 960#512 :: List.replicate 33 (dataTok 0#512), applying := true, blk := 1 }
    let c := owCtx (owRec 10 3) [0, 9] [17] o []
    Stands (owState (owRec 10 3) [0, 9] [17] o []) 0 14 .ow 0xA c ∧ c.owReady = true ∧
    c.copies.all (fun k => (c.agent k).runs) = true ∧ ¬ OffsetGood c.range (offsetOf [dataTok 960#512] + 64 * (1 : Nat)) := by
  unfold Stands OffsetGood; decide +kernel

/-! ## Witnesses of further clauses: address generators -/

/-- A poisoned index. -/
theorem witness_LoadingGenerators_poisoned :
    let l := [(0, bad (dataTok 3#512))]
    let c := agCtx (agRec 3 1) [17] [14] 64#32 agIdleState l
    CopyStands (agState (agRec 3 1) [17] [14] 64#32 agIdleState l) 0 8 .ag 3 c 0 ∧ c.canBegin = true ∧
    c.dataAt 0 = some (bad (dataTok 3#512)) ∧ (bad (dataTok 3#512)).poison = true := by
  unfold CopyStands; decide +kernel

theorem witness_DecomposingLoad_shape : ((1 : Nat), (4 : Nat)) ∈ [(1, 4), (2, 4), (2, 8), (4, 8)] ∧
    ((4 : Nat), (8 : Nat)) ∈ [(1, 4), (2, 4), (2, 8), (4, 8)] := by decide

/-! ## Witnesses of further clauses: accesses, engines, faults, arcs -/

/-- A load of a VOID granule, an atomic on single-assignment memory and one on host memory. -/
theorem witness_AccessesPerformed_stops : ∀ p ∈ [(agRec 1 1, OpState.ag agOpen, AccKind.load, true, Place.bank 8 64, Gst.void),
      (brRec 5 3 0x140#32, .br [], .atom, true, .bank 8 64, .full), (brRec 5 3 0x140#32, .br [], .atom, false, .host .a 64, .full)],
    let s := pendState p.1 p.2.1 p.2.2.2.1 p.2.2.1 p.2.2.2.2.1 [(8 * 4096 + 1, p.2.2.2.2.2)] waiting4
    let a := anAccess p.1.site p.2.2.1 p.2.2.2.1 p.2.2.2.2.1
    let c := pendCtx p.1 p.2.1 waiting4
    PortReady s 0 a p.2.2.2.2.1 c 0 ∧ a.kind = p.2.2.1 ∧ s.answerAt a.reader p.2.2.2.2.1 = none ∧ (c.agent 0).park = .running ∧
    s.mem.gst (.bank 8 64) = p.2.2.2.2.2 ∧ (a.sa = true ∨ p.2.2.2.2.1.isHost = true) := by
  unfold PortReady; decide +kernel

/-- A command that has ended with status 3, its one granule unwritten. -/
def failedCmd : Cmd := { endedCmd 0x300 with ended := some 3 }
def failedState : State := { endState 0x300 with engines := [(0, [failedCmd])] }

theorem witness_EngineCommandsEnd_failed : failedState.endedCmd 0 = some (failedCmd, 3) ∧ failedState.mem.wf = true ∧
    issuerMc failedCmd.issuer = false ∧
    ∃ u, Ended failedState u 0 failedCmd 3 ∧ (u.translate failedCmd.asid failedCmd.blk.status .write).2 = .ok (.hbm 0x70300) true ∧
      (u.translate failedCmd.asid failedCmd.blk.status .write).1.mem.gst (.hbm 0x70300) = .empty := by
  refine ⟨by decide +kernel, by decide +kernel, by decide +kernel,
    (failedState.cmdResolve 0 failedCmd failedCmd.blk.dspc 0x200 .presence).1.voidGranule (.hbm 0x70200), ⟨nofun, fun _ => ?_⟩,
    by decide +kernel, by decide +kernel⟩
  rw [show unwritten 0 failedCmd = [0x200] by decide +kernel]
  exact .void _ _ _ _ _ _ (by decide +kernel) (Prod.ext rfl (by decide +kernel)) (.done _)

/-- A command whose status cell lies at no page. -/
theorem witness_EngineCommandsEnd_parks : let c := endedCmd 0x20000
    let s := { endState 0 with engines := [(0, [c])] }
    s.endedCmd 0 = some (c, 0) ∧ Ended s s 0 c 0 ∧ issuerMc c.issuer = false ∧ (s.translate c.asid c.blk.status .write).2 = .fault 1 :=
  ⟨by decide +kernel, ⟨fun _ => rfl, fun h => absurd rfl h⟩, by decide +kernel, by decide +kernel⟩

/-- A collective that has ended, its group that of a pacing descriptor. -/
def collCmd : Cmd := { engCmd 1 14 5 16 0x1000 with ended := some 0, group := [0, 5], formed := true }
def collState : State :=
  { engState 20 collCmd with mem := { (engState 20 collCmd).mem with sram := Memory.writeAll [] 0x1FF000 (pacedBytes 1) } }

theorem witness_EngineCommandsEnd_collective : collState.endedCmd 20 = some (collCmd, 0) ∧ collState.mem.wf = true ∧
    engineClass 20 = .cl ∧ collCmd.group.Pairwise (fun a b => a ≠ b) ∧ (∀ m ∈ collCmd.group, m < 576) ∧
    0 ∈ collState.paceLive ∧ collState.paceAsid 0 = collCmd.asid ∧ ∀ m, m < 576 → (m ∈ collState.paceSet 0 ↔ m ∈ collCmd.group) := by
  decide +kernel

theorem witness_EngineCommandsEnd_unwritten : let c := engCmd 1 0 4 64 0
    engineClass 0 ≠ .cl ∧ c.blk.isCsr (engineClass 0) = false ∧ c.blk.dstRow (engineClass 0) % 64 = 0 ∧ unwritten 0 c = [0x200] := by
  decide +kernel

/-- The link of the first cells, read for the link's reader. -/
theorem witness_FaultRecords_link_read :
    let s := fqState 0xFF80 [] [] Agent.init [(0xFF80, leBytes 8 0x200)] [(0x7FF80 / 64, Gst.full)]
    (s.translateRead (.fqLink 5) 5 0xFF80 .read).2 = .ok (.hbm 0x7FF80) true ∧
    (s.translateRead (.fqLink 5) 5 0xFF80 .read).1.mem.gst (.hbm 0x7FF80) = .full ∧
    (s.translateRead (.fqLink 5) 5 0xFF80 .read).1.answerAt (.fqLink 5) (.hbm 0x7FF80) = none := by decide +kernel

/-- No reply has been recorded at any cell. -/
theorem witness_FaultReplies_recorded : let s := replyState (.elem 0 8) 1 1 0 Agent.init []
    ((s.aspace? 5).map Aspace.cells).all (fun l => l.all (fun x => x.reply.isNone)) = true := by decide +kernel

/-- Replies that have no meaning: a reserved byte, a reserved action, an address with RESUME and with ABORT, and SUBSTITUTE with an
address that is no multiple of 64 and for a record of another class. -/
theorem witness_FaultReplies_malformed : ∀ p ∈ [(1, leBytes 1 1 ++ leBytes 7 1 ++ leBytes 56 0), (1, leBytes 64 0), (1, leBytes 64 4),
      (1, leBytes 1 1 ++ leBytes 7 0 ++ leBytes 8 64 ++ leBytes 48 0), (1, leBytes 1 2 ++ leBytes 7 0 ++ leBytes 8 64 ++ leBytes 48 0),
      (clsPoison, leBytes 1 3 ++ leBytes 7 0 ++ leBytes 8 8 ++ leBytes 48 0), (1, leBytes 1 3 ++ leBytes 7 0 ++ leBytes 8 64 ++ leBytes 48 0)],
    Malformed p.1 p.2 ∧ p.2.length = 64 := by
  unfold Malformed; decide +kernel

/-- A command that stands parked at its status write, its status cell at no page. -/
theorem witness_FaultReplies_status :
    let c : Cmd := { endedCmd 0x20000 with park := .parked, granules := 1 }
    let d : Cmd := { c with park := .running, ended := some 1 }
    let s := replyState (.engine 0 (.core (.seq 0)) 1#32) 1 2 0 Agent.init [(0, [c])]
    let f : FqCell := { addr := 0x100, seq := 0#64, recd := aFault (.engine 0 (.core (.seq 0)) 1#32) 1, reply := none }
    let u := (s.readReply 5 f).1.setCmd 0 d
    s.cmdOf 0 (.core (.seq 0)) 1#32 = some c ∧ c.ended.isSome = true ∧ c.blk.status ≠ 0 ∧ s.mem.wf = true ∧
    s.parkOf (.engine 0 (.core (.seq 0)) 1#32) = some .parked ∧ VoidsEach 0 d u (unwritten 0 d) u ∧
    (u.translate c.asid c.blk.status .write).2 = .fault 1 :=
  ⟨by decide +kernel, by decide +kernel, by decide +kernel, by decide +kernel, by decide +kernel, .done _, by decide +kernel⟩

/-- Two instances whose arcs 0 end at site 2, which runs the older one; their routes share a channel or not. -/
def twoArcs (ch : List Nat) : Region :=
  let arc (l : List Nat) : ArcWord := { inArcWord 2 1 0 with pseq := false, psite := 1, chans := l }
  let one : Cfg := { emptyCfg 7 with recs := [permitRec, veRec 1 2], arcs := [arc [3]] }
  let two : Cfg := { emptyCfg 8 with recs := [permitRec, veRec 1 2], arcs := [arc ch] }
  { aRegion (aCore .graph) with
    cache := [anEntry .live 7 1 one, anEntry .live 8 2 two], nextCseq := 3
    sites := [(1, elSite permitRec (.permit 0 false)), (2, elSite (veRec 1 2) .none)]
    arcs := [(arcKey 2 0, { Arc.empty with queue := [dataTok 3#512, dataTok 4#512] })] }

theorem witness_ArcQueues_newer : let x := twoArcs [4]
    (x.arcWord 2 0).map (fun a => (a.cseq, a.csite)) = some (false, 2) ∧ (∃ e ∈ x.committed, e.cseq < 2) ∧ x.adopted 2 = 1 ∧
    x.cap 2 0 = 2 ∧ (x.arcNow 2 0).queue.length = 2 ∧
    (let y := twoArcs [3]
     (y.arcWord 2 0).map ArcWord.chans = some [3] ∧ (y.committed.map (fun e => (e.cseq, e.cfg.arcs.map ArcWord.chans))) =
       [(1, [[3]]), (2, [[3]])] ∧ y.adopted 1 ≤ 1) := by decide +kernel

/-! ## Witnesses of further clauses: launching, placement and the ends of clusters -/

/-- A caravan's next address: misaligned, on a page of single-assignment memory, and on one of ordinary memory. -/
theorem witness_CaravanGoes : (0x1001#64).toNat % 128 ≠ 0 ∧ (0x1080#64).toNat % 128 = 0 ∧ (0x1080#64) ≠ 0#64 ∧
    ∀ p ∈ [(0x7000F, true), (0x70007, false)],
      let s := paged (dev (aRegion (aCore .graph)) (aCluster true)) p.1 []
      ((s.dropCaravanReads 3).askHead 3 5 0x1080).2 = p.2 := by decide +kernel

/-- An image with one configuration, at an offset. -/
def directoryImage (off : Nat) : List Byte :=
  leBytes 4 0x4C425247 ++ leBytes 2 1 ++ leBytes 2 1 ++ leBytes 16 0 ++ leBytes 8 128 ++ leBytes 8 192 ++ leBytes 8 0 ++
    List.replicate 48 1#8 ++ leBytes 32 0 ++ leBytes 8 7 ++ leBytes 8 off ++ leBytes 48 0

/-- A configuration that stands at a multiple of 64, and one that does not. -/
theorem witness_LaunchRecords_directory : ∀ off ∈ [0x80, 0x81],
    let b := directoryImage off
    let s := measureState b
    let h := headerOf (b.take 128)
    (s.asGranules (.measure 3) 5 2 0 []).2 = .ok (b.take 128) ∧ headerBad (b.take 128) = false ∧
    (s.asGranules (.measure 3) 5 3 0 []).2 = .ok b ∧ (h.imageLen.toNat + 63) / 64 = 3 ∧
    (entriesOf b h).map (fun e => fieldLe e 8 8) = [off] := by decide +kernel

/-- Every region belongs to a cluster of priority 5; the head of caravan 3 pre-empts. -/
def allTaken : State :=
  let k := { aCluster true with regions := List.range 128, recd := { aRec true with prio := 5#8 } }
  let s := carState (aCaravan .ready (some { aRec true with shape := 8#8 }) (some aHeader)) []
  { s with disp := { s.disp with clusters := [(1, k)], nextCluster := 2 }
           regions := (List.range 128).map (fun r => (r, aRegion (aCore .graph))) }

theorem witness_ArbitrationPlaces_preempts : let h : Head := .fresh { aRec true with shape := 8#8 } aHeader
    allTaken.headOf? 3 = some h ∧ (∀ m, m < 192 → m ≠ 3 → allTaken.headOf? m = none) ∧ h.recd.prio.toNat < 8 ∧
    allTaken.fitHead 3 h [] [] = none ∧ h.recd.preempts = true ∧ allTaken.preempting 3 = false ∧
    allTaken.disp.clusters.Pairwise (fun x y => x.1 < y.1) ∧
    (∀ x ∈ allTaken.disp.clusters, x.2.abort = none ∧ x.2.order < 2 ^ 64) ∧
    (allTaken.fitHead 3 h (List.range 128) [8, 9, 10, 11]).isSome = true := by decide +kernel

/-- A saved cluster of caravan 3 whose region has committed the configuration that its image's directory names, or another. -/
def savedOne (l : List Entry) : Saved :=
  { number := 1, cluster := imageCluster, regions := [{ Region.init with cache := l }], bytes := [], gst := [], lines := [], cmds := []
    image := { pages := [0], len := 128, keyed := false }, cellsAt := 0, entriesBefore := 0 }
def savedState (leaf : Nat) (l : List Entry) : State :=
  let s := fetchState 1 (aRegion (aCore .graph))
  let t := { s with mem := { s.mem with hbm := Memory.writeAll s.mem.hbm 0x4000 (leBytes 8 leaf) } }
  { t with regions := [], disp := { t.disp with clusters := [], saved := [savedOne l] } }

/-- What a restore comes to. -/
def recheckKind (x : Recheck State) : Nat :=
  match x with
  | .ok _ => 1
  | .rejected => 2
  | .waits => 3

/-- A restore that succeeds, one whose images are refused, and one whose image meets an EMPTY granule. -/
theorem witness_ArbitrationPlaces_restores : ∀ p ∈ [(0x70007, 1, 1), (0x70007, 9, 2), (0x7000F, 1, 3)],
    let l := [anEntry .live p.2.1 1 axpyCfg]
    let s := savedState p.1 l
    let sv := savedOne l
    s.headOf? 3 = some (.saved sv) ∧ (∀ m, m < 192 → m ≠ 3 → s.headOf? m = none) ∧ (aRec true).prio.toNat < 8 ∧
    (s.caravan 3).state ≠ .ready ∧ (∀ x ∈ s.disp.saved, x.cluster.caravan = 3 → x.number = sv.number) ∧
    s.fitHead 3 (.saved sv) [] [] = some ([0], [0, 1, 2, 3]) ∧ (s.aspace? 5).map Aspace.cells = some [] ∧
    s.restoreOffset 3 sv.cluster = (0, 0) ∧
    recheckKind ((restoring s sv [0] [0, 1, 2, 3] (0, 0)).1.restoreAt sv (restoring s sv [0] [0, 1, 2, 3] (0, 0)).2) = p.2.2 := by
  decide +kernel

/-- A fatal fault of a cluster. -/
def aFatal (n : Nat) : Fatal := { cluster := n, cls := 0x10#8, region := 0, site := 511 }

/-- A fatal fault of a saved cluster, alone and before one of a running cluster. -/
theorem witness_ClusterEnds_saved : ∀ l ∈ [[aFatal 7], [aFatal 7, aFatal 1]],
    let s := dev (aRegion (aCore .graph)) (aCluster true)
    let s := { s with disp := { s.disp with saved := [{ savedOne [] with number := 7 }], fatal := l } }
    s.disp.fatal = l ∧ (∃ x ∈ s.disp.saved, x.number = (aFatal 7).cluster) ∧
    (∀ x ∈ s.disp.saved, x.number ≠ (aFatal 1).cluster) ∧ s.cluster? (aFatal 1).cluster = some (aCluster true) := by decide +kernel

/-- A cluster whose store waits at a bank's port when a fatal fault is raised. -/
theorem witness_ClusterEnds_store :
    let t := pendState (agRec 2 1) (.ag agOpen) false .store (.bank 8 64) [] waiting4
    let s := { t with disp := { t.disp with fatal := [aFatal 1] } }
    let a := anAccess 8 .store false (.bank 8 64)
    PortReady s 0 a (.bank 8 64) (pendCtx (agRec 2 1) (.ag agOpen) waiting4) 0 ∧ s.disp.fatal = [aFatal 1] ∧ s.disp.saved = [] ∧
    s.cluster? 1 = some (aCluster false) ∧ s.ports.pend = [a] ∧ a.kind = .store ∧ a.sa = false ∧ a.cluster = 1 ∧
    (aCluster false).recd.psa = false ∧ (aCluster false).abort = none ∧ s.noCommands 1 = true := by
  unfold PortReady; decide +kernel

/-- What keeps a cluster from completing: an abort, a region that runs, an engine command. -/
theorem witness_ClusterEnds_not : { aCluster true with abort := some anAbort }.abort.isSome = true ∧
    0 ∈ (aCluster true).regions ∧ ((dev (aRegion (aCore .graph)) (aCluster true)).region 0).core.run ≠ .halted ∧
    aCmd ∈ (ewaitState [aCmd]).queueOf 0 ∧ aCmd.cluster = some 1 ∧ (ewaitState [aCmd]).cluster? 1 = some (aCluster true) := by
  decide +kernel

/-! ## Witnesses of further clauses: fault records and rounded values -/

/-- The records of an element of a placed cluster and of an engine's command. -/
theorem witness_FaultRecords_fields :
    (agCtx (agRec 2 1) [14] [14] 0#32 agOpen []).cluster (agState (agRec 2 1) [14] [14] 0#32 agOpen []) = some (1, aCluster true) ∧
    issuerMc (engCmd 1 0 4 64 0).issuer = false ∧ (engCmd 1 0 4 64 0).cluster = some 1 ∧
    (engState 0 (engCmd 1 0 4 64 0)).aspace? (engCmd 1 0 4 64 0).asid = some aSpace ∧
    (engState 0 (engCmd 1 0 4 64 0)).cluster? 1 = some (aCluster false) ∧ (0 : Nat) < 4 ∧ (3 : Nat) < 4 := by decide +kernel

/-- Values that a type holds, that it must round, and that lie beyond its largest, in every mode; integers inside a range and
beyond it. -/
theorem witness_RoundedValues : ∀ rm ∈ [0, 1, 2, 3, 4], ∀ t ∈ [1, 4, 8],
    1 ≤ t ∧ t ≤ 8 ∧ rm ≤ 4 ∧ (roundLane t rm false false 1#32 false 3 0 false).ev.overflow = false ∧
    (roundLane t rm false false 1#32 true 3 200 false).ev.overflow = true ∧
    (convertLane 1 15 rm false false 1#32 (.fin true 3 0 false)).ev.overflow = false ∧
    (convertLane 1 15 rm false false 1#32 (.fin true 3 9 false)).ev.overflow = true := by decide +kernel

/-- The spec's largest magnitudes, the tie beyond each, and what it rounds to (R46, R47): FP8E4 keeps 464 at 448, FP16 takes 65520
to an infinity, FP4 under RTZ keeps its largest. -/
theorem test_rounding_ties : (roundLane 4 0 false false 1#32 false 464 0 false).bits = 0x7E ∧
    (roundLane 3 0 false false 1#32 false 65520 0 false).bits = 0x7C00 ∧
    (roundLane 8 1 false false 1#32 true 7 0 false).bits = 0xF := by decide +kernel
end Sys2Proof.Tests
end

section
/-! SUPPORT. Arcs as queues (R216, R219, R220): what a token that enters and a head that leaves make of an arc, and when a
route takes no token. -/

namespace Sys2Proof.Machine

/-! ## The control part moves up -/

/-- An arc whose control part is empty has nothing to move up. -/
theorem Arc.settle_of_ctl_none {a : Arc} (cap : Nat) (h : a.ctl = none) : a.settle cap = a := by
  simp [Arc.settle, h]

/-- Behind a full queue the control part stays where it is. -/
theorem Arc.settle_of_full {a : Arc} {cap : Nat} (h : cap ≤ a.queue.length) : a.settle cap = a := by
  unfold Arc.settle
  cases a.ctl with
  | none => rfl
  | some t => simp [Nat.not_lt.mpr h]

/-- Where a place is free, the control part is empty afterwards and its token is the tail. -/
theorem Arc.settle_of_room {a : Arc} {cap : Nat} (h : a.queue.length < cap) :
    a.settle cap = { a with queue := a.queue ++ a.ctl.toList, ctl := none } := by
  unfold Arc.settle
  cases hc : a.ctl with
  | none => cases a; simp_all
  | some t => simp [h]

/-! ## An arc that is written -/

@[simp] theorem Region.setArc_cap (x : Region) (c n c' n' : Nat) (a : Arc) : (x.setArc c n a).cap c' n' = x.cap c' n' := rfl

@[simp] theorem Region.arc_setArc_self (x : Region) (c n : Nat) (a : Arc) : (x.setArc c n a).arc c n = a := by
  by_cases h : a = Arc.empty <;> simp [Region.arc, Region.setArc, Table.get, h]

theorem Region.arc_setArc_ne (x : Region) {c n c' n' : Nat} (a : Arc) (h : arcKey c' n' ≠ arcKey c n) :
    (x.setArc c n a).arc c' n' = x.arc c' n' := by
  by_cases ha : a = Arc.empty <;>
    simp [Region.arc, Region.setArc, Table.get, ha, Table.find?_del_ne _ h, Table.find?_put_ne _ _ h]

theorem Region.arcNow_setArc_self (x : Region) (c n : Nat) (a : Arc) :
    (x.setArc c n a).arcNow c n = a.settle (x.cap c n) := by simp [Region.arcNow]

/-! ## A token enters (R216, R219) -/

/-- Room for a DATA token: the route is open, the control part empty, and a place free. -/
theorem Region.acceptsData_iff (x : Region) (c n : Nat) : x.acceptsData c n = true ↔
    x.routeOpen c n = true ∧ (x.arcNow c n).ctl = none ∧ (x.arcNow c n).queue.length < x.cap c n := by
  simp [Region.acceptsData, and_assoc]

/-- Room for a control token: a free place, or the reserved entry's control part. -/
theorem Region.acceptsCtl_iff (x : Region) (c n : Nat) : x.acceptsCtl c n = true ↔
    x.routeOpen c n = true ∧ (x.arcNow c n).ctl = none ∧
      ((x.arcNow c n).queue.length < x.cap c n ∨ (x.arcWord c n).any (x.entryTaken c) = true) := by
  simp [Region.acceptsCtl, and_assoc]

/-- A token that finds a place stands at the tail. -/
theorem Region.enqueue_of_room {x : Region} {c n : Nat} (t : Token) (hctl : (x.arcNow c n).ctl = none)
    (hroom : (x.arcNow c n).queue.length < x.cap c n) :
    x.enqueue c n t = x.setArc c n { x.arcNow c n with queue := (x.arcNow c n).queue ++ [t] } := by
  simp [Region.enqueue, hctl, hroom]

/-- A control token that finds none stands in the control part. -/
theorem Region.enqueue_of_full {x : Region} {c n : Nat} {t : Token} (ht : t.isControl = true)
    (hfull : x.cap c n ≤ (x.arcNow c n).queue.length) :
    x.enqueue c n t = x.setArc c n { x.arcNow c n with ctl := some t } := by
  simp [Region.enqueue, ht, Nat.not_lt.mpr hfull]

/-- A token that enters writes its arc alone; one without room, nothing. -/
theorem Region.enqueue_cases (x : Region) (c n : Nat) (t : Token) :
    (∃ a, x.enqueue c n t = x.setArc c n a) ∨ x.enqueue c n t = x := by
  unfold Region.enqueue
  dsimp only
  split
  · exact .inl ⟨_, rfl⟩
  · split
    · exact .inl ⟨_, rfl⟩
    · exact .inr rfl

theorem Region.arcNow_enqueue_of_room {x : Region} {c n : Nat} (t : Token) (hctl : (x.arcNow c n).ctl = none)
    (hroom : (x.arcNow c n).queue.length < x.cap c n) :
    (x.enqueue c n t).arcNow c n = { x.arcNow c n with queue := (x.arcNow c n).queue ++ [t] } := by
  rw [Region.enqueue_of_room t hctl hroom, Region.arcNow_setArc_self]
  exact Arc.settle_of_ctl_none _ hctl

theorem Region.arcNow_enqueue_of_full {x : Region} {c n : Nat} {t : Token} (ht : t.isControl = true)
    (hfull : x.cap c n ≤ (x.arcNow c n).queue.length) :
    (x.enqueue c n t).arcNow c n = { x.arcNow c n with ctl := some t } := by
  rw [Region.enqueue_of_full ht hfull, Region.arcNow_setArc_self]
  exact Arc.settle_of_full hfull

theorem Region.arc_enqueue_ne (x : Region) {c n c' n' : Nat} (t : Token) (h : arcKey c' n' ≠ arcKey c n) :
    (x.enqueue c n t).arc c' n' = x.arc c' n' := by
  obtain ⟨a, ha⟩ | ha := x.enqueue_cases c n t
  · rw [ha, Region.arc_setArc_ne x a h]
  · rw [ha]

/-! ## The head leaves (R216) -/

/-- Once the head is gone, the token of the control part stands at the tail. -/
theorem Region.arcNow_pop {x : Region} {c n : Nat} {t : Token} {rest : List Token} (hq : (x.arcNow c n).queue = t :: rest)
    (hroom : rest.length < x.cap c n) :
    (x.pop c n).arcNow c n =
      { x.arcNow c n with queue := rest ++ (x.arcNow c n).ctl.toList, ctl := none } := by
  have hpop : x.pop c n = x.setArc c n ({ x.arcNow c n with queue := rest }.settle (x.cap c n)) := by
    simp [Region.pop, hq]
  rw [hpop, Region.arcNow_setArc_self, Arc.settle_of_room (a := { x.arcNow c n with queue := rest }) hroom,
    Arc.settle_of_ctl_none _ rfl]

theorem Region.arc_pop_ne (x : Region) {c n c' n' : Nat} (h : arcKey c' n' ≠ arcKey c n) :
    (x.pop c n).arc c' n' = x.arc c' n' := Region.arc_setArc_ne x _ h

/-! ## Arcs of the oldest place in commit order, and of a later one (R202, R220) -/

theorem Region.oldest_iff (x : Region) (c : Nat) : x.oldest c = true ↔ ∀ e ∈ x.committed, c ≤ e.cseq := by
  simp [Region.oldest]

theorem Region.cap_of_oldest {x : Region} {c n : Nat} {a : ArcWord} (ha : x.arcWord c n = some a)
    (h : a.cseq = true ∨ ∀ e ∈ x.committed, c ≤ e.cseq) : x.cap c n = a.slots + 1 := by
  rw [← Region.oldest_iff] at h
  simp [Region.cap, ha, h]

/-- An arc of a later place in commit order has no reserved entry before its consumer has come to that place. -/
theorem Region.entryTaken_of_behind {x : Region} {c : Nat} {a : ArcWord} (hseq : a.cseq = false)
    (hold : ∃ e ∈ x.committed, e.cseq < c) (hbehind : x.adopted a.csite < c) : x.entryTaken c a = false := by
  have : x.oldest c = false := by simpa [Region.oldest] using hold
  simp [Region.entryTaken, hseq, this, hbehind]

/-- A route that shares a channel with an older one is closed until the older one's producer has gone on. -/
theorem Region.channelsFree_of_shared {x : Region} {c ch : Nat} {a o : ArcWord} {e : Entry} (he : e ∈ x.committed)
    (hlt : e.cseq < c) (ho : o ∈ e.cfg.arcs) (hch : ch ∈ a.chans) (hch' : ch ∈ o.chans)
    (hbehind : x.adopted o.psite ≤ e.cseq) : x.channelsFree c a = false := by
  have : ∃ e ∈ x.committed, e.cseq < c ∧ ∃ o ∈ e.cfg.arcs, (∃ ch ∈ o.chans, ch ∈ a.chans) ∧ x.adopted o.psite ≤ e.cseq :=
    ⟨e, he, hlt, o, ho, ⟨ch, hch', hch⟩, hbehind⟩
  simpa [Region.channelsFree] using this

theorem Region.accepts_of_route_closed {x : Region} {c n : Nat} (t : Token) (h : x.routeOpen c n = false) :
    x.accepts c n t = false := by
  simp [Region.accepts, Region.acceptsData, Region.acceptsCtl, h]

end Sys2Proof.Machine

namespace Sys2Proof.Proofs

open Sys2Proof.Machine

/-- Settles O59: each clause is the law of one operation on the arc as it stands. -/
theorem arcQueues : Obligations.ArcQueues := by
  intro x c n
  refine ⟨fun t _ h => ?data, fun t ht h => ⟨fun hroom => ?room, fun hfull => ?full⟩, fun t rest hq hroom => ?pop,
    fun a ha h => Region.cap_of_oldest ha h, fun a ha hseq hold hbehind hfull => ?entry,
    fun t a e o ch ha he hlt ho hch hch' hbehind => ?route,
    fun c' n' h => ⟨fun t => x.arc_enqueue_ne t h, x.arc_pop_ne h⟩⟩
  case data =>
    obtain ⟨-, hctl, hroom⟩ := (x.acceptsData_iff c n).mp h
    rw [Region.arcNow_enqueue_of_room t hctl hroom]
    exact ⟨rfl, hctl, by simpa using hroom⟩
  case room =>
    obtain ⟨-, hctl, -⟩ := (x.acceptsCtl_iff c n).mp h
    rw [Region.arcNow_enqueue_of_room t hctl hroom]
    exact ⟨rfl, hctl⟩
  case full =>
    rw [Region.arcNow_enqueue_of_full ht hfull]
    exact ⟨rfl, rfl⟩
  case pop =>
    rw [Region.arcNow_pop hq hroom]
    exact ⟨rfl, rfl⟩
  case entry =>
    rw [Bool.eq_false_iff, Ne, Region.acceptsCtl_iff]
    rintro ⟨-, -, hroom | htaken⟩
    · omega
    · simp [ha, Region.entryTaken_of_behind hseq hold hbehind] at htaken
  case route =>
    refine Region.accepts_of_route_closed t ?_
    simp [Region.routeOpen, ha, Region.channelsFree_of_shared he hlt ho hch hch' hbehind]

end Sys2Proof.Proofs
end

section
/-! SUPPORT. What an event of an element reaches (R214, R229): the arcs, the sequencer's ports and events, the injection
meters, and the sites of the element and its copies. -/

namespace Sys2Proof.Machine

/-! ## Tokens in and out of arcs touch no site -/

@[simp] theorem Region.enqueue_sites (x : Region) (c n : Nat) (t : Token) : (x.enqueue c n t).sites = x.sites := by
  obtain ⟨a, ha⟩ | ha := x.enqueue_cases c n t
  · rw [ha]; rfl
  · rw [ha]

@[simp] theorem Region.portMove_sites (p k : Nat) (x : Region) : (Region.portMove p k x).sites = x.sites := by
  induction k generalizing x with
  | zero => rfl
  | succ k ih =>
    unfold Region.portMove
    split
    · rfl
    · split
      · split
        · exact ih _
        · rfl
      · rfl

@[simp] theorem Region.push_sites (x : Region) (c n : Nat) (t : Token) : (x.push c n t).sites = x.sites := by
  unfold Region.push
  split
  · exact x.enqueue_sites c n t
  · split
    · rw [Region.portMove_sites]
      split <;> exact x.enqueue_sites c n t
    · exact x.enqueue_sites c n t

@[simp] theorem Region.pushAll_sites (x : Region) (c : Nat) (l : List Nat) (t : Token) :
    (x.pushAll c l t).sites = x.sites := by
  induction l generalizing x with
  | nil => rfl
  | cons n l ih => exact (ih (x.push c n t)).trans (x.push_sites c n t)

@[simp] theorem Region.site_setSite_self (x : Region) (n : Nat) (t : Site) : (x.setSite n t).site n = t := by
  simp [Region.site, Region.setSite]

theorem Region.site_setSite_ne (x : Region) {n m : Nat} (t : Site) (h : m ≠ n) : (x.setSite n t).site m = x.site m := by
  simp [Region.site, Region.setSite, Table.get_put_ne _ _ _ h]

/-! ## The element while an event works on it -/

/-- A site that is neither the element's nor one of its copies'. -/
def Ctx.Foreign (c : Ctx) (n : Nat) : Prop := n ≠ c.site ∧ ∀ k, k < c.recd.copies → n ≠ c.copySite k

/-- `d` is the element `c` in the course of one of its events: the same record at the same site, and no foreign site
differs. -/
structure Ctx.SameElement (c d : Ctx) : Prop where
  r : d.r = c.r
  site : d.site = c.site
  recd : d.recd = c.recd
  foreign : ∀ n, c.Foreign n → d.x.site n = c.x.site n

theorem Ctx.SameElement.refl (c : Ctx) : c.SameElement c := ⟨rfl, rfl, rfl, fun _ _ => rfl⟩

theorem Ctx.SameElement.foreign_iff {c d : Ctx} (h : c.SameElement d) (n : Nat) : d.Foreign n ↔ c.Foreign n := by
  simp [Ctx.Foreign, Ctx.copySite, h.site, h.recd]

theorem Ctx.SameElement.trans {c d e : Ctx} (h : c.SameElement d) (g : d.SameElement e) : c.SameElement e :=
  ⟨g.r.trans h.r, g.site.trans h.site, g.recd.trans h.recd,
    fun n hn => (g.foreign n ((h.foreign_iff n).mpr hn)).trans (h.foreign n hn)⟩

theorem Ctx.sameElement_take (c : Ctx) (q : Nat) : c.SameElement (c.take q) := by
  unfold Ctx.take
  split
  · exact .refl c
  · exact ⟨rfl, rfl, rfl, fun _ _ => rfl⟩

theorem Ctx.sameElement_takeAll (c : Ctx) (l : List Nat) : c.SameElement (c.takeAll l) := by
  induction l generalizing c with
  | nil => exact .refl c
  | cons q l ih => exact (c.sameElement_take q).trans (ih (c.take q))

theorem Ctx.sameElement_emit (c : Ctx) (p : Nat) (t : Token) : c.SameElement (c.emit p t) := by
  refine ⟨rfl, rfl, rfl, fun n _ => ?_⟩
  simp only [Ctx.emit, Region.site, Region.pushAll_sites]
  split <;> rfl

theorem Ctx.sameElement_setCopy (c : Ctx) {k : Nat} (t : Site) (hk : k < c.recd.copies) : c.SameElement (c.setCopy k t) := by
  unfold Ctx.setCopy
  split
  · exact ⟨rfl, rfl, rfl, fun _ _ => rfl⟩
  · exact ⟨rfl, rfl, rfl, fun n hn => c.x.site_setSite_ne t (hn.2 k hk)⟩

/-- The dealing of R229 names a copy of the record. -/
theorem Ctx.copy_lt (c : Ctx) : c.copy < c.recd.copies := Nat.mod_lt _ (Nat.succ_pos _)

theorem Ctx.sameElement_setLfsr (c : Ctx) (l : W32) : c.SameElement (c.setLfsr l) := c.sameElement_setCopy _ c.copy_lt

/-! ## The stall counters (R215) -/

/-- What the count of an episode writes: the stall mark of the element and, of an episode, the counters of the copy. -/
theorem Ctx.count_cases (c : Ctx) (k : Nat) :
    c.count k = { c with st := { c.st with stalled := false } } ∨ c.count k = c ∨
    ∃ v, c.count k = { c.setCopy k { c.copyState k with stalls := v } with
      st := { (c.setCopy k { c.copyState k with stalls := v }).st with stalled := true } } := by
  unfold Ctx.count
  dsimp only
  split
  · exact .inl rfl
  · split
    · exact .inr (.inr ⟨_, rfl⟩)
    · exact .inr (.inl rfl)

theorem Ctx.sameElement_count (c : Ctx) {k : Nat} (hk : k < c.recd.copies) : c.SameElement (c.count k) := by
  obtain h | h | ⟨v, h⟩ := c.count_cases k <;> rw [h]
  · exact ⟨rfl, rfl, rfl, fun _ _ => rfl⟩
  · exact .refl c
  · exact (c.sameElement_setCopy _ hk).trans ⟨rfl, rfl, rfl, fun _ _ => rfl⟩

/-- The count changes nothing of the region but sites. -/
theorem Ctx.count_x (c : Ctx) (k : Nat) : (c.count k).x = { c.x with sites := (c.count k).x.sites } := by
  obtain h | h | ⟨v, h⟩ := c.count_cases k <;> rw [h]
  by_cases hk : k = 0 <;> simp [Ctx.setCopy, hk, Region.setSite]

/-- The count changes nothing at the element's own site but the stall counters. -/
theorem Ctx.count_st (c : Ctx) (k : Nat) :
    (c.count k).st = { c.st with stalls := (c.count k).st.stalls, stalled := (c.count k).st.stalled } := by
  obtain h | h | ⟨v, h⟩ := c.count_cases k <;> rw [h]
  by_cases hk : k = 0 <;> simp [Ctx.setCopy, Ctx.copyState, hk]

end Sys2Proof.Machine

namespace Sys2Proof.Claims

open Sys2Proof.Machine

/-! ## Firings -/

/-- A firing that ends in `d` leaves the element as `d` says, with the next firing on the next copy. -/
theorem moved_fired (s : State) {c d : Ctx} (h : c.SameElement d) : Moved s (d.fired.back s) c (nextFiring d) := by
  have hnext : c.SameElement (nextFiring d) := h.trans ⟨rfl, rfl, rfl, fun _ _ => rfl⟩
  have hf : c.SameElement d.fired := hnext.trans (Ctx.sameElement_count (nextFiring d) d.copy_lt)
  have hx : d.fired.x = { d.x with sites := d.fired.x.sites } := (nextFiring d).count_x d.copy
  have hst : d.fired.st = { (nextFiring d).st with stalls := d.fired.st.stalls, stalled := d.fired.st.stalled } :=
    (nextFiring d).count_st d.copy
  have hreg : (d.fired.back s).region c.r = d.fired.x.setSite c.site d.fired.st := by
    simp [Ctx.back, hf.r, hf.site]
  refine ⟨?_, ?_, ?_, fun n hn hcopies => ?_⟩
  · rw [hreg, Ctx.back, hf.r, hf.site]
  · rw [hreg, Region.setSite, hx]; rfl
  · rw [hreg, Region.site_setSite_self]; exact hst
  · rw [hreg, Region.site_setSite_ne _ _ hn]
    exact hf.foreign n ⟨hn, hcopies⟩

/-- An event whose meaning is the firing of one operation fires where that firing is enabled. -/
theorem fires_of_fireOp {i : Instr} {s : State} {r site : Nat} {k : EKind} {opc : Nat} {f : Ctx → Option Ctx} {c d : Ctx}
    (hexec : exec i s = fireOp s r site k opc f) (hstands : Stands s r site k opc c) (hf : f c = some d.fired)
    (hd : c.SameElement d) : Fires i s c d := by
  obtain ⟨hctx, hop⟩ := hstands
  exact ⟨d.fired.back s, by simp [hexec, fireOp, orStay, hctx, hop, hf], moved_fired s hd⟩

/-! ## Lane-wise firings (R214, R229) -/

/-- A lane-wise firing that is ready consumes every port and emits the token its operation makes. -/
theorem laneFire_of_ready {s : State} {r site opc : Nat} {c : Ctx} {ts : List Token}
    (f : Ctx → List Token → W32 → Beat × Ev × W32) (h : LanesReady s r site opc c ts) :
    laneFire f c = some (((c.setLfsr (f c ts c.lfsr).2.2).takeAll c.ports).emit 0
      (resultTok ts (pvSelects c.recd.pv (f c ts c.lfsr).2.1) (f c ts c.lfsr).1)).fired := by
  obtain ⟨-, hdata, hroom, hcopy⟩ := h
  have hts : c.ports.filterMap c.dataAt = ts := by
    have := congrArg (List.filterMap id) hdata
    simpa [List.filterMap_map, Function.comp_def] using this
  have hlen : ts.length = c.ports.length := by simpa using (congrArg List.length hdata).symm
  simp [laneFire, tokenFire, hts, hlen, hroom, hcopy]

theorem sameElement_lanes (c : Ctx) (l : W32) (ps : List Nat) (t : Token) :
    c.SameElement (((c.setLfsr l).takeAll ps).emit 0 t) :=
  ((c.sameElement_setLfsr l).trans (Ctx.sameElement_takeAll _ ps)).trans (Ctx.sameElement_emit _ 0 t)

/-- An operation whose meaning is a lane-wise firing of `f` fires as `f` says. -/
theorem laneFires_of_exec {i : Nat → Nat → Instr} {opc : Nat} {f : Ctx → List Token → W32 → Beat × Ev × W32}
    (hexec : ∀ r site s, exec (i r site) s = fireOp s r site .ve opc (laneFire f)) : LaneFires i opc f :=
  fun s r site c _ h => fires_of_fireOp (hexec r site s) h.1 (laneFire_of_ready f h) (sameElement_lanes c _ _ _)

end Sys2Proof.Claims

namespace Sys2Proof.Proofs

open Sys2Proof.Claims

/-- Settles O25: the meaning of each operation is a lane-wise firing of its own function. -/
theorem vectorLanesFire : Obligations.VectorLanesFire := by
  and_intros <;> exact laneFires_of_exec fun _ _ _ => rfl

end Sys2Proof.Proofs
end

section
/-! SUPPORT. The words of the sequencer instructions, field by field (R60 to R67): what each format's fields are, and that the
decoder and the encoder agree. -/

namespace Sys2Proof

/-! ## Concatenations and their fields -/

/-- A concatenation is a word when its parts are the word's upper and lower bits. -/
theorem append_eq_iff {u v : Nat} (x : BitVec u) (y : BitVec v) (z : BitVec (u + v)) :
    x ++ y = z ↔ z.extractLsb' v u = x ∧ z.extractLsb' 0 v = y := by
  constructor
  · rintro rfl
    exact ⟨BitVec.extractLsb'_append_eq_left, BitVec.extractLsb'_append_eq_right⟩
  · rintro ⟨rfl, rfl⟩
    rw [BitVec.extractLsb'_append_extractLsb'_eq_extractLsb' (by simp), BitVec.extractLsb'_eq_self]

theorem eq_append_iff {u v : Nat} (x : BitVec u) (y : BitVec v) (z : BitVec (u + v)) :
    z = x ++ y ↔ z.extractLsb' v u = x ∧ z.extractLsb' 0 v = y := eq_comm.trans (append_eq_iff x y z)

/-- A field of a field is a field. -/
theorem extract_extract {n : Nat} (x : BitVec n) {a m b k : Nat} (h : b + k ≤ m) :
    (x.extractLsb' a m).extractLsb' b k = x.extractLsb' (a + b) k := by
  ext i hi
  simp [Nat.add_assoc, show b + i < m by omega]

section
variable {w : W32}

/-- A field is its upper and its lower part. -/
theorem field_eq_iff {lo : Nat} (u v : Nat) {z : BitVec (u + v)} :
    field w lo (u + v) = z ↔ field w (lo + v) u = z.extractLsb' v u ∧ field w lo v = z.extractLsb' 0 v := by
  rw [field, ← BitVec.extractLsb'_append_extractLsb'_eq_extractLsb' rfl, append_eq_iff, eq_comm,
    @eq_comm _ _ (field w lo v)]

/-! The parts the decoder reads of fields that the encoder writes as one, and of fields it reads together (R62). -/

theorem field_0_11_eq_iff {fn : BitVec 11} :
    field w 0 11 = fn ↔ field w 6 5 = fn.extractLsb' 6 5 ∧ field w 0 6 = fn.extractLsb' 0 6 := field_eq_iff 5 6

theorem field_0_11_eq_stage_iff {fn : BitVec 11} :
    field w 0 11 = fn ↔ field w 8 3 = fn.extractLsb' 8 3 ∧ field w 0 8 = fn.extractLsb' 0 8 := field_eq_iff 3 8

theorem field_0_11_eq_zero_iff : field w 0 11 = 0#11 ↔ field w 9 2 = 0#2 ∧ field w 0 9 = 0#9 := field_eq_iff 2 9

theorem field_0_16_eq_system_iff {fn : BitVec 16} :
    field w 0 16 = fn ↔ field w 12 4 = fn.extractLsb' 12 4 ∧ field w 0 12 = fn.extractLsb' 0 12 := field_eq_iff 4 12

theorem field_6_5_eq_zero_iff : field w 6 5 = 0#5 ↔ field w 7 4 = 0#4 ∧ field w 6 1 = 0#1 := field_eq_iff 4 1

theorem field_16_10_eq_zero_iff : field w 16 10 = 0#10 ↔ field w 21 5 = 0#5 ∧ field w 16 5 = 0#5 := field_eq_iff 5 5

theorem field_11_15_eq_zero_iff :
    field w 11 15 = 0#15 ↔ field w 21 5 = 0#5 ∧ field w 16 5 = 0#5 ∧ field w 11 5 = 0#5 :=
  (field_eq_iff 5 10).trans (and_congr_right' (field_eq_iff 5 5))

theorem field_0_21_eq_zero_iff :
    field w 0 21 = 0#21 ↔ field w 16 5 = 0#5 ∧ field w 11 5 = 0#5 ∧ field w 0 11 = 0#11 :=
  (field_eq_iff 5 16).trans (and_congr_right' (field_eq_iff 5 11))

/-! ## The formats (R60) -/

theorem fmtA_eq_iff {op : BitVec 6} {d a b : BitVec 5} {fn : BitVec 11} : fmtA op d a b fn = w ↔
    field w 26 6 = op ∧ field w 21 5 = d ∧ field w 16 5 = a ∧ field w 11 5 = b ∧ field w 0 11 = fn := by
  rw [fmtA, append_eq_iff, eq_append_iff, eq_append_iff, eq_append_iff]
  simp [extract_extract, and_assoc]

theorem fmtI_eq_iff {op : BitVec 6} {d a : BitVec 5} {imm : BitVec 16} : fmtI op d a imm = w ↔
    field w 26 6 = op ∧ field w 21 5 = d ∧ field w 16 5 = a ∧ field w 0 16 = imm := by
  rw [fmtI, append_eq_iff, eq_append_iff, eq_append_iff]
  simp [extract_extract, and_assoc]

theorem fmtW_eq_iff {d : BitVec 5} {hw fn : BitVec 2} {imm : BitVec 16} : fmtW d hw fn imm = w ↔
    field w 26 6 = 0x09#6 ∧ field w 21 5 = d ∧ field w 19 2 = hw ∧ field w 17 2 = fn ∧ field w 16 1 = 0#1 ∧
      field w 0 16 = imm := by
  rw [fmtW, append_eq_iff, eq_append_iff, eq_append_iff, eq_append_iff, eq_append_iff]
  simp [extract_extract, and_assoc]

theorem fmtF_eq_iff {d a : BitVec 5} {pos lenm : BitVec 6} {fn : BitVec 4} : fmtF d a pos lenm fn = w ↔
    field w 26 6 = 0x0A#6 ∧ field w 21 5 = d ∧ field w 16 5 = a ∧ field w 10 6 = pos ∧ field w 4 6 = lenm ∧
      field w 0 4 = fn := by
  rw [fmtF, append_eq_iff, eq_append_iff, eq_append_iff, eq_append_iff, eq_append_iff]
  simp [extract_extract, and_assoc]

theorem fmtM_eq_iff {op : BitVec 6} {d a : BitVec 5} {k : BitVec 4} {off : BitVec 12} : fmtM op d a k off = w ↔
    field w 26 6 = op ∧ field w 21 5 = d ∧ field w 16 5 = a ∧ field w 12 4 = k ∧ field w 0 12 = off := by
  rw [fmtM, append_eq_iff, eq_append_iff, eq_append_iff, eq_append_iff]
  simp [extract_extract, and_assoc]

theorem fmtY_eq_iff {op : BitVec 6} {d a b : BitVec 5} {sc : BitVec 4} {x : BitVec 1} {fn : BitVec 6} :
    fmtY op d a b sc x fn = w ↔ field w 26 6 = op ∧ field w 21 5 = d ∧ field w 16 5 = a ∧ field w 11 5 = b ∧
      field w 7 4 = sc ∧ field w 6 1 = x ∧ field w 0 6 = fn := by
  rw [fmtY, append_eq_iff, eq_append_iff, eq_append_iff, eq_append_iff, eq_append_iff, eq_append_iff]
  simp [extract_extract, and_assoc]

theorem cmpWord_eq_iff {p : PReg} {c : BitVec 4} {a b : SReg} : (0x0B#6 ++ p ++ c ++ a ++ b ++ 0#9 : W32) = w ↔
    field w 26 6 = 0x0B#6 ∧ field w 23 3 = p ∧ field w 19 4 = c ∧ field w 14 5 = a ∧ field w 9 5 = b ∧
      field w 0 9 = 0#9 := by
  rw [append_eq_iff, eq_append_iff, eq_append_iff, eq_append_iff, eq_append_iff]
  simp [extract_extract, and_assoc]

theorem cmpiWord_eq_iff {p : PReg} {c : BitVec 4} {a : SReg} {imm : BitVec 14} : (0x0C#6 ++ p ++ c ++ a ++ imm : W32) = w ↔
    field w 26 6 = 0x0C#6 ∧ field w 23 3 = p ∧ field w 19 4 = c ∧ field w 14 5 = a ∧ field w 0 14 = imm := by
  rw [append_eq_iff, eq_append_iff, eq_append_iff, eq_append_iff]
  simp [extract_extract, and_assoc]

theorem plogWord_eq_iff {d a b : PReg} {tt : BitVec 4} : (0x0D#6 ++ d ++ a ++ b ++ tt ++ 0#13 : W32) = w ↔
    field w 26 6 = 0x0D#6 ∧ field w 23 3 = d ∧ field w 20 3 = a ∧ field w 17 3 = b ∧ field w 13 4 = tt ∧
      field w 0 13 = 0#13 := by
  rw [append_eq_iff, eq_append_iff, eq_append_iff, eq_append_iff, eq_append_iff]
  simp [extract_extract, and_assoc]

theorem branchWord_eq_iff {p : PReg} {neg : BitVec 1} {off : BitVec 22} : (0x10#6 ++ p ++ neg ++ off : W32) = w ↔
    field w 26 6 = 0x10#6 ∧ field w 23 3 = p ∧ field w 22 1 = neg ∧ field w 0 22 = off := by
  rw [append_eq_iff, eq_append_iff, eq_append_iff]
  simp [extract_extract, and_assoc]

theorem jalWord_eq_iff {d : SReg} {off : BitVec 21} : (0x11#6 ++ d ++ off : W32) = w ↔
    field w 26 6 = 0x11#6 ∧ field w 21 5 = d ∧ field w 0 21 = off := by
  rw [append_eq_iff, eq_append_iff]
  simp [extract_extract, and_assoc]

/-! ## Fields with parts of their own (R64 to R67) -/

theorem field_0_16_eq_shift_iff {n : BitVec 6} :
    field w 0 16 = 0#10 ++ n ↔ field w 6 10 = 0#10 ∧ field w 0 6 = n := by
  rw [eq_comm, append_eq_iff]; simp [extract_extract]

theorem field_0_16_eq_csr_iff {k : BitVec 4} {c : BitVec 12} :
    field w 0 16 = k ++ c ↔ field w 12 4 = k ∧ field w 0 12 = c := by
  rw [eq_comm, append_eq_iff]; simp [extract_extract]

theorem field_0_11_eq_sel_iff {p : PReg} {z : BitVec 8} :
    field w 0 11 = p ++ z ↔ field w 8 3 = p ∧ field w 0 8 = z := by
  rw [eq_comm, append_eq_iff]; simp [extract_extract]

theorem field_0_11_eq_scope_iff {sc : BitVec 4} {z : BitVec 7} :
    field w 0 11 = sc ++ z ↔ field w 7 4 = sc ∧ field w 0 7 = z := by
  rw [eq_comm, append_eq_iff]; simp [extract_extract]

theorem field_0_11_eq_inj_iff {s : BitVec 2} {p : BitVec 4} {k : BitVec 3} {x z : BitVec 1} :
    field w 0 11 = s ++ p ++ k ++ x ++ z ↔
      field w 9 2 = s ∧ field w 5 4 = p ∧ field w 2 3 = k ∧ field w 1 1 = x ∧ field w 0 1 = z := by
  rw [eq_comm, append_eq_iff, eq_append_iff, eq_append_iff, eq_append_iff]
  simp [extract_extract, and_assoc]

theorem field_0_11_eq_take_iff {p : BitVec 4} : field w 0 11 = 1#2 ++ p ++ 0#5 ↔
    field w 9 2 = 1#2 ∧ field w 5 4 = p ∧ field w 1 4 = 0#4 ∧ field w 0 1 = 0#1 := by
  have h : field w 0 5 = 0#5 ↔ field w 1 4 = 0#4 ∧ field w 0 1 = 0#1 := field_eq_iff 4 1
  rw [eq_comm, append_eq_iff, eq_append_iff, ← h]
  simp [extract_extract, and_assoc]

theorem field_0_11_eq_arc_iff {r : BitVec 1} {a : BitVec 10} :
    field w 0 11 = r ++ a ↔ field w 10 1 = r ∧ field w 0 10 = a := by
  rw [eq_comm, append_eq_iff]; simp [extract_extract]

theorem field_0_11_eq_mode_iff {s : BitVec 2} {z : BitVec 1} {m : BitVec 8} :
    field w 0 11 = s ++ z ++ m ↔ field w 9 2 = s ∧ field w 8 1 = z ∧ field w 0 8 = m := by
  rw [eq_comm, append_eq_iff, eq_append_iff]
  simp [extract_extract, and_assoc]

theorem field_0_11_eq_sema_iff {n : BitVec 6} :
    field w 0 11 = 0#5 ++ n ↔ field w 10 1 = 0#1 ∧ field w 6 4 = 0#4 ∧ field w 0 6 = n := by
  have h : field w 6 5 = 0#5 ↔ field w 10 1 = 0#1 ∧ field w 6 4 = 0#4 := field_eq_iff 1 4
  rw [eq_comm, append_eq_iff, ← and_assoc, ← h]
  simp [extract_extract]

theorem field_0_11_eq_semr_iff {r : BitVec 1} {z : BitVec 4} {n : BitVec 6} :
    field w 0 11 = r ++ z ++ n ↔ field w 10 1 = r ∧ field w 6 4 = z ∧ field w 0 6 = n := by
  rw [eq_comm, append_eq_iff, eq_append_iff]
  simp [extract_extract, and_assoc]

theorem field_0_11_eq_engine_iff {k : BitVec 3} {e : BitVec 5} {z : BitVec 3} :
    field w 0 11 = k ++ e ++ z ↔ field w 8 3 = k ∧ field w 3 5 = e ∧ field w 0 3 = z := by
  rw [eq_comm, append_eq_iff, eq_append_iff]
  simp [extract_extract, and_assoc]

/-! ## Codes (R65) and checks (R62, R64) -/

theorem Scope.ofCode_eq_some {c : BitVec 4} {sc : Scope} : Scope.ofCode c.toNat = some sc ↔ c = sc.code := by
  cases sc <;> revert c <;> decide

theorem Cond.ofCode_eq_some {c : BitVec 4} {x : Cond} : Cond.ofCode c.toNat = some x ↔ c = x.code := by
  cases x <;> revert c <;> decide

@[simp] theorem Width.ofBit_bit (x : Width) : Width.ofBit x.bit = x := by cases x <;> rfl

theorem Width.bit_ofBit : ∀ b : BitVec 1, (Width.ofBit b).bit = b := by decide

theorem eq_one_of_ne_zero : ∀ {b : BitVec 1}, ¬b = 0#1 → b = 1#1 := by decide

theorem mustZero_eq_ok {n : Nat} {z : BitVec n} {x : Except DecodeError Instr} {i : Instr} :
    mustZero n z x = .ok i ↔ z = 0#n ∧ x = .ok i := by
  unfold mustZero; split <;> simp [*]

theorem limited_eq_ok {x i : Instr} : limited x = .ok i ↔ x.wf = true ∧ x = i := by
  unfold limited; split <;> simp [*]

theorem withScope_eq_ok {f : Scope → Except DecodeError Instr} {i : Instr} :
    withScope w f = .ok i ↔ ∃ sc, field w 7 4 = sc.code ∧ f sc = .ok i := by
  unfold withScope
  simp only [← Scope.ofCode_eq_some]
  cases Scope.ofCode (field w 7 4).toNat <;> simp

/-- The instruction of a scope's own code. -/
theorem withScope_eq {sc : Scope} (h : field w 7 4 = sc.code) (f : Scope → Except DecodeError Instr) :
    withScope w f = f sc := by
  rw [withScope, h, Scope.ofCode_eq_some.mpr rfl]

/-! ## What is decoded is well formed, and the word is its own -/

/-- The instruction is well formed, and `w` is its word. -/
def Instr.HasWord (i : Instr) (w : W32) : Prop := i.wf = true ∧ encode i = some w

variable {i : Instr}

theorem hasWord_of_ok {j : Instr} {v : W32} (h : (.ok j : Except DecodeError Instr) = .ok i) (hwf : j.wf = true)
    (hj : encode j = some v) (hv : v = w) : i.HasWord w := by
  cases h
  exact ⟨hwf, hv ▸ hj⟩

theorem hasWord_of_limited {j : Instr} {v : W32} (h : limited j = .ok i) (hj : encode j = some v) (hv : v = w) :
    i.HasWord w :=
  have ⟨hwf, hji⟩ := limited_eq_ok.mp h
  hasWord_of_ok (congrArg _ hji) hwf hj hv

/-! One lemma for each major opcode: the fields that the decoder has checked or read are those of the encoder's word. -/

theorem hasWord_of_decodeAlu (hop : (field w 26 6).toNat = 0x01) (h : decodeAlu w = .ok i) : i.HasWord w := by
  obtain ⟨hz, h⟩ := mustZero_eq_ok.mp h
  have hword {b : SReg} {fn : BitVec 11} (hb : field w 11 5 = b) (hz' : fn.extractLsb' 6 5 = 0#5)
      (hfn : (field w 0 6).toNat = (fn.extractLsb' 0 6).toNat) :
      fmtA 0x01#6 (field w 21 5) (field w 16 5) b fn = w :=
    fmtA_eq_iff.mpr ⟨BitVec.eq_of_toNat_eq hop, rfl, rfl, hb,
      field_0_11_eq_iff.mpr ⟨hz.trans hz'.symm, BitVec.eq_of_toNat_eq hfn⟩⟩
  split at h
  case h_21 hfn | h_22 hfn =>
    obtain ⟨hb, h⟩ := mustZero_eq_ok.mp h
    exact hasWord_of_ok h rfl rfl (hword hb rfl hfn)
  case h_26 => cases h
  all_goals
    rename_i hfn
    exact hasWord_of_ok h rfl rfl (hword rfl rfl hfn)

theorem hasWord_of_decodeWide (hop : (field w 26 6).toNat = 0x09) (h : decodeWide w = .ok i) : i.HasWord w := by
  obtain ⟨hz, h⟩ := mustZero_eq_ok.mp h
  split at h
  case h_4 => cases h
  all_goals
    rename_i hfn
    exact hasWord_of_ok h rfl rfl
      (fmtW_eq_iff.mpr ⟨BitVec.eq_of_toNat_eq hop, rfl, rfl, BitVec.eq_of_toNat_eq hfn, hz, rfl⟩)

theorem hasWord_of_decodeBits (hop : (field w 26 6).toNat = 0x0A) (h : decodeBits w = .ok i) : i.HasWord w := by
  unfold decodeBits at h
  split at h
  case h_4 => cases h
  all_goals
    rename_i hfn
    exact hasWord_of_limited h rfl
      (fmtF_eq_iff.mpr ⟨BitVec.eq_of_toNat_eq hop, rfl, rfl, rfl, rfl, BitVec.eq_of_toNat_eq hfn⟩)

theorem hasWord_of_decodeCmp (hop : (field w 26 6).toNat = 0x0B) (h : decodeCmp w = .ok i) : i.HasWord w := by
  unfold decodeCmp at h
  split at h
  case h_1 c hc =>
    obtain ⟨hz, h⟩ := mustZero_eq_ok.mp h
    exact hasWord_of_ok h rfl rfl
      (cmpWord_eq_iff.mpr ⟨BitVec.eq_of_toNat_eq hop, rfl, Cond.ofCode_eq_some.mp hc, rfl, rfl, hz⟩)
  case h_2 => cases h

theorem hasWord_of_decodeCmpi (hop : (field w 26 6).toNat = 0x0C) (h : decodeCmpi w = .ok i) : i.HasWord w := by
  unfold decodeCmpi at h
  split at h
  case h_1 c hc =>
    exact hasWord_of_ok h rfl rfl
      (cmpiWord_eq_iff.mpr ⟨BitVec.eq_of_toNat_eq hop, rfl, Cond.ofCode_eq_some.mp hc, rfl, rfl⟩)
  case h_2 => cases h

theorem hasWord_of_decodeLd (hop : (field w 26 6).toNat = 0x14) (h : decodeLd w = .ok i) : i.HasWord w := by
  unfold decodeLd at h
  split at h
  case h_8 => cases h
  all_goals
    rename_i hk
    exact hasWord_of_ok h rfl rfl
      (fmtM_eq_iff.mpr ⟨BitVec.eq_of_toNat_eq hop, rfl, rfl, BitVec.eq_of_toNat_eq hk, rfl⟩)

theorem hasWord_of_decodeSt (hop : (field w 26 6).toNat = 0x15) (h : decodeSt w = .ok i) : i.HasWord w := by
  unfold decodeSt at h
  split at h
  case h_5 => cases h
  all_goals
    rename_i hk
    exact hasWord_of_ok h rfl rfl
      (fmtM_eq_iff.mpr ⟨BitVec.eq_of_toNat_eq hop, rfl, rfl, BitVec.eq_of_toNat_eq hk, rfl⟩)

theorem hasWord_of_decodeAtomic (hop : (field w 26 6).toNat = 0x18) (h : decodeAtomic w = .ok i) : i.HasWord w := by
  obtain ⟨sc, hsc, h⟩ := withScope_eq_ok.mp h
  split at h
  case h_11 => cases h
  all_goals
    rename_i hfn
    exact hasWord_of_ok h rfl rfl (fmtY_eq_iff.mpr
      ⟨BitVec.eq_of_toNat_eq hop, rfl, rfl, rfl, hsc, (Width.bit_ofBit _).symm, BitVec.eq_of_toNat_eq hfn⟩)

theorem hasWord_of_decodeFence (hop : (field w 26 6).toNat = 0x19) (h : decodeFence w = .ok i) : i.HasWord w := by
  obtain ⟨hregs, h⟩ := mustZero_eq_ok.mp h
  obtain ⟨hd, ha, hb⟩ := field_11_15_eq_zero_iff.mp hregs
  obtain ⟨hw, h⟩ := mustZero_eq_ok.mp h
  obtain ⟨sc, hsc, h⟩ := withScope_eq_ok.mp h
  split at h
  case h_4 => cases h
  all_goals
    rename_i hfn
    exact hasWord_of_ok h rfl rfl
      (fmtY_eq_iff.mpr ⟨BitVec.eq_of_toNat_eq hop, hd, ha, hb, hsc, hw, BitVec.eq_of_toNat_eq hfn⟩)

theorem hasWord_of_decodePresence (hop : (field w 26 6).toNat = 0x1A) (h : decodePresence w = .ok i) : i.HasWord w := by
  obtain ⟨hb, h⟩ := mustZero_eq_ok.mp h
  split at h
  case h_1 hfn =>
    obtain ⟨sc, hsc, h⟩ := withScope_eq_ok.mp h
    exact hasWord_of_ok h rfl rfl (fmtY_eq_iff.mpr
      ⟨BitVec.eq_of_toNat_eq hop, rfl, rfl, hb, hsc, (Width.bit_ofBit _).symm, BitVec.eq_of_toNat_eq hfn⟩)
  case h_2 hfn =>
    obtain ⟨hz, h⟩ := mustZero_eq_ok.mp h
    obtain ⟨hsc, hw⟩ := field_6_5_eq_zero_iff.mp hz
    obtain ⟨hd, h⟩ := mustZero_eq_ok.mp h
    exact hasWord_of_ok h rfl rfl
      (fmtY_eq_iff.mpr ⟨BitVec.eq_of_toNat_eq hop, hd, rfl, hb, hsc, hw, BitVec.eq_of_toNat_eq hfn⟩)
  case h_3 hfn =>
    obtain ⟨hz, h⟩ := mustZero_eq_ok.mp h
    obtain ⟨hsc, hw⟩ := field_6_5_eq_zero_iff.mp hz
    exact hasWord_of_ok h rfl rfl
      (fmtY_eq_iff.mpr ⟨BitVec.eq_of_toNat_eq hop, rfl, rfl, hb, hsc, hw, BitVec.eq_of_toNat_eq hfn⟩)
  case h_4 => cases h

theorem hasWord_of_decodeSc (hop : (field w 26 6).toNat = 0x1B) (h : decodeSc w = .ok i) : i.HasWord w := by
  unfold decodeSc at h
  split at h
  case isTrue hsc =>
    split at h
    case h_1 hfn =>
      obtain ⟨hb, h⟩ := mustZero_eq_ok.mp h
      exact hasWord_of_ok h rfl rfl (fmtY_eq_iff.mpr
        ⟨BitVec.eq_of_toNat_eq hop, rfl, rfl, hb, hsc, (Width.bit_ofBit _).symm, BitVec.eq_of_toNat_eq hfn⟩)
    case h_2 hfn =>
      obtain ⟨hd, h⟩ := mustZero_eq_ok.mp h
      exact hasWord_of_ok h rfl rfl (fmtY_eq_iff.mpr
        ⟨BitVec.eq_of_toNat_eq hop, hd, rfl, rfl, hsc, (Width.bit_ofBit _).symm, BitVec.eq_of_toNat_eq hfn⟩)
    case h_3 => cases h
  case isFalse => cases h

theorem hasWord_of_decodeStage (hop : (field w 26 6).toNat = 0x20) (h : decodeStage w = .ok i) : i.HasWord w := by
  obtain ⟨hd, h⟩ := mustZero_eq_ok.mp h
  obtain ⟨hb, h⟩ := mustZero_eq_ok.mp h
  obtain ⟨hz, h⟩ := mustZero_eq_ok.mp h
  split at h
  case h_3 => cases h
  all_goals
    rename_i hfn
    exact hasWord_of_ok h rfl rfl (fmtA_eq_iff.mpr ⟨BitVec.eq_of_toNat_eq hop, hd, rfl, hb,
      field_0_11_eq_stage_iff.mpr ⟨BitVec.eq_of_toNat_eq hfn, hz⟩⟩)

theorem hasWord_of_decodeRun (hop : (field w 26 6).toNat = 0x21) (h : decodeRun w = .ok i) : i.HasWord w := by
  obtain ⟨hd, h⟩ := mustZero_eq_ok.mp h
  obtain ⟨hb, h⟩ := mustZero_eq_ok.mp h
  obtain ⟨hz, h⟩ := mustZero_eq_ok.mp h
  split at h
  case h_1 hfn =>
    obtain ⟨ha, h⟩ := mustZero_eq_ok.mp h
    exact hasWord_of_ok h rfl rfl (fmtA_eq_iff.mpr ⟨BitVec.eq_of_toNat_eq hop, hd, ha, hb,
      field_0_11_eq_stage_iff.mpr ⟨BitVec.eq_of_toNat_eq hfn, hz⟩⟩)
  case h_2 hfn =>
    exact hasWord_of_ok h rfl rfl (fmtA_eq_iff.mpr ⟨BitVec.eq_of_toNat_eq hop, hd, rfl, hb,
      field_0_11_eq_stage_iff.mpr ⟨BitVec.eq_of_toNat_eq hfn, hz⟩⟩)
  case h_3 => cases h

theorem hasWord_of_decodePort (hop : (field w 26 6).toNat = 0x22) (h : decodePort w = .ok i) : i.HasWord w := by
  obtain ⟨hz, h⟩ := mustZero_eq_ok.mp h
  split at h
  case h_1 hs hk hx | h_3 hs hk hx =>
    obtain ⟨hd, h⟩ := mustZero_eq_ok.mp h
    exact hasWord_of_limited h rfl (fmtA_eq_iff.mpr ⟨BitVec.eq_of_toNat_eq hop, hd, rfl, rfl, field_0_11_eq_inj_iff.mpr
      ⟨BitVec.eq_of_toNat_eq hs, rfl, BitVec.eq_of_toNat_eq hk, BitVec.eq_of_toNat_eq hx, hz⟩⟩)
  case h_2 hs hk hx =>
    obtain ⟨hd, h⟩ := mustZero_eq_ok.mp h
    have hone : field w 1 1 = 1#1 := eq_one_of_ne_zero fun h0 => hx (congrArg BitVec.toNat h0)
    exact hasWord_of_limited h rfl (fmtA_eq_iff.mpr ⟨BitVec.eq_of_toNat_eq hop, hd, rfl, rfl, field_0_11_eq_inj_iff.mpr
      ⟨BitVec.eq_of_toNat_eq hs, rfl, BitVec.eq_of_toNat_eq hk, hone, hz⟩⟩)
  case h_5 hs =>
    obtain ⟨hk, h⟩ := mustZero_eq_ok.mp h
    obtain ⟨ha, h⟩ := mustZero_eq_ok.mp h
    obtain ⟨hb, h⟩ := mustZero_eq_ok.mp h
    exact hasWord_of_limited h rfl (fmtA_eq_iff.mpr ⟨BitVec.eq_of_toNat_eq hop, rfl, ha, hb,
      field_0_11_eq_take_iff.mpr ⟨BitVec.eq_of_toNat_eq hs, rfl, hk, hz⟩⟩)
  all_goals cases h

theorem hasWord_of_decodeFabric
    (hop : (field w 26 6).toNat = 0x23 ∨ (field w 26 6).toNat = 0x24 ∨ (field w 26 6).toNat = 0x25)
    (h : decodeFabric w = .ok i) : i.HasWord w := by
  unfold decodeFabric at h
  split at h
  case h_1 hop =>
    obtain ⟨hz, h⟩ := mustZero_eq_ok.mp h
    obtain ⟨ha, hb, hfn⟩ := field_0_21_eq_zero_iff.mp hz
    exact hasWord_of_ok h rfl rfl (fmtA_eq_iff.mpr ⟨BitVec.eq_of_toNat_eq hop, rfl, ha, hb, hfn⟩)
  case h_2 hop =>
    obtain ⟨hz, h⟩ := mustZero_eq_ok.mp h
    obtain ⟨hd, ha, hb⟩ := field_11_15_eq_zero_iff.mp hz
    split at h
    case isTrue hr =>
      exact hasWord_of_ok h rfl rfl (fmtA_eq_iff.mpr
        ⟨BitVec.eq_of_toNat_eq hop, hd, ha, hb, field_0_11_eq_arc_iff.mpr ⟨hr, rfl⟩⟩)
    case isFalse hr =>
      exact hasWord_of_ok h rfl rfl (fmtA_eq_iff.mpr
        ⟨BitVec.eq_of_toNat_eq hop, hd, ha, hb, field_0_11_eq_arc_iff.mpr ⟨eq_one_of_ne_zero hr, rfl⟩⟩)
  case h_3 h23 h24 =>
    have hop : field w 26 6 = 0x25#6 := BitVec.eq_of_toNat_eq ((hop.resolve_left h23).resolve_left h24)
    split at h
    case h_1 hs =>
      obtain ⟨hd, h⟩ := mustZero_eq_ok.mp h
      obtain ⟨hb, h⟩ := mustZero_eq_ok.mp h
      obtain ⟨hz, h⟩ := mustZero_eq_ok.mp h
      exact hasWord_of_ok h rfl rfl (fmtA_eq_iff.mpr
        ⟨hop, hd, rfl, hb, field_0_11_eq_zero_iff.mpr ⟨BitVec.eq_of_toNat_eq hs, hz⟩⟩)
    case h_2 hs =>
      obtain ⟨hz, h⟩ := mustZero_eq_ok.mp h
      obtain ⟨hd, ha, hb⟩ := field_11_15_eq_zero_iff.mp hz
      obtain ⟨h8, h⟩ := mustZero_eq_ok.mp h
      exact hasWord_of_limited h rfl (fmtA_eq_iff.mpr
        ⟨hop, hd, ha, hb, field_0_11_eq_mode_iff.mpr ⟨BitVec.eq_of_toNat_eq hs, h8, rfl⟩⟩)
    case h_3 => cases h

theorem hasWord_of_decodeEngine (hop : (field w 26 6).toNat = 0x2C) (h : decodeEngine w = .ok i) : i.HasWord w := by
  obtain ⟨hb, h⟩ := mustZero_eq_ok.mp h
  obtain ⟨hz, h⟩ := mustZero_eq_ok.mp h
  split at h
  case h_4 hk =>
    obtain ⟨hd, h⟩ := mustZero_eq_ok.mp h
    obtain ⟨he, h⟩ := mustZero_eq_ok.mp h
    exact hasWord_of_ok h rfl rfl (fmtA_eq_iff.mpr ⟨BitVec.eq_of_toNat_eq hop, hd, rfl, hb,
      field_0_11_eq_engine_iff.mpr ⟨BitVec.eq_of_toNat_eq hk, he, hz⟩⟩)
  case h_5 => cases h
  all_goals
    rename_i hk
    exact hasWord_of_limited h rfl (fmtA_eq_iff.mpr ⟨BitVec.eq_of_toNat_eq hop, rfl, rfl, hb,
      field_0_11_eq_engine_iff.mpr ⟨BitVec.eq_of_toNat_eq hk, rfl, hz⟩⟩)

theorem hasWord_of_decodeCsr (hop : (field w 26 6).toNat = 0x30) (h : decodeCsr w = .ok i) : i.HasWord w := by
  unfold decodeCsr at h
  split at h
  case h_1 hk =>
    obtain ⟨ha, h⟩ := mustZero_eq_ok.mp h
    exact hasWord_of_limited h rfl (fmtI_eq_iff.mpr ⟨BitVec.eq_of_toNat_eq hop, rfl, ha,
      field_0_16_eq_csr_iff.mpr ⟨BitVec.eq_of_toNat_eq hk, rfl⟩⟩)
  case h_2 hk =>
    obtain ⟨hd, h⟩ := mustZero_eq_ok.mp h
    exact hasWord_of_limited h rfl (fmtI_eq_iff.mpr ⟨BitVec.eq_of_toNat_eq hop, hd, rfl,
      field_0_16_eq_csr_iff.mpr ⟨BitVec.eq_of_toNat_eq hk, rfl⟩⟩)
  case h_3 hk =>
    exact hasWord_of_limited h rfl (fmtI_eq_iff.mpr ⟨BitVec.eq_of_toNat_eq hop, rfl, rfl,
      field_0_16_eq_csr_iff.mpr ⟨BitVec.eq_of_toNat_eq hk, rfl⟩⟩)
  case h_4 => cases h

theorem hasWord_of_decodeSystem (hop : (field w 26 6).toNat = 0x31) (h : decodeSystem w = .ok i) : i.HasWord w := by
  obtain ⟨hz, h⟩ := mustZero_eq_ok.mp h
  obtain ⟨hd, ha⟩ := field_16_10_eq_zero_iff.mp hz
  split at h
  case h_1 hk =>
    exact hasWord_of_ok h rfl rfl (fmtI_eq_iff.mpr ⟨BitVec.eq_of_toNat_eq hop, hd, ha,
      field_0_16_eq_csr_iff.mpr ⟨BitVec.eq_of_toNat_eq hk, rfl⟩⟩)
  case h_5 => cases h
  all_goals
    rename_i hk
    obtain ⟨hc, h⟩ := mustZero_eq_ok.mp h
    exact hasWord_of_ok h rfl rfl (fmtI_eq_iff.mpr ⟨BitVec.eq_of_toNat_eq hop, hd, ha,
      field_0_16_eq_system_iff.mpr ⟨BitVec.eq_of_toNat_eq hk, hc⟩⟩)

/-- The arms of `decode` are the major opcodes in ascending order. -/
theorem hasWord_of_decode (h : decode w = .ok i) : i.HasWord w := by
  unfold decode at h
  split at h
  case h_1 hop => exact hasWord_of_decodeAlu hop h
  case h_2 hop | h_3 hop | h_4 hop | h_5 hop | h_17 hop =>
    exact hasWord_of_ok h rfl rfl (fmtI_eq_iff.mpr ⟨BitVec.eq_of_toNat_eq hop, rfl, rfl, rfl⟩)
  case h_6 hop | h_7 hop | h_8 hop =>
    obtain ⟨hz, h⟩ := mustZero_eq_ok.mp h
    exact hasWord_of_ok h rfl rfl
      (fmtI_eq_iff.mpr ⟨BitVec.eq_of_toNat_eq hop, rfl, rfl, field_0_16_eq_shift_iff.mpr ⟨hz, rfl⟩⟩)
  case h_9 hop => exact hasWord_of_decodeWide hop h
  case h_10 hop => exact hasWord_of_decodeBits hop h
  case h_11 hop => exact hasWord_of_decodeCmp hop h
  case h_12 hop => exact hasWord_of_decodeCmpi hop h
  case h_13 hop =>
    obtain ⟨hz, h⟩ := mustZero_eq_ok.mp h
    exact hasWord_of_ok h rfl rfl (plogWord_eq_iff.mpr ⟨BitVec.eq_of_toNat_eq hop, rfl, rfl, rfl, rfl, hz⟩)
  case h_14 hop =>
    obtain ⟨hz, h⟩ := mustZero_eq_ok.mp h
    exact hasWord_of_ok h rfl rfl
      (fmtA_eq_iff.mpr ⟨BitVec.eq_of_toNat_eq hop, rfl, rfl, rfl, field_0_11_eq_sel_iff.mpr ⟨rfl, hz⟩⟩)
  case h_15 hop =>
    split at h
    case isTrue hn =>
      exact hasWord_of_ok h rfl rfl (branchWord_eq_iff.mpr ⟨BitVec.eq_of_toNat_eq hop, rfl, hn, rfl⟩)
    case isFalse hn =>
      exact hasWord_of_ok h rfl rfl (branchWord_eq_iff.mpr ⟨BitVec.eq_of_toNat_eq hop, rfl, eq_one_of_ne_zero hn, rfl⟩)
  case h_16 hop =>
    exact hasWord_of_ok h rfl rfl (jalWord_eq_iff.mpr ⟨BitVec.eq_of_toNat_eq hop, rfl, rfl⟩)
  case h_18 hop => exact hasWord_of_decodeLd hop h
  case h_19 hop => exact hasWord_of_decodeSt hop h
  case h_20 hop =>
    obtain ⟨hb, h⟩ := mustZero_eq_ok.mp h
    obtain ⟨sc, hsc, h⟩ := withScope_eq_ok.mp h
    split at h
    case isTrue hfn =>
      exact hasWord_of_ok h rfl rfl (fmtY_eq_iff.mpr
        ⟨BitVec.eq_of_toNat_eq hop, rfl, rfl, hb, hsc, (Width.bit_ofBit _).symm, hfn⟩)
    case isFalse => cases h
  case h_21 hop =>
    obtain ⟨hd, h⟩ := mustZero_eq_ok.mp h
    obtain ⟨sc, hsc, h⟩ := withScope_eq_ok.mp h
    split at h
    case isTrue hfn =>
      exact hasWord_of_ok h rfl rfl (fmtY_eq_iff.mpr
        ⟨BitVec.eq_of_toNat_eq hop, hd, rfl, rfl, hsc, (Width.bit_ofBit _).symm, hfn⟩)
    case isFalse => cases h
  case h_22 hop => exact hasWord_of_decodeAtomic hop h
  case h_23 hop => exact hasWord_of_decodeFence hop h
  case h_24 hop => exact hasWord_of_decodePresence hop h
  case h_25 hop => exact hasWord_of_decodeSc hop h
  case h_26 hop => exact hasWord_of_decodeStage hop h
  case h_27 hop => exact hasWord_of_decodeRun hop h
  case h_28 hop => exact hasWord_of_decodePort hop h
  case h_29 hop => exact hasWord_of_decodeFabric (.inl hop) h
  case h_30 hop => exact hasWord_of_decodeFabric (.inr (.inl hop)) h
  case h_31 hop => exact hasWord_of_decodeFabric (.inr (.inr hop)) h
  case h_32 hop =>
    obtain ⟨hz, h⟩ := mustZero_eq_ok.mp h
    obtain ⟨hd, ha, hb⟩ := field_11_15_eq_zero_iff.mp hz
    obtain ⟨hlow, h⟩ := mustZero_eq_ok.mp h
    obtain ⟨sc, hsc, h⟩ := withScope_eq_ok.mp h
    exact hasWord_of_ok h rfl rfl
      (fmtA_eq_iff.mpr ⟨BitVec.eq_of_toNat_eq hop, hd, ha, hb, field_0_11_eq_scope_iff.mpr ⟨hsc, hlow⟩⟩)
  case h_33 hop =>
    obtain ⟨hz, h⟩ := mustZero_eq_ok.mp h
    exact hasWord_of_ok h rfl rfl (fmtA_eq_iff.mpr ⟨BitVec.eq_of_toNat_eq hop, rfl, rfl, rfl, hz⟩)
  case h_34 hop =>
    obtain ⟨hz, h⟩ := mustZero_eq_ok.mp h
    obtain ⟨hd, ha, hb⟩ := field_11_15_eq_zero_iff.mp hz
    obtain ⟨hmid, h⟩ := mustZero_eq_ok.mp h
    split at h
    case isTrue hr =>
      exact hasWord_of_ok h rfl rfl (fmtA_eq_iff.mpr
        ⟨BitVec.eq_of_toNat_eq hop, hd, ha, hb, field_0_11_eq_sema_iff.mpr ⟨hr, hmid, rfl⟩⟩)
    case isFalse hr =>
      exact hasWord_of_ok h rfl rfl (fmtA_eq_iff.mpr
        ⟨BitVec.eq_of_toNat_eq hop, hd, ha, hb, field_0_11_eq_semr_iff.mpr ⟨eq_one_of_ne_zero hr, hmid, rfl⟩⟩)
  case h_35 hop => exact hasWord_of_decodeEngine hop h
  case h_36 hop => exact hasWord_of_decodeCsr hop h
  case h_37 hop => exact hasWord_of_decodeSystem hop h
  case h_38 => cases h

end

/-! ## The word of a well-formed instruction decodes to it -/

/-- An instruction whose word is `v` has one that decodes to it when every word with the fields of `v` does. -/
theorem decodes_of_word {i : Instr} {v : W32} (hv : encode i = some v) (h : ∀ w, v = w → decode w = .ok i) :
    ∃ w, encode i = some w ∧ decode w = .ok i := ⟨v, hv, h v rfl⟩

/-- The instructions are taken by the fields of their words, in the order of the major opcodes; an instruction that is none of
them is a step of the device, and not well formed. -/
theorem exists_word_decode_of_wf {i : Instr} (hwf : i.wf = true) : ∃ w, encode i = some w ∧ decode w = .ok i := by
  cases i with
  | add d a b | sub d a b | mul d a b | mulh d a b | mulhn d a b | div d a b | divn d a b | rem d a b | remn d a b
  | and d a b | or d a b | xor d a b | andn d a b | sll d a b | srl d a b | sra d a b | min d a b | max d a b
  | minn d a b | maxn d a b | sh1add d a b | sh2add d a b | sh3add d a b =>
    refine decodes_of_word rfl fun w hw => ?_
    obtain ⟨hop, rfl, rfl, rfl, hfn⟩ := fmtA_eq_iff.mp hw
    obtain ⟨hz, hfn⟩ := field_0_11_eq_iff.mp hfn
    simp [decode, decodeAlu, mustZero, hop, hz, hfn]
  | popc d a | clz d a =>
    refine decodes_of_word rfl fun w hw => ?_
    obtain ⟨hop, rfl, rfl, hb, hfn⟩ := fmtA_eq_iff.mp hw
    obtain ⟨hz, hfn⟩ := field_0_11_eq_iff.mp hfn
    simp [decode, decodeAlu, mustZero, hop, hb, hz, hfn]
  | addi d a imm | andi d a imm | ori d a imm | xori d a imm | jalr d a imm =>
    refine decodes_of_word rfl fun w hw => ?_
    obtain ⟨hop, rfl, rfl, rfl⟩ := fmtI_eq_iff.mp hw
    simp [decode, hop]
  | slli d a n | srli d a n | srai d a n =>
    refine decodes_of_word rfl fun w hw => ?_
    obtain ⟨hop, rfl, rfl, himm⟩ := fmtI_eq_iff.mp hw
    obtain ⟨hz, rfl⟩ := field_0_16_eq_shift_iff.mp himm
    simp [decode, mustZero, hop, hz]
  | liz d h imm | lin d h imm | lik d h imm =>
    refine decodes_of_word rfl fun w hw => ?_
    obtain ⟨hop, rfl, rfl, hfn, hz, rfl⟩ := fmtW_eq_iff.mp hw
    simp [decode, decodeWide, mustZero, hop, hfn, hz]
  | ext d a pos lenm | exts d a pos lenm | ins d a pos lenm =>
    refine decodes_of_word rfl fun w hw => ?_
    obtain ⟨hop, rfl, rfl, rfl, rfl, hfn⟩ := fmtF_eq_iff.mp hw
    simp [decode, decodeBits, limited, hwf, hop, hfn]
  | cmp p c a b =>
    refine decodes_of_word rfl fun w hw => ?_
    obtain ⟨hop, rfl, hc, rfl, rfl, hz⟩ := cmpWord_eq_iff.mp hw
    simp [decode, decodeCmp, mustZero, Cond.ofCode_eq_some.mpr rfl, hop, hc, hz]
  | cmpi p c a imm =>
    refine decodes_of_word rfl fun w hw => ?_
    obtain ⟨hop, rfl, hc, rfl, rfl⟩ := cmpiWord_eq_iff.mp hw
    simp [decode, decodeCmpi, Cond.ofCode_eq_some.mpr rfl, hop, hc]
  | plog d a b tt =>
    refine decodes_of_word rfl fun w hw => ?_
    obtain ⟨hop, rfl, rfl, rfl, rfl, hz⟩ := plogWord_eq_iff.mp hw
    simp [decode, mustZero, hop, hz]
  | sel d a b p =>
    refine decodes_of_word rfl fun w hw => ?_
    obtain ⟨hop, rfl, rfl, rfl, hfn⟩ := fmtA_eq_iff.mp hw
    obtain ⟨rfl, hz⟩ := field_0_11_eq_sel_iff.mp hfn
    simp [decode, mustZero, hop, hz]
  | brc p off | brcNot p off =>
    refine decodes_of_word rfl fun w hw => ?_
    obtain ⟨hop, rfl, hn, rfl⟩ := branchWord_eq_iff.mp hw
    simp [decode, hop, hn]
  | jal d off =>
    refine decodes_of_word rfl fun w hw => ?_
    obtain ⟨hop, rfl, rfl⟩ := jalWord_eq_iff.mp hw
    simp [decode, hop]
  | ldI8 d a off | ldI16 d a off | ldI32 d a off | ld64 d a off | ldN8 d a off | ldN16 d a off | ldN32 d a off =>
    refine decodes_of_word rfl fun w hw => ?_
    obtain ⟨hop, rfl, rfl, hk, rfl⟩ := fmtM_eq_iff.mp hw
    simp [decode, decodeLd, hop, hk]
  | st8 d a off | st16 d a off | st32 d a off | st64 d a off =>
    refine decodes_of_word rfl fun w hw => ?_
    obtain ⟨hop, rfl, rfl, hk, rfl⟩ := fmtM_eq_iff.mp hw
    simp [decode, decodeSt, hop, hk]
  | lda d a sc x =>
    refine decodes_of_word rfl fun w hw => ?_
    obtain ⟨hop, rfl, rfl, hb, hsc, hx, hfn⟩ := fmtY_eq_iff.mp hw
    simp [decode, withScope_eq hsc, mustZero, hop, hb, hx, hfn]
  | stl a b sc x =>
    refine decodes_of_word rfl fun w hw => ?_
    obtain ⟨hop, hd, rfl, rfl, hsc, hx, hfn⟩ := fmtY_eq_iff.mp hw
    simp [decode, withScope_eq hsc, mustZero, hop, hd, hx, hfn]
  | aadd d a b sc x | aand d a b sc x | aor d a b sc x | axor d a b sc x | amin d a b sc x | amax d a b sc x
  | aminn d a b sc x | amaxn d a b sc x | aswp d a b sc x | acas d a b sc x =>
    refine decodes_of_word rfl fun w hw => ?_
    obtain ⟨hop, rfl, rfl, rfl, hsc, hx, hfn⟩ := fmtY_eq_iff.mp hw
    simp [decode, decodeAtomic, withScope_eq hsc, hop, hx, hfn]
  | fence sc | fenceAcq sc | fenceRel sc =>
    refine decodes_of_word rfl fun w hw => ?_
    obtain ⟨hop, hd, ha, hb, hsc, hx, hfn⟩ := fmtY_eq_iff.mp hw
    have hz := field_11_15_eq_zero_iff.mpr ⟨hd, ha, hb⟩
    simp [decode, decodeFence, withScope_eq hsc, mustZero, hop, hz, hx, hfn]
  | ldf d a sc x =>
    refine decodes_of_word rfl fun w hw => ?_
    obtain ⟨hop, rfl, rfl, hb, hsc, hx, hfn⟩ := fmtY_eq_iff.mp hw
    simp [decode, decodePresence, withScope_eq hsc, mustZero, hop, hb, hx, hfn]
  | pclr a =>
    refine decodes_of_word rfl fun w hw => ?_
    obtain ⟨hop, hd, rfl, hb, hsc, hx, hfn⟩ := fmtY_eq_iff.mp hw
    have hz := field_6_5_eq_zero_iff.mpr ⟨hsc, hx⟩
    simp [decode, decodePresence, mustZero, hop, hd, hb, hz, hfn]
  | probe d a =>
    refine decodes_of_word rfl fun w hw => ?_
    obtain ⟨hop, rfl, rfl, hb, hsc, hx, hfn⟩ := fmtY_eq_iff.mp hw
    have hz := field_6_5_eq_zero_iff.mpr ⟨hsc, hx⟩
    simp [decode, decodePresence, mustZero, hop, hb, hz, hfn]
  | scld d a x =>
    refine decodes_of_word rfl fun w hw => ?_
    obtain ⟨hop, rfl, rfl, hb, hsc, hx, hfn⟩ := fmtY_eq_iff.mp hw
    simp [decode, decodeSc, mustZero, hop, hb, hsc, hx, hfn]
  | scst a b x =>
    refine decodes_of_word rfl fun w hw => ?_
    obtain ⟨hop, hd, rfl, rfl, hsc, hx, hfn⟩ := fmtY_eq_iff.mp hw
    simp [decode, decodeSc, mustZero, hop, hd, hsc, hx, hfn]
  | pref a | cfg a =>
    refine decodes_of_word rfl fun w hw => ?_
    obtain ⟨hop, hd, rfl, hb, hfn⟩ := fmtA_eq_iff.mp hw
    obtain ⟨hk, hz⟩ := field_0_11_eq_stage_iff.mp hfn
    simp [decode, decodeStage, mustZero, hop, hd, hb, hk, hz]
  | run =>
    refine decodes_of_word rfl fun w hw => ?_
    obtain ⟨hop, hd, ha, hb, hfn⟩ := fmtA_eq_iff.mp hw
    obtain ⟨hk, hz⟩ := field_0_11_eq_stage_iff.mp hfn
    simp [decode, decodeRun, mustZero, hop, hd, ha, hb, hk, hz]
  | swo a =>
    refine decodes_of_word rfl fun w hw => ?_
    obtain ⟨hop, hd, rfl, hb, hfn⟩ := fmtA_eq_iff.mp hw
    obtain ⟨hk, hz⟩ := field_0_11_eq_stage_iff.mp hfn
    simp [decode, decodeRun, mustZero, hop, hd, hb, hk, hz]
  | injData a b p | injDataP a b p | injStop a b p =>
    refine decodes_of_word rfl fun w hw => ?_
    obtain ⟨hop, hd, rfl, rfl, hfn⟩ := fmtA_eq_iff.mp hw
    obtain ⟨hs, rfl, hk, hx, hz⟩ := field_0_11_eq_inj_iff.mp hfn
    simp [decode, decodePort, mustZero, limited, hwf, hop, hd, hs, hk, hx, hz]
  | take d p =>
    refine decodes_of_word rfl fun w hw => ?_
    obtain ⟨hop, rfl, ha, hb, hfn⟩ := fmtA_eq_iff.mp hw
    obtain ⟨hs, rfl, hk, hz⟩ := field_0_11_eq_take_iff.mp hfn
    simp [decode, decodePort, mustZero, limited, hwf, hop, ha, hb, hs, hk, hz]
  | wex d =>
    refine decodes_of_word rfl fun w hw => ?_
    obtain ⟨hop, rfl, ha, hb, hfn⟩ := fmtA_eq_iff.mp hw
    have hz := field_0_21_eq_zero_iff.mpr ⟨ha, hb, hfn⟩
    simp [decode, decodeFabric, mustZero, hop, hz]
  | halta arc | rela arc =>
    refine decodes_of_word rfl fun w hw => ?_
    obtain ⟨hop, hd, ha, hb, hfn⟩ := fmtA_eq_iff.mp hw
    obtain ⟨hr, rfl⟩ := field_0_11_eq_arc_iff.mp hfn
    have hz := field_11_15_eq_zero_iff.mpr ⟨hd, ha, hb⟩
    simp [decode, decodeFabric, mustZero, hop, hz, hr]
  | icomma a =>
    refine decodes_of_word rfl fun w hw => ?_
    obtain ⟨hop, hd, rfl, hb, hfn⟩ := fmtA_eq_iff.mp hw
    obtain ⟨hs, hz⟩ := field_0_11_eq_zero_iff.mp hfn
    simp [decode, decodeFabric, mustZero, hop, hd, hb, hs, hz]
  | imode m =>
    refine decodes_of_word rfl fun w hw => ?_
    obtain ⟨hop, hd, ha, hb, hfn⟩ := fmtA_eq_iff.mp hw
    obtain ⟨hs, h8, rfl⟩ := field_0_11_eq_mode_iff.mp hfn
    have hz := field_11_15_eq_zero_iff.mpr ⟨hd, ha, hb⟩
    simp [decode, decodeFabric, mustZero, limited, hwf, hop, hz, hs, h8]
  | bar sc =>
    refine decodes_of_word rfl fun w hw => ?_
    obtain ⟨hop, hd, ha, hb, hfn⟩ := fmtA_eq_iff.mp hw
    obtain ⟨hsc, hlow⟩ := field_0_11_eq_scope_iff.mp hfn
    have hz := field_11_15_eq_zero_iff.mpr ⟨hd, ha, hb⟩
    simp [decode, withScope_eq hsc, mustZero, hop, hz, hlow]
  | launch d a b =>
    refine decodes_of_word rfl fun w hw => ?_
    obtain ⟨hop, rfl, rfl, rfl, hz⟩ := fmtA_eq_iff.mp hw
    simp [decode, mustZero, hop, hz]
  | sema n =>
    refine decodes_of_word rfl fun w hw => ?_
    obtain ⟨hop, hd, ha, hb, hfn⟩ := fmtA_eq_iff.mp hw
    obtain ⟨hr, hmid, rfl⟩ := field_0_11_eq_sema_iff.mp hfn
    have hz := field_11_15_eq_zero_iff.mpr ⟨hd, ha, hb⟩
    simp [decode, mustZero, hop, hz, hr, hmid]
  | semr n =>
    refine decodes_of_word rfl fun w hw => ?_
    obtain ⟨hop, hd, ha, hb, hfn⟩ := fmtA_eq_iff.mp hw
    obtain ⟨hr, hmid, rfl⟩ := field_0_11_eq_semr_iff.mp hfn
    have hz := field_11_15_eq_zero_iff.mpr ⟨hd, ha, hb⟩
    simp [decode, mustZero, hop, hz, hr, hmid]
  | copy d a e | conv d a e | coll d a e =>
    refine decodes_of_word rfl fun w hw => ?_
    obtain ⟨hop, rfl, rfl, hb, hfn⟩ := fmtA_eq_iff.mp hw
    obtain ⟨hk, rfl, hz⟩ := field_0_11_eq_engine_iff.mp hfn
    simp [decode, decodeEngine, mustZero, limited, hwf, hop, hb, hk, hz]
  | ewait a =>
    refine decodes_of_word rfl fun w hw => ?_
    obtain ⟨hop, hd, rfl, hb, hfn⟩ := fmtA_eq_iff.mp hw
    obtain ⟨hk, he, hz⟩ := field_0_11_eq_engine_iff.mp hfn
    simp [decode, decodeEngine, mustZero, hop, hd, hb, hk, he, hz]
  | csrr d c =>
    refine decodes_of_word rfl fun w hw => ?_
    obtain ⟨hop, rfl, ha, himm⟩ := fmtI_eq_iff.mp hw
    obtain ⟨hk, rfl⟩ := field_0_16_eq_csr_iff.mp himm
    simp [decode, decodeCsr, mustZero, limited, hwf, hop, ha, hk]
  | csrw a c =>
    refine decodes_of_word rfl fun w hw => ?_
    obtain ⟨hop, hd, rfl, himm⟩ := fmtI_eq_iff.mp hw
    obtain ⟨hk, rfl⟩ := field_0_16_eq_csr_iff.mp himm
    simp [decode, decodeCsr, mustZero, limited, hwf, hop, hd, hk]
  | csrx d a c =>
    refine decodes_of_word rfl fun w hw => ?_
    obtain ⟨hop, rfl, rfl, himm⟩ := fmtI_eq_iff.mp hw
    obtain ⟨hk, rfl⟩ := field_0_16_eq_csr_iff.mp himm
    simp [decode, decodeCsr, limited, hwf, hop, hk]
  | trap c =>
    refine decodes_of_word rfl fun w hw => ?_
    obtain ⟨hop, hd, ha, himm⟩ := fmtI_eq_iff.mp hw
    obtain ⟨hk, rfl⟩ := field_0_16_eq_csr_iff.mp himm
    have hz := field_16_10_eq_zero_iff.mpr ⟨hd, ha⟩
    simp [decode, decodeSystem, mustZero, hop, hz, hk]
  | rtt | wfe | halt =>
    refine decodes_of_word rfl fun w hw => ?_
    obtain ⟨hop, hd, ha, himm⟩ := fmtI_eq_iff.mp hw
    obtain ⟨hk, hc⟩ := field_0_16_eq_system_iff.mp himm
    have hz := field_16_10_eq_zero_iff.mpr ⟨hd, ha⟩
    simp [decode, decodeSystem, mustZero, hop, hz, hk, hc]
  | _ => nomatch hwf

end Sys2Proof

namespace Sys2Proof.Proofs

/-- Settles O56: each word is its fields, and the decoder and the encoder read and write the same fields. -/
theorem encodeDecode : Obligations.EncodeDecode :=
  ⟨fun _ hwf => exists_word_decode_of_wf hwf, fun _ _ h => hasWord_of_decode h⟩

/-- Settles O55: the decoder run on each word. -/
theorem decodeWords : Obligations.DecodeWords := by
  and_intros <;> rfl

end Sys2Proof.Proofs
end

section
/-! SUPPORT. What a step runs (R156, R158, R68): the turn of a core, by what its fetch gives, and the turns of the agenda. -/

namespace Sys2Proof.Machine

/-! ## The turn of a core -/

theorem runWord_of_ok {s : State} {w : W32} {i : Instr} (h : decode w = .ok i) : runWord w s = exec i s := by
  simp [runWord, h]

theorem runWord_of_none {s : State} {w : W32} (h : (decode w).toOption = none) :
    runWord w s = exec (.illegalInstruction w) s := by
  cases hw : decode w with
  | ok i => simp [hw, Except.toOption] at h
  | error e => simp [runWord, hw]

theorem coreTurn_of_fetched {s : State} {w : W32} (h : s.me.fetched = some w) : coreTurn s = runWord w s := by
  simp [coreTurn, h]

theorem coreTurn_of_word {s s1 : State} {w : W32} (h : s.me.fetched = none) (hf : s.fetchWord = (s1, .ok w)) :
    coreTurn s = runWord w (Claims.holding s1 w) := by
  simp [coreTurn, h, hf, Claims.holding]

theorem coreTurn_of_trap {s s1 : State} {u : Nat} (h : s.me.fetched = none) (hf : s.fetchWord = (s1, .trap u)) :
    coreTurn s = exec .fetch s := by
  simp [coreTurn, h, hf]

/-! ## The management core's fetch (R158) -/

theorem toNat_append_eq {u v : Nat} (x : BitVec u) (y : BitVec v) : (x ++ y).toNat = x.toNat * 2 ^ v + y.toNat := by
  rw [BitVec.toNat_append, ← Nat.shiftLeft_add_eq_or_of_lt y.isLt, Nat.shiftLeft_eq]

/-- Four bytes are the word whose number they are, the lowest address first (R3). -/
theorem wordOfBytes_eq {bs : List Byte} (h : bs.length = 4) : wordOfBytes bs = BitVec.ofNat 32 (leNat bs) := by
  match bs, h with
  | [b0, b1, b2, b3], _ =>
    apply BitVec.eq_of_toNat_eq
    simp only [wordOfBytes, leNat]
    rw [toNat_append_eq, toNat_append_eq, toNat_append_eq, BitVec.toNat_ofNat]
    omega

theorem fetchWord_sram {s : State} (hcur : s.cur = .mc) (hpc : s.mc.pc.toNat < 0x200000) :
    s.fetchWord = (Claims.fetchSettled s, .ok (Claims.sramWord s)) := by
  have hpc' : ¬ 0x200000 ≤ s.mc.pc.toNat := by omega
  have hlen : (s.mem.bytes (.sram s.mc.pc.toNat) 4).length = 4 := Memory.length_readAll _ _ _
  simp [State.fetchWord, State.fetchAt, hcur, State.me, State.core, hpc', State.coreEcc, coreIsMc, State.loadAt,
    State.loadBytes, State.charge, Place.charge, Claims.fetchSettled, Claims.sramWord, wordOfBytes_eq hlen]

/-! ## A step -/

theorem step_of_coreToMove {s : State} (h : Claims.CoreToMove s) : step s = coreTurn s := by
  obtain ⟨hpow, hag, hrun, hwait⟩ := h
  simp [step, turn, hpow, hag, idleTurn, Core.canRun, hrun, hwait]

theorem step_of_event {s : State} {i : Instr} {rest : List Turn} (hpow : s.power = .on) (hag : s.agenda = .event i :: rest)
    (hi : encode i = none) : step s = exec i { s with agenda := rest } := by
  simp [step, turn, hpow, hag, takeTurn, hi]

theorem step_of_core {s : State} {c : CoreId} {rest : List Turn} (hpow : s.power = .on) (hag : s.agenda = .core c :: rest)
    (hrun : (s.core c).run = .running) : step s = coreTurn { s with agenda := rest, cur := c } := by
  have hme : ({ s with agenda := rest, cur := c } : State).me = s.core c := by cases c <;> rfl
  rw [step, turn, if_pos hpow, hag]
  exact if_pos (by rw [Core.canRun, hme, hrun]; rfl)

theorem step_of_scPosted {s : State} (hpow : s.power = .on) (hag : s.agenda = []) (hrun : s.me.run = .running)
    (hwait : s.me.wait = .scPosted) : step s = exec .scAccessPerform s := by
  simp [step, turn, hpow, hag, idleTurn, Core.canRun, hrun, hwait]

end Sys2Proof.Machine

namespace Sys2Proof.Proofs

open Sys2Proof.Machine Sys2Proof.Claims

/-- Settles O54: each clause is the turn it names, and what the fetch gives it. -/
theorem stepRunsDecoded : Obligations.StepRunsDecoded := by
  refine ⟨fun s w i hs hw hi => ?held, fun s s1 w i hs hn hf hi => ?fetched, fun s s1 w hs hn hf hi => ?illegal,
    fun s i hs hcur hn hpc hi => ?sram, fun s s1 u hs hn hf => ?trap, fun s i rest => step_of_event,
    fun s c rest w i hpow hag hrun hw hi => ?core, fun s => step_of_scPosted⟩
  case held => rw [step_of_coreToMove hs, coreTurn_of_fetched hw, runWord_of_ok hi]
  case fetched => rw [step_of_coreToMove hs, coreTurn_of_word hn hf, runWord_of_ok hi]
  case illegal => rw [step_of_coreToMove hs, coreTurn_of_word hn hf, runWord_of_none hi]
  case sram =>
    have hme : s.me = s.mc := by simp [State.me, State.core, hcur]
    rw [step_of_coreToMove hs, coreTurn_of_word (hme ▸ hn) (fetchWord_sram hcur hpc), runWord_of_ok hi]
  case trap => rw [step_of_coreToMove hs, coreTurn_of_trap hn hf]
  case core =>
    have hme : ({ s with agenda := rest, cur := c } : State).me = s.core c := by cases c <;> rfl
    rw [step_of_core hpow hag hrun, coreTurn_of_fetched (hme ▸ hw), runWord_of_ok hi]

end Sys2Proof.Proofs
end

section
/-! SUPPORT. Trap entry (R184 to R186), lists in ascending order, and the reads of the CSRs (R164, R191, R193). -/

namespace Sys2Proof.Machine

/-! ## Trap entry (R184 to R186) -/

section
variable {s : State} {r : Nat} (cause : Nat) (addr info : W64) (code : BitVec 12) (word : W32)

theorem trapEntry_mc (hcur : s.cur = .mc) (h : ¬s.mc.trap.status.getLsbD 2) : trapEntry s cause addr info code word =
      { s.dropCoreReads .mc with mc := { s.mc with
          trap := trapRegs s.mc.trap 6#64 s.mc.pc cause addr info code word, pc := s.mcr.mtvec, wait := .none,
          fetched := none } } := by
  cases s; cases hcur
  exact if_neg h

theorem trapEntry_mc_inhibited (hcur : s.cur = .mc) (h : s.mc.trap.status.getLsbD 2) :
    trapEntry s cause addr info code word = mcStop (s.dropCoreReads .mc) := by
  cases s; cases hcur
  exact if_pos h

theorem trapEntry_seq (hcur : s.cur = .seq r) (h : ¬s.me.priv = .supervisor) : trapEntry s cause addr info code word =
      (s.dropCoreReads (.seq r)).setMe { s.me with
          trap := trapRegs s.me.trap (BitVec.ofNat 64 s.me.priv.code) s.me.pc cause addr info code word,
          priv := .supervisor, pc := 0#64, wait := .none, fetched := none } := by
  cases s; cases hcur
  exact if_neg h

theorem trapEntry_seq_supervisor (hcur : s.cur = .seq r) (h : s.me.priv = .supervisor) :
    trapEntry s cause addr info code word = doubleFault (s.dropCoreReads (.seq r)) r := by
  cases s; cases hcur
  exact if_pos h

theorem trapRegs_eq (old : TrapRegs) (status pc : W64) : trapRegs old status pc cause addr info code word =
    { status := status, pc := if cause = 0x0A then pc + 4#64 else pc,
      cause := BitVec.ofNat 64 (if cause = 0x0A then cause + 256 * code.toNat else cause), addr := addr, info := info,
      word := if cause = 0x04 then 0#64 else word.setWidth 64, scratch0 := old.scratch0, scratch1 := old.scratch1 } := by
  unfold trapRegs causeTrap causeFetch
  split <;> rfl

end

@[simp] theorem State.core_dropCoreReads (s : State) (c d : CoreId) : (s.dropCoreReads c).core d = s.core d := by
  cases d <;> rfl

theorem State.me_withDisp (s : State) (d : Disp) : ({ s with disp := d } : State).me = s.me := by
  unfold State.me
  cases s.cur <;> rfl

/-- A double fault changes the core and the dispatcher alone. -/
theorem doubleFault_eq (s : State) (r : Nat) : ∃ d, doubleFault s r =
      { s.setCore (.seq r) { s.core (.seq r) with run := .wedged, wait := .none, fetched := none } with disp := d } ∧
    .doubleFault r ∈ d.notices ∧
    ∀ k, s.clusterOf r = some k → ∃ f ∈ d.fatal, f.cluster = k ∧ f.cls = 0x12#8 ∧ f.region = r := by
  unfold doubleFault
  cases hk : s.clusterOf r with
  | none => exact ⟨_, rfl, by simp, by simp⟩
  | some k => exact ⟨_, rfl, by simp, by simp⟩

end Sys2Proof.Machine

namespace Sys2Proof.Claims

open Sys2Proof.Machine

/-- Trap entry is the one R184 to R186 describe, on every core and at every level. -/
theorem trapped_trapEntry (s : State) (cause : Nat) (addr info : W64) (code : BitVec 12) (word : W32) :
    Trapped s (trapEntry s cause addr info code word) cause addr info code word := by
  cases hcur : s.cur with
  | mc =>
    have hme : s.me = s.mc := by rw [State.me, hcur]; rfl
    unfold Trapped
    simp only [hcur, hme]
    by_cases hinh : s.mc.trap.status.getLsbD 2
    · rw [if_pos hinh, trapEntry_mc_inhibited _ _ _ _ _ hcur hinh]
      exact ⟨rfl, hcur, by rw [State.me]; simp [mcStop, hcur, State.core], by simp [mcStop]⟩
    · rw [if_neg hinh, trapEntry_mc _ _ _ _ _ hcur hinh, trapRegs_eq]
      exact ⟨rfl, hcur, by rw [State.me]; simp [hcur, State.core]⟩
  | seq r =>
    have hcore : s.core (.seq r) = s.me := by rw [State.me, hcur]
    unfold Trapped
    simp only [hcur]
    by_cases hsup : s.me.priv = .supervisor
    · obtain ⟨d, hd, hnotice, hfatal⟩ := doubleFault_eq (s.dropCoreReads (.seq r)) r
      rw [if_pos hsup, trapEntry_seq_supervisor _ _ _ _ _ hcur hsup, hd]
      refine ⟨?_, ?_, ?_, hnotice, hfatal⟩
      · simp
      · simp [hcur]
      · rw [State.me_withDisp, State.me]
        simp [hcur, hcore]
    · rw [if_neg hsup, trapEntry_seq _ _ _ _ _ hcur hsup, trapRegs_eq]
      exact ⟨by simp, by simp [hcur], by simp⟩

theorem raises_of_trap {s : State} {i : Instr} {w : W32} {cause : Nat} {addr info : W64} (hw : encode i = some w)
    (h : exec i s = trap s i cause addr info) : Raises i s cause addr info := by
  have hword : wordOf i = w := by simp [wordOf, hw]
  exact ⟨w, hw, _, h, hword ▸ trapped_trapEntry s cause addr info 0#12 _⟩

theorem writesReg_of_writeReg {s : State} {i : Instr} {d : SReg} {v : W64} (h : exec i s = writeReg s d v) :
    WritesReg i s d v := by
  refine ⟨_, h, ?_, ?_, ?_, ?_⟩
  · simp [OnlyCore]
  · rw [State.me_setMe]
    unfold Core.setReg
    split <;> rfl
  · rw [State.me_setMe]
    intro e
    exact Core.reg_setReg s.me d e v
  · simp

end Sys2Proof.Claims

namespace Sys2Proof.Machine

/-! ## Sorted lists -/

section
variable {α : Type} (f : α → Nat)

theorem insertBy_perm (x : α) (l : List α) : (insertBy f x l).Perm (x :: l) := by
  induction l with
  | nil => exact .refl _
  | cons y t ih =>
    unfold insertBy
    split
    · exact .refl _
    · exact (ih.cons y).trans (.swap x y t)

theorem insertBy_pairwise (x : α) {l : List α} (h : l.Pairwise (f · ≤ f ·)) : (insertBy f x l).Pairwise (f · ≤ f ·) := by
  induction l with
  | nil => simp [insertBy]
  | cons y t ih =>
    obtain ⟨hy, ht⟩ := List.pairwise_cons.mp h
    unfold insertBy
    split
    case isTrue hlt =>
      refine List.pairwise_cons.mpr ⟨fun z hz => ?_, h⟩
      obtain rfl | hz := List.mem_cons.mp hz
      · exact hlt.le
      · exact hlt.le.trans (hy z hz)
    case isFalse hge =>
      refine List.pairwise_cons.mpr ⟨fun z hz => ?_, ih ht⟩
      obtain rfl | hz := List.mem_cons.mp ((insertBy_perm f x t).mem_iff.mp hz)
      · exact Nat.le_of_not_lt hge
      · exact hy z hz

theorem sortBy_perm (l : List α) : (sortBy f l).Perm l := by
  have h (l t : List α) : (l.foldl (fun t x => insertBy f x t) t).Perm (l ++ t) := by
    induction l generalizing t with
    | nil => exact .refl _
    | cons x l ih => exact (ih _).trans (((insertBy_perm f x t).append_left l).trans List.perm_middle)
  simpa [sortBy] using h l []

theorem sortBy_pairwise (l : List α) : (sortBy f l).Pairwise (f · ≤ f ·) := by
  have h (l t : List α) (ht : t.Pairwise (f · ≤ f ·)) :
      (l.foldl (fun t x => insertBy f x t) t).Pairwise (f · ≤ f ·) := by
    induction l generalizing t with
    | nil => exact ht
    | cons x l ih => exact ih _ (insertBy_pairwise f x ht)
  exact h l [] .nil

variable {f}

/-- The element of the least number comes first. -/
theorem head?_sortBy {l : List α} {x : α} (hx : x ∈ l) (hmin : ∀ y ∈ l, y ≠ x → f x < f y) :
    (sortBy f l).head? = some x := by
  have hperm := sortBy_perm f l
  have hsorted := sortBy_pairwise f l
  cases hl : sortBy f l with
  | nil => simp [hl] at hperm; simp [hperm] at hx
  | cons y t =>
    rw [hl] at hperm hsorted
    have hle : f y ≤ f x := by
      obtain rfl | hmem := List.mem_cons.mp (hperm.mem_iff.mpr hx)
      · exact le_rfl
      · exact (List.pairwise_cons.mp hsorted).1 x hmem
    by_contra hne
    have := hmin y (hperm.mem_iff.mp List.mem_cons_self) (by simpa using hne)
    omega

/-- The element of the greatest number comes last. -/
theorem getLast?_sortBy {l : List α} {x : α} (hx : x ∈ l) (hmax : ∀ y ∈ l, y ≠ x → f y < f x) :
    (sortBy f l).getLast? = some x := by
  have hperm := sortBy_perm f l
  have hsorted := sortBy_pairwise f l
  obtain hl | ⟨t, y, hl⟩ := List.eq_nil_or_concat (sortBy f l)
  · rw [hl] at hperm
    exact absurd (hperm.mem_iff.mpr hx) List.not_mem_nil
  · rw [hl, List.concat_eq_append] at hperm hsorted
    have hle : f x ≤ f y := by
      obtain hmem | hmem := List.mem_append.mp (hperm.mem_iff.mpr hx)
      · exact (List.pairwise_append.mp hsorted).2.2 x hmem y (List.mem_singleton_self y)
      · exact (List.mem_singleton.mp hmem ▸ le_rfl)
    by_contra hne
    have := hmax y (hperm.mem_iff.mp (by simp)) (by simpa [hl] using hne)
    omega

end

/-! ## The checks before a CSR is accessed (R67, R68, R164) -/

theorem csrAccess_ok {s : State} {n : BitVec 12} (i : Instr) (k : Out) (hon : csrOn s.cur n = true)
    (hlevel : csrLevel n ≤ s.me.priv.code) : csrAccess s i n k = k := by
  simp [csrAccess, hon, Nat.not_lt.mpr hlevel]

theorem csrAccess_absent {s : State} {n : BitVec 12} (i : Instr) (k : Out) (hon : csrOn s.cur n = false) :
    csrAccess s i n k = illegal s i := by
  simp [csrAccess, hon]

theorem csrAccess_privilege {s : State} {n : BitVec 12} (i : Instr) (k : Out) (hon : csrOn s.cur n = true)
    (hlevel : s.me.priv.code < csrLevel n) : csrAccess s i n k = trap s i causePrivilege 0#64 0#64 := by
  simp [csrAccess, hon, hlevel]

/-- Every sequencer has the same registers. -/
theorem csrOn_of_seq {s : State} {r : Nat} {n : BitVec 12} {b : Bool} (hcur : s.cur = .seq r)
    (h : csrOn (.seq 0) n = b) : csrOn s.cur n = b := by
  rw [hcur]; exact h

theorem csrOn_of_both {n : BitVec 12} (hs : csrOn (.seq 0) n = true) (hm : csrOn .mc n = true) : ∀ c, csrOn c n = true
  | .mc => hm
  | .seq _ => hs

/-- The privileged levels reach the registers of level 1. -/
theorem Priv.one_le_code {p : Priv} (h : p ≠ .graph) : 1 ≤ p.code := by
  cases p with
  | graph => exact absurd rfl h
  | supervisor => decide
  | management => decide

end Sys2Proof.Machine

namespace Sys2Proof.Claims

open Sys2Proof.Machine

section
variable {s : State} {n : BitVec 12}

theorem csrr_writes {v : W64} (d : SReg) (hon : csrOn s.cur n = true) (hlevel : csrLevel n ≤ s.me.priv.code)
    (hv : s.csrRead n = v) : WritesReg (.csrr d n) s d v :=
  writesReg_of_writeReg ((csrAccess_ok _ _ hon hlevel).trans (by rw [hv]))

theorem csrr_absent_raises (d : SReg) (hon : csrOn s.cur n = false) : Raises (.csrr d n) s 0x01 0#64 0#64 :=
  raises_of_trap rfl (csrAccess_absent _ _ hon)

theorem csrr_privilege_raises (d : SReg) (hon : csrOn s.cur n = true) (hlevel : s.me.priv.code < csrLevel n) :
    Raises (.csrr d n) s 0x02 0#64 0#64 :=
  raises_of_trap rfl (csrAccess_privilege _ _ hon hlevel)

/-! ## What CSRR reads -/

theorem csrReads_core (s : State) (d : SReg) :
    WritesReg (.csrr d 0x008) s d (s.me.evtPend.setWidth 64) ∧ WritesReg (.csrr d 0x009) s d (s.me.evtMask.setWidth 64) ∧
    WritesReg (.csrr d 0x00A) s d ((s.me.preds ||| 1#8).setWidth 64) ∧ WritesReg (.csrr d 0x00C) s d s.me.insnCount := by
  and_intros <;> exact csrr_writes d (csrOn_of_both rfl rfl _) (Nat.zero_le _) rfl

theorem csrReads_trap (s : State) (d : SReg) (h : s.me.priv ≠ .graph) :
    WritesReg (.csrr d 0x400) s d s.me.trap.status ∧ WritesReg (.csrr d 0x401) s d s.me.trap.pc ∧
    WritesReg (.csrr d 0x402) s d s.me.trap.cause ∧ WritesReg (.csrr d 0x403) s d s.me.trap.addr ∧
    WritesReg (.csrr d 0x404) s d s.me.trap.word ∧ WritesReg (.csrr d 0x405) s d s.me.trap.info ∧
    WritesReg (.csrr d 0x406) s d s.me.trap.scratch0 ∧ WritesReg (.csrr d 0x407) s d s.me.trap.scratch1 := by
  and_intros <;> exact csrr_writes d (csrOn_of_both rfl rfl _) (Priv.one_le_code h) rfl

/-- SENS_VAL: the reading as 16 bits, SUSPECT above it (R164). -/
theorem sensVal_eq (x : Sensor) : BitVec.ofNat 64 (wrapTo x.pub 16 + if x.suspect then 65536 else 0) =
    (BitVec.ofInt 16 x.pub).setWidth 64 + (if x.suspect then 65536#64 else 0#64) := by
  have hpub : (BitVec.ofInt 16 x.pub).toNat = wrapTo x.pub 16 := BitVec.toNat_ofInt x.pub
  apply BitVec.eq_of_toNat_eq
  rw [BitVec.toNat_add, BitVec.toNat_setWidth, BitVec.toNat_ofNat, hpub]
  split <;> simp

theorem csrReads_management (s : State) (d : SReg) (hcur : s.cur = .mc) (hpriv : s.me.priv = .management) :
    WritesReg (.csrr d 0x800) s d s.mcr.mtvec ∧ WritesReg (.csrr d 0x801) s d (s.mcr.member.setWidth 64) ∧
    WritesReg (.csrr d 0x802) s d s.mcr.invalBase ∧ WritesReg (.csrr d 0x803) s d 0#64 ∧
    WritesReg (.csrr d 0x804) s d (s.mcr.sensSel.setWidth 64) ∧ WritesReg (.csrr d 0x806) s d (s.mcr.meterSel.setWidth 64) ∧
    (let x := s.sensor s.mcr.sensSel.toNat
     WritesReg (.csrr d 0x805) s d ((BitVec.ofInt 16 x.pub).setWidth 64 + (if x.suspect then 65536#64 else 0#64))) ∧
    WritesReg (.csrr d 0x807) s d ((s.meter s.mcr.meterSel.toNat).mc.setWidth 64) ∧
    WritesReg (.csrr d 0x808) s d (BitVec.ofNat 64 s.mcr.budget) ∧
    WritesReg (.csrr d 0x809) s d (s.mcr.alertPend.setWidth 64) ∧ Raises (.csrr d 0x000) s 0x01 0#64 0#64 := by
  have hlevel (n : BitVec 12) : csrLevel n ≤ s.me.priv.code := by
    rw [hpriv]; unfold csrLevel; split <;> [decide; (split <;> decide)]
  have hsens := sensVal_eq (s.sensor s.mcr.sensSel.toNat)
  refine ⟨?_, ?_, ?_, ?_, ?_, ?_, csrr_writes d (hcur ▸ rfl) (hlevel _) hsens, ?_, ?_, ?_,
    csrr_absent_raises d (hcur ▸ rfl)⟩
  all_goals exact csrr_writes d (hcur ▸ rfl) (hlevel _) rfl


/-- CFG_STATUS counts the committed entries in whatever order they stand (R193). -/
theorem region_cfgStatus_eq (x : Region) : x.cfgStatus =
    (x.cache.filter (fun e => e.state == .staged || e.state == .live)).length +
      16 * ((x.cache.filter (fun e => e.state == .staged || e.state == .live)).filter (fun e => e.state == .live)).length +
      2 ^ 8 * x.core.cfgErr.toNat + 2 ^ 11 * x.core.ucause.toNat + 2 ^ 16 * (if x.core.disc then 1 else 0) +
      2 ^ 17 * x.core.ltag.toNat + 2 ^ 32 * (x.committed.getLast?.map Entry.cfgid).getD 0 +
      2 ^ 48 * (x.committed.head?.map Entry.cfgid).getD 0 := by
  have hperm := sortBy_perm Entry.cseq (x.cache.filter (fun e => e.state == .staged || e.state == .live))
  have hlive := (hperm.filter (fun e => e.state == .live)).length_eq
  simp only [Region.cfgStatus, Region.liveEntries, Region.committed, hperm.length_eq, hlive]
  split <;> simp

theorem csrReads_cfgStatus (s : State) (d : SReg) (r : Nat) (hcur : s.cur = .seq r) :
    let x := s.region r
    let com := x.cache.filter (fun e => e.state == .staged || e.state == .live)
    let word (head tail : Nat) : W64 := BitVec.ofNat 64 (com.length + 16 * (com.filter (fun e => e.state == .live)).length +
      2 ^ 8 * x.core.cfgErr.toNat + 2 ^ 11 * x.core.ucause.toNat + 2 ^ 16 * (if x.core.disc then 1 else 0) +
      2 ^ 17 * x.core.ltag.toNat + 2 ^ 32 * tail + 2 ^ 48 * head)
    (com = [] → WritesReg (.csrr d 0x011) s d (word 0 0)) ∧
    ∀ h u, h ∈ com → u ∈ com → (∀ e ∈ com, e ≠ h → h.cseq < e.cseq) → (∀ e ∈ com, e ≠ u → e.cseq < u.cseq) →
      WritesReg (.csrr d 0x011) s d (word h.cfgid u.cfgid) := by
  intro x com word
  have hreads {head tail : Nat} (hhead : (x.committed.head?.map Entry.cfgid).getD 0 = head)
      (htail : (x.committed.getLast?.map Entry.cfgid).getD 0 = tail) : WritesReg (.csrr d 0x011) s d (word head tail) := by
    refine csrr_writes d (csrOn_of_seq hcur rfl) (Nat.zero_le _) ?_
    have hread : s.csrRead 0x011 = BitVec.ofNat 64 x.cfgStatus := by simp [State.csrRead, hcur, x]
    rw [hread, region_cfgStatus_eq, hhead, htail]
  refine ⟨fun hnil => hreads ?_ ?_, fun h u hh hu hmin hmax => hreads ?_ ?_⟩
  · simp [Region.committed, show x.cache.filter _ = [] from hnil, sortBy]
  · simp [Region.committed, show x.cache.filter _ = [] from hnil, sortBy]
  · rw [show x.committed.head? = some h from head?_sortBy hh hmin]; rfl
  · rw [show x.committed.getLast? = some u from getLast?_sortBy hu hmax]; rfl

theorem csrReads_cluster {r k : Nat} {c : Cluster} (d : SReg) (hcur : s.cur = .seq r) (hk : s.clusterOf r = some k)
    (hc : s.cluster? k = some c) :
    (∀ n, indexOf? c.regions r = some n → WritesReg (.csrr d 0x000) s d (BitVec.ofNat 64 n)) ∧
    WritesReg (.csrr d 0x001) s d (BitVec.ofNat 64 c.regions.length) ∧
    WritesReg (.csrr d 0x002) s d (BitVec.ofNat 64 c.asid) ∧
    WritesReg (.csrr d 0x003) s d ((c.recd.part.extractLsb' 0 11).setWidth 64) ∧
    WritesReg (.csrr d 0x004) s d (c.recd.args.getD 0 0#64) ∧ WritesReg (.csrr d 0x005) s d (c.recd.args.getD 1 0#64) ∧
    WritesReg (.csrr d 0x006) s d (c.recd.args.getD 2 0#64) ∧ WritesReg (.csrr d 0x007) s d (c.recd.args.getD 3 0#64) ∧
    WritesReg (.csrr d 0x018) s d (BitVec.ofNat 64 (c.energy.toNat / 1000)) ∧
    WritesReg (.csrr d 0x019) s d (c.snapCount.setWidth 64) := by
  have hbind : (s.clusterOf r).bind s.cluster? = some c := by rw [hk]; exact hc
  have hbanks : BitVec.ofNat 64 c.recd.banks = (c.recd.part.extractLsb' 0 11).setWidth 64 := by
    apply BitVec.eq_of_toNat_eq
    simp [LaunchRec.banks]
  refine ⟨fun n hn => csrr_writes d (csrOn_of_seq hcur rfl) (Nat.zero_le _)
      (by simp [State.csrRead, hcur, hbind, Cluster.indexOf, hn]), ?_, ?_,
    csrr_writes d (csrOn_of_seq hcur rfl) (Nat.zero_le _) (by simp [State.csrRead, hcur, hbind, hbanks]),
    ?_, ?_, ?_, ?_, ?_, ?_⟩
  all_goals exact csrr_writes d (csrOn_of_seq hcur rfl) (Nat.zero_le _) (by simp [State.csrRead, hcur, hbind])

theorem csrReads : CsrReads := by
  refine ⟨csrReads_core, csrReads_cfgStatus, fun s d r hcur => ?_, csrReads_trap, csrReads_management⟩
  refine ⟨csrr_writes d (csrOn_of_seq hcur rfl) (Nat.zero_le _) rfl,
    csrr_writes d (csrOn_of_seq hcur rfl) (Nat.zero_le _) rfl,
    csrr_writes d (csrOn_of_seq hcur rfl) (Nat.zero_le _) rfl,
    fun k c hk hc => csrReads_cluster d hcur hk hc,
    fun hpriv => csrr_privilege_raises d (csrOn_of_seq hcur rfl) (by rw [hpriv]; decide),
    csrr_absent_raises d (csrOn_of_seq hcur rfl)⟩

end

end Sys2Proof.Claims
end

section
/-! SUPPORT. The writes of the CSRs (R152, R165, R166, R191, R440, R447), by an instruction and as events. -/

namespace Sys2Proof.Machine

/-! ## A write by an instruction -/

section
variable {s s1 : State} {n : BitVec 12} {v : W64} (i : Instr) (f : Core → Core)

theorem csrStore_none (h : s.csrWrite n v = none) : csrStore s i n v f = illegal s i := by
  simp [csrStore, h]

theorem csrStore_some (h : s.csrWrite n v = some s1) (hn : n ≠ 0x803#12) : csrStore s i n v f = onCore s1 f := by
  simp [csrStore, h, hn]

theorem csrStore_waits (h : s.csrWrite 0x803#12 v = some s1) (hp : s1.mcPending v = true) :
    csrStore s i 0x803#12 v f = .next s1 := by
  rw [csrStore, h]
  simp [hp]

theorem csrStore_goes (h : s.csrWrite 0x803#12 v = some s1) (hp : s1.mcPending v = false) :
    csrStore s i 0x803#12 v f = onCore s1 f := by
  rw [csrStore, h]
  simp [hp]

end

theorem exec_csrw {s : State} {n : BitVec 12} (a : SReg) (hon : csrOn s.cur n = true) (hlevel : csrLevel n ≤ s.me.priv.code) :
    exec (.csrw a n) s = csrStore s (.csrw a n) n (s.me.reg a) id := csrAccess_ok _ _ hon hlevel

theorem exec_csrx {s : State} {n : BitVec 12} (d a : SReg) (hon : csrOn s.cur n = true)
    (hlevel : csrLevel n ≤ s.me.priv.code) :
    exec (.csrx d a n) s = csrStore s (.csrx d a n) n (s.me.reg a) (fun c => c.setReg d (s.csrRead n)) :=
  csrAccess_ok _ _ hon hlevel

/-! ## Invalidation (R152, R165) -/

theorem State.mcDiscard_eq (s : State) (v : W64) :
    s.mcDiscard v = { s with ports := { s.ports with tlb := (s.mcDiscard v).ports.tlb } } := by
  unfold State.mcDiscard
  split <;> rfl

/-- Whether a write of MC_ASINVAL waits does not depend on the cached translations. -/
theorem State.mcPending_mcDiscard (s : State) (v : W64) : (s.mcDiscard v).mcPending v = s.mcPending v := by
  rw [s.mcDiscard_eq v]; rfl

theorem State.csrWrite_mcAsinval (s : State) (v : W64) : s.csrWrite 0x803 v = some (s.mcDiscard v) := rfl

/-! ## The meter requests (R440) -/

@[simp] theorem State.meter_setMeter_self (s : State) (q : Nat) (m : Meter) : (s.setMeter q m).meter q = m := by
  simp [State.meter, State.setMeter]

theorem State.meter_setMeter_ne (s : State) {q j : Nat} (m : Meter) (h : j ≠ q) : (s.setMeter q m).meter j = s.meter j := by
  unfold State.meter State.setMeter
  by_cases hr : j / 4 = q / 4
  · have hk : q % 4 ≠ j % 4 := by omega
    simp [hr, hk]
  · simp [State.region_setRegion_ne s _ hr]

theorem State.core_setMeter (s : State) (q : Nat) (m : Meter) (r : Nat) :
    ((s.setMeter q m).region r).core = (s.region r).core ∧ ((s.setMeter q m).region r).sites = (s.region r).sites := by
  unfold State.setMeter
  by_cases hr : r = q / 4
  · subst hr; simp
  · simp [State.region_setRegion_ne s _ hr]

theorem State.setMeter_eq (s : State) (q : Nat) (m : Meter) :
    s.setMeter q m = { s with regions := (s.setMeter q m).regions } := rfl

end Sys2Proof.Machine

namespace Sys2Proof.Claims

open Sys2Proof.Machine

theorem meets_iff (x : InvalRange) (asid : Nat) (p : Option (Nat × Nat)) :
    x.meets asid p = true ↔ ∃ q, p = some q ∧ asid = x.asid ∧ q.1 < x.hi ∧ x.lo < q.1 + q.2 := by
  cases p <;> simp [InvalRange.meets, and_assoc]

theorem covers_iff (s : State) (v : W64) (asid : Nat) (page : Nat × Nat) :
    Covers s v asid page ↔ s.asidSet (s.mcRange v).asid = true ∧
      asid = (s.mcRange v).asid ∧ page.1 < (s.mcRange v).hi ∧ (s.mcRange v).lo < page.1 + page.2 := by
  have hzero : v = 0#64 ↔ v.toNat = 0 := by rw [BitVec.toNat_eq]; rfl
  have hasid : (s.mcRange v).asid = (s.mcr.invalBase.extractLsb' 52 12).toNat := by
    unfold State.mcRange invalRange
    split <;> simp [bits, Nat.shiftRight_eq_div_pow]
  have hlo : (s.mcRange v).lo = if v = 0#64 then 0 else (s.mcr.invalBase.extractLsb' 16 36).toNat * 65536 := by
    unfold State.mcRange invalRange
    simp only [hzero]
    split <;> simp [bits, Nat.shiftRight_eq_div_pow]
  have hhi : (s.mcRange v).hi = if v = 0#64 then 2 ^ 52 else (s.mcRange v).lo + v.toNat * 65536 := by
    unfold State.mcRange invalRange
    simp only [hzero]
    split <;> simp
  simp only [Covers, State.asidSet, Bool.or_eq_true, beq_iff_eq, ← hasid, ← hlo, ← hhi]

/-- Step 1 of R152 is what the model discards. -/
theorem invalidated_of_tlb {s t : State} {v : W64} (h : t.ports.tlb = (s.mcDiscard v).ports.tlb) : Invalidated s t v := by
  intro c
  rw [h, covers_iff]
  unfold State.mcDiscard
  cases hset : s.asidSet (s.mcRange v).asid <;> simp [State.discardCached, or_iff_not_imp_left]

/-- Step 2 of R152 is what the model waits for. -/
theorem mcPending_iff (s : State) (v : W64) : s.mcPending v = true ↔ InvalWaits s v := by
  have hcovered {asid : Nat} {p : Option (Nat × Nat)} (hset : s.asidSet (s.mcRange v).asid = true) :
      (s.mcRange v).meets asid p = true ↔ ∃ q, p = some q ∧ Covers s v asid q := by
    simp only [meets_iff, covers_iff, hset, true_and]
  unfold InvalWaits
  cases hset : s.asidSet (s.mcRange v).asid with
  | false => simp [State.mcPending, covers_iff, hset]
  | true =>
    simp only [State.mcPending, State.invalPending, hset, Bool.true_and, Bool.or_eq_true, List.any_eq_true, Bool.and_eq_true,
      hcovered hset]
    simp [← exists_and_right, and_assoc]

/-! ## CSRW and CSRX of the registers of a core -/

section
variable {s : State} {n : BitVec 12}

theorem csrw_becomes {c : Core} (a : SReg) (hon : csrOn s.cur n = true) (hlevel : csrLevel n ≤ s.me.priv.code)
    (hn : n ≠ 0x803#12) (hw : s.csrWrite n (s.me.reg a) = some (s.setMe c)) : CoreBecomes (.csrw a n) s c := by
  rw [CoreBecomes, exec_csrw a hon hlevel, csrStore_some _ _ hw hn, onCore]
  simp only [State.me_setMe, State.setMe_setMe]
  rfl

theorem csrx_becomes {c : Core} {old : W64} (d a : SReg) (hon : csrOn s.cur n = true) (hlevel : csrLevel n ≤ s.me.priv.code)
    (hn : n ≠ 0x803#12) (hw : s.csrWrite n (s.me.reg a) = some (s.setMe c)) (hr : s.csrRead n = old) :
    CoreBecomes (.csrx d a n) s (c.setReg d old) := by
  rw [CoreBecomes, exec_csrx d a hon hlevel, csrStore_some _ _ hw hn, onCore, ← hr]
  simp only [State.me_setMe, State.setMe_setMe]
  rfl

theorem csrw_refused_raises (a : SReg) (hon : csrOn s.cur n = true) (hlevel : csrLevel n ≤ s.me.priv.code)
    (hw : s.csrWrite n (s.me.reg a) = none) : Raises (.csrw a n) s 0x01 0#64 0#64 :=
  raises_of_trap rfl ((exec_csrw a hon hlevel).trans (csrStore_none _ _ hw))

theorem csrw_privilege_raises (a : SReg) (hon : csrOn s.cur n = true) (hlevel : s.me.priv.code < csrLevel n) :
    Raises (.csrw a n) s 0x02 0#64 0#64 :=
  raises_of_trap rfl (csrAccess_privilege _ _ hon hlevel)

theorem csrx_privilege_raises (d a : SReg) (hon : csrOn s.cur n = true) (hlevel : s.me.priv.code < csrLevel n) :
    Raises (.csrx d a n) s 0x02 0#64 0#64 :=
  raises_of_trap rfl (csrAccess_privilege _ _ hon hlevel)

end

/-- A predicate after a write of PREDS: the bit written, p0 apart (R164). -/
theorem pred_preds (c : Core) (v : W64) {p : PReg} (hp : p ≠ 0#3) :
    { c with preds := (v.setWidth 8 &&& 0xFE#8) ||| (c.preds &&& 1#8) }.pred p = v.getLsbD p.toNat := by
  have hbits : ∀ p : PReg, p ≠ 0#3 → (0xFE#8).getLsbD p.toNat = true ∧ (1#8).getLsbD p.toNat = false ∧ p.toNat < 8 := by
    decide
  obtain ⟨hmask, hone, hlt⟩ := hbits p hp
  simp only [Core.pred, BitVec.getLsbD_or, BitVec.getLsbD_and, BitVec.getLsbD_setWidth, hmask, hone, hlt, hp]
  simp

theorem csrWrites_core (s : State) (a : SReg) :
    let v := s.me.reg a
    (v.toNat < 32 → CoreBecomes (.csrw a 0x008) s { s.me with evtPend := s.me.evtPend &&& ~~~(v.setWidth 5) } ∧
      CoreBecomes (.csrw a 0x009) s { s.me with evtMask := v.setWidth 5 }) ∧
    (32 ≤ v.toNat → Raises (.csrw a 0x008) s 0x01 0#64 0#64 ∧ Raises (.csrw a 0x009) s 0x01 0#64 0#64) ∧
    (v.toNat < 256 → Completes (.csrw a 0x00A) s fun t => OnlyCore s t ∧ Completed s.me t.me (s.me.pc + 4#64) ∧
      t.me.regs = s.me.regs ∧ ∀ p : PReg, p ≠ 0#3 → t.me.pred p = v.getLsbD p.toNat) ∧
    (256 ≤ v.toNat → Raises (.csrw a 0x00A) s 0x01 0#64 0#64) ∧ Raises (.csrw a 0x00C) s 0x01 0#64 0#64 := by
  intro v
  have hon (n : BitVec 12) (hs : csrOn (.seq 0) n = true) (hm : csrOn .mc n = true) := csrOn_of_both hs hm s.cur
  refine ⟨fun hv => ⟨csrw_becomes a (hon _ rfl rfl) (Nat.zero_le _) (by decide) (if_pos (decide_eq_true hv)),
      csrw_becomes a (hon _ rfl rfl) (Nat.zero_le _) (by decide) (if_pos (decide_eq_true hv))⟩,
    fun hv => ⟨csrw_refused_raises a (hon _ rfl rfl) (Nat.zero_le _) (if_neg (by simpa using hv)),
      csrw_refused_raises a (hon _ rfl rfl) (Nat.zero_le _) (if_neg (by simpa using hv))⟩,
    fun hv => ?_, fun hv => csrw_refused_raises a (hon _ rfl rfl) (Nat.zero_le _) (if_neg (by simpa using hv)),
    csrw_refused_raises a (hon _ rfl rfl) (Nat.zero_le _) rfl⟩
  refine ⟨_, csrw_becomes a (hon _ rfl rfl) (Nat.zero_le _) (by decide) (if_pos (decide_eq_true hv)), ?_, ?_, ?_, ?_⟩
  · simp [OnlyCore]
  · rw [State.me_setMe]; rfl
  · rw [State.me_setMe]; rfl
  · rw [State.me_setMe]
    exact fun p hp => pred_preds s.me v hp

theorem csrWrites_seq (s : State) (d a : SReg) (r : Nat) (hcur : s.cur = .seq r) :
    let v := s.me.reg a
    CoreBecomes (.csrw a 0x00B) s { s.me with iter := v } ∧
    CoreBecomes (.csrx d a 0x00B) s ({ s.me with iter := v }.setReg d s.me.iter) ∧
    Raises (.csrw a 0x000) s 0x01 0#64 0#64 ∧ Raises (.csrw a 0x011) s 0x01 0#64 0#64 ∧
    (s.me.priv = .graph → Raises (.csrw a 0x401) s 0x02 0#64 0#64 ∧ Raises (.csrx d a 0x406) s 0x02 0#64 0#64) := by
  have hon (n : BitVec 12) (hs : csrOn (.seq 0) n = true) : csrOn s.cur n = true := csrOn_of_seq hcur hs
  exact ⟨csrw_becomes a (hon _ rfl) (Nat.zero_le _) (by decide) rfl,
    csrx_becomes d a (hon _ rfl) (Nat.zero_le _) (by decide) rfl rfl,
    csrw_refused_raises a (hon _ rfl) (Nat.zero_le _) rfl, csrw_refused_raises a (hon _ rfl) (Nat.zero_le _) rfl,
    fun hpriv => ⟨csrw_privilege_raises a (hon _ rfl) (by rw [hpriv]; decide),
      csrx_privilege_raises d a (hon _ rfl) (by rw [hpriv]; decide)⟩⟩

theorem csrWrites_trap (s : State) (d a : SReg) (h : s.me.priv ≠ .graph) :
    let v := s.me.reg a
    (v.toNat % 4 = 0 → CoreBecomes (.csrw a 0x401) s { s.me with trap := { s.me.trap with pc := v } }) ∧
    (v.toNat % 4 ≠ 0 → Raises (.csrw a 0x401) s 0x01 0#64 0#64) ∧
    CoreBecomes (.csrx d a 0x406) s ({ s.me with trap := { s.me.trap with scratch0 := v } }.setReg d s.me.trap.scratch0) ∧
    CoreBecomes (.csrw a 0x407) s { s.me with trap := { s.me.trap with scratch1 := v } } := by
  have hon (n : BitVec 12) (hs : csrOn (.seq 0) n = true) (hm : csrOn .mc n = true) := csrOn_of_both hs hm s.cur
  have hlevel : 1 ≤ s.me.priv.code := Priv.one_le_code h
  exact ⟨fun hv => csrw_becomes a (hon _ rfl rfl) hlevel (by decide) (if_pos (by simpa using hv)),
    fun hv => csrw_refused_raises a (hon _ rfl rfl) hlevel (if_neg (by simpa using hv)),
    csrx_becomes d a (hon _ rfl rfl) hlevel (by decide) rfl rfl, csrw_becomes a (hon _ rfl rfl) hlevel (by decide) rfl⟩

/-! ## CSRW of the registers of the management core -/

section
variable {s s1 : State} {n : BitVec 12}

theorem csrLevel_le_management (n : BitVec 12) (h : s.me.priv = .management) : csrLevel n ≤ s.me.priv.code := by
  rw [h]
  unfold csrLevel
  split
  · decide
  · split <;> decide

theorem exec_csrw_management {t : State} (a : SReg) (hcur : s.cur = .mc) (hpriv : s.me.priv = .management)
    (hon : csrOn .mc n = true) (hn : n ≠ 0x803#12) (hw : s.csrWrite n (s.me.reg a) = some s1)
    (ht : s1.setMe (retired s1.me) = t) : exec (.csrw a n) s = .next t := by
  rw [exec_csrw a (hcur ▸ hon) (csrLevel_le_management n hpriv), csrStore_some _ _ hw hn, ← ht]
  rfl

theorem csrw_management_refused (a : SReg) (hcur : s.cur = .mc) (hpriv : s.me.priv = .management)
    (hon : csrOn .mc n = true) (hw : s.csrWrite n (s.me.reg a) = none) : Raises (.csrw a n) s 0x01 0#64 0#64 :=
  csrw_refused_raises a (hcur ▸ hon) (csrLevel_le_management n hpriv) hw

/-- The management core completes whatever the write of its own CSRs and of the cached translations was. -/
theorem retire_withMcr (m : McRegs) (p : Ports) (hcur : s.cur = .mc) :
    State.setMe { s with mcr := m, ports := p } (retired (State.me { s with mcr := m, ports := p })) =
      { s.setMe (retired s.me) with mcr := m, ports := p } := by
  cases s; cases hcur; rfl

/-- The management core completes whatever a region became. -/
theorem me_setRegion_of_mc (r : Nat) (x : Region) (hcur : s.cur = .mc) : (s.setRegion r x).me = s.me := by
  cases s; cases hcur; rfl

theorem meter_setMe_of_mc {s : State} (c : Core) (q : Nat) (hcur : s.cur = .mc) : (s.setMe c).meter q = s.meter q := by
  cases s; cases hcur; rfl

end

theorem csrWrites_mcAsinval {s : State} {v : W64} (a : SReg) (hcur : s.cur = .mc) (hpriv : s.me.priv = .management)
    (hv : s.me.reg a = v) :
    (¬InvalWaits s v → Completes (.csrw a 0x803) s fun t =>
      t = { s.setMe (retired s.me) with ports := { (s.setMe (retired s.me)).ports with tlb := t.ports.tlb } } ∧
        Invalidated s t v) ∧
    (InvalWaits s v → Completes (.csrw a 0x803) s fun t =>
      t = { s with ports := { s.ports with tlb := t.ports.tlb } } ∧ Invalidated s t v) := by
  subst hv
  have hexec := exec_csrw (n := 0x803) a (hcur ▸ rfl) (csrLevel_le_management _ hpriv)
  have hpend := s.mcPending_mcDiscard (s.me.reg a)
  rw [← mcPending_iff]
  refine ⟨fun hgo => ?_, fun hwait => ?_⟩
  · refine ⟨_, hexec.trans (csrStore_goes _ _ (s.csrWrite_mcAsinval _) (hpend.trans (by simpa using hgo))), ?_,
      invalidated_of_tlb (by simp)⟩
    rw [s.mcDiscard_eq]
    cases s; cases hcur; rfl
  · exact ⟨_, hexec.trans (csrStore_waits _ _ (s.csrWrite_mcAsinval _) (hpend.trans hwait)), s.mcDiscard_eq _,
      invalidated_of_tlb rfl⟩

theorem csrWrites_meterStep {s : State} {v : W64} (a : SReg) (hcur : s.cur = .mc) (hpriv : s.me.priv = .management)
    (hv : s.me.reg a = v) (hlt : v.toNat < 16) : Completes (.csrw a 0x807) s fun t => t.me = retired s.me ∧ t.mem = s.mem ∧
      t.meter s.mcr.meterSel.toNat = { s.meter s.mcr.meterSel.toNat with mc := v.setWidth 4 } := by
  subst hv
  refine ⟨_, exec_csrw_management a hcur hpriv rfl (by decide) (if_pos (decide_eq_true hlt)) rfl, ?_, ?_, ?_⟩
  · rw [State.me_setMe, State.writeMeterStep, State.setMeter, me_setRegion_of_mc _ _ hcur]
  · simp [State.writeMeterStep, State.setMeter]
  · exact (meter_setMe_of_mc (s := s.writeMeterStep (s.me.reg a)) _ _ hcur).trans (State.meter_setMeter_self _ _ _)

theorem csrWrites_management (s : State) (a : SReg) (hcur : s.cur = .mc) (hpriv : s.me.priv = .management) :
    let v := s.me.reg a
    let s' := s.setMe (retired s.me)
    (v.toNat % 4 = 0 → v.toNat < 0x200000 →
      exec (.csrw a 0x800) s = .next { s' with mcr := { s'.mcr with mtvec := v } }) ∧
    (v.toNat < 576 → exec (.csrw a 0x801) s = .next
      { s' with mcr := { s'.mcr with member := v.setWidth 10 }, ports := { s'.ports with tlb := [] } }) ∧
    (576 ≤ v.toNat → Raises (.csrw a 0x801) s 0x01 0#64 0#64) ∧
    (664 ≤ v.toNat → Raises (.csrw a 0x804) s 0x01 0#64 0#64) ∧ Raises (.csrw a 0x805) s 0x01 0#64 0#64 ∧
    (16 ≤ v.toNat → Raises (.csrw a 0x807) s 0x01 0#64 0#64 ∧ Raises (.csrw a 0x809) s 0x01 0#64 0#64) ∧
    (v.toNat < 664 → exec (.csrw a 0x804) s = .next { s' with mcr := { s'.mcr with sensSel := v.setWidth 10 } }) ∧
    (v.toNat < 16 → exec (.csrw a 0x809) s = .next
      { s' with mcr := { s'.mcr with alertPend := s'.mcr.alertPend &&& ~~~(v.setWidth 4) } }) ∧
    (v.toNat % 65536 = 0 → exec (.csrw a 0x802) s = .next { s' with mcr := { s'.mcr with invalBase := v } }) ∧
    (v.toNat % 65536 ≠ 0 → Raises (.csrw a 0x802) s 0x01 0#64 0#64) ∧
    (v.toNat < 512 → exec (.csrw a 0x806) s = .next { s' with mcr := { s'.mcr with meterSel := v.setWidth 9 } }) ∧
    (512 ≤ v.toNat → Raises (.csrw a 0x806) s 0x01 0#64 0#64) ∧
    (v.toNat < 16 → Completes (.csrw a 0x807) s fun t => t.me = retired s.me ∧ t.mem = s.mem ∧
      t.meter s.mcr.meterSel.toNat = { s.meter s.mcr.meterSel.toNat with mc := v.setWidth 4 }) ∧
    (¬InvalWaits s v → Completes (.csrw a 0x803) s fun t =>
      t = { s' with ports := { s'.ports with tlb := t.ports.tlb } } ∧ Invalidated s t v) ∧
    (InvalWaits s v → Completes (.csrw a 0x803) s fun t =>
      t = { s with ports := { s.ports with tlb := t.ports.tlb } } ∧ Invalidated s t v) := by
  intro v s'
  have hmcr : s'.mcr = s.mcr := State.setMe_mcr s _
  have hports : s'.ports = s.ports := State.setMe_ports s _
  have hset {n : BitVec 12} (m : McRegs → McRegs) (hon : csrOn .mc n = true) (hn : n ≠ 0x803#12)
      (hw : s.csrWrite n v = some { s with mcr := m s.mcr }) : exec (.csrw a n) s = .next { s' with mcr := m s'.mcr } :=
    exec_csrw_management a hcur hpriv hon hn hw ((retire_withMcr _ s.ports hcur).trans (by rw [hmcr, ← hports]))
  have hrefused {n : BitVec 12} (hon : csrOn .mc n = true) (hw : s.csrWrite n v = none) :
      Raises (.csrw a n) s 0x01 0#64 0#64 := csrw_management_refused a hcur hpriv hon hw
  refine ⟨fun hal hlt => hset (fun m => { m with mtvec := v }) rfl (by decide) (if_pos (by simp [hal, hlt])),
    fun hlt => ?_, fun hge => hrefused rfl (if_neg (by simpa using hge)),
    fun hge => hrefused rfl (if_neg (by simpa using hge)), hrefused rfl rfl,
    fun hge => ⟨hrefused rfl (if_neg (by simpa using hge)), hrefused rfl (if_neg (by simpa using hge))⟩,
    fun hlt => hset (fun m => { m with sensSel := v.setWidth 10 }) rfl (by decide) (if_pos (decide_eq_true hlt)),
    fun hlt => hset (fun m => { m with alertPend := m.alertPend &&& ~~~(v.setWidth 4) }) rfl (by decide)
      (if_pos (decide_eq_true hlt)),
    fun hal => hset (fun m => { m with invalBase := v }) rfl (by decide) (if_pos (by simpa using hal)),
    fun hal => hrefused rfl (if_neg (by simpa using hal)),
    fun hlt => hset (fun m => { m with meterSel := v.setWidth 9 }) rfl (by decide) (if_pos (decide_eq_true hlt)),
    fun hge => hrefused rfl (if_neg (by simpa using hge)), csrWrites_meterStep a hcur hpriv rfl,
    csrWrites_mcAsinval a hcur hpriv rfl⟩
  rw [hmcr, hports]
  exact exec_csrw_management a hcur hpriv rfl (by decide) (if_pos (decide_eq_true hlt)) (retire_withMcr _ _ hcur)

theorem csrWrites : CsrWrites := ⟨csrWrites_core, csrWrites_seq, csrWrites_trap, csrWrites_management⟩

/-! ## The writes as events of the device -/

section
variable {s : State}

theorem byCore_running {f : State → Out} (h : s.me.run = .running) : byCore s f = f s := if_pos h

theorem byCore_not_running {f : State → Out} (h : s.me.run ≠ .running) : byCore s f = .next s := if_neg h

theorem byMc_stopped {f : State → State} (h : s.mc.run = .stopped) : byMc s f = .next s := by
  simp [byMc, h]

theorem byMc_not_stopped {f : State → State} (h : s.mc.run ≠ .stopped) : byMc s f = .next (f s) := by
  simp [byMc, h]

end

theorem exec_evtPend (s : State) (v : W64) :
    exec (.evtPend v) s = byCore s (fun s => .next (if v.toNat < 32 then s.writeEvtPend v else s)) := rfl

theorem exec_mcAsinval (s : State) (v : W64) : exec (.mcAsinval v) s = byMc s (fun s =>
    if (s.mcDiscard v).mcPending v then
      { s.mcDiscard v with agenda := (s.mcDiscard v).agenda ++ [.event (.mcAsinval v)] }
    else s.mcDiscard v) := rfl

theorem exec_csrWrite_of_some {s s1 : State} {n : BitVec 12} {v : W64} (hrun : s.me.run = .running)
    (hon : csrOn s.cur n = true) (hlevel : csrLevel n ≤ s.me.priv.code) (hn : n ≠ 0x803#12)
    (hw : s.csrWrite n v = some s1) : exec (.csrWrite n v) s = .next s1 := by
  change execCsrWrite n v s = _
  rw [execCsrWrite, byCore_running hrun, csrAccess_ok _ _ hon hlevel, hw]
  simp [hn]

theorem evtPend_event (s : State) (v : W64) :
    (s.me.run = .running → v.toNat < 32 →
      exec (.evtPend v) s = .next (s.setMe { s.me with evtPend := s.me.evtPend &&& ~~~(v.setWidth 5) })) ∧
    (s.me.run ≠ .running ∨ 32 ≤ v.toNat → exec (.evtPend v) s = .next s) := by
  rw [exec_evtPend]
  refine ⟨fun hrun hlt => ?_, fun h => ?_⟩
  · rw [byCore_running hrun, if_pos hlt]
    rfl
  · by_cases hrun : s.me.run = .running
    · rw [byCore_running hrun, if_neg (by simpa [hrun] using h)]
    · exact byCore_not_running hrun

theorem mcAsinval_event (s : State) (v : W64) (h : s.mc.run ≠ .stopped) :
    (¬InvalWaits s v → Completes (.mcAsinval v) s fun t =>
      t = { s with ports := { s.ports with tlb := t.ports.tlb } } ∧ Invalidated s t v) ∧
    (InvalWaits s v → Completes (.mcAsinval v) s fun t =>
      t = { s with agenda := s.agenda ++ [.event (.mcAsinval v)], ports := { s.ports with tlb := t.ports.tlb } } ∧
      Invalidated s t v) := by
  have hexec := (exec_mcAsinval s v).trans (byMc_not_stopped h)
  rw [← mcPending_iff, ← s.mcPending_mcDiscard]
  refine ⟨fun hgo => ⟨_, hexec.trans (congrArg _ (if_neg hgo)), s.mcDiscard_eq v, invalidated_of_tlb rfl⟩,
    fun hwait => ⟨_, hexec.trans (congrArg _ (if_pos hwait)), ?_, invalidated_of_tlb rfl⟩⟩
  rw [s.mcDiscard_eq v]

theorem csrEvents : CsrEvents := by
  refine ⟨evtPend_event, fun s v h => ⟨fun hlt => ?_, fun hge => ⟨?_, ?_⟩, fun hge => ?_⟩, mcAsinval_event,
    fun s v h => ⟨byMc_stopped h, (exec_mcAsinval s v).trans (byMc_stopped h), byMc_stopped h, byMc_stopped h⟩,
    fun s v q h hlt hq => ?_, fun s v h hlt => ?_, fun s v n h => if_neg h,
    fun s v r hcur hrun => ⟨?_, fun hlt => ?_, fun hpriv => ?_⟩⟩
  · exact (byMc_not_stopped h).trans (congrArg _ (if_pos hlt))
  · exact (byMc_not_stopped h).trans (congrArg _ (if_neg (Nat.not_lt.mpr hge)))
  · exact (byMc_not_stopped h).trans (congrArg _ (if_neg (Nat.not_lt.mpr hge)))
  · exact (byMc_not_stopped h).trans (congrArg _ (if_neg (Nat.not_lt.mpr hge)))
  · subst hq
    exact ⟨_, (byMc_not_stopped h).trans (congrArg _ (if_pos hlt)), State.meter_setMeter_self _ _ _,
      fun j hj => State.meter_setMeter_ne _ _ hj, State.setMeter_eq _ _ _, State.core_setMeter _ _ _⟩
  · rw [BitVec.ofNat_toNat]
    exact (byMc_not_stopped h).trans (congrArg _ (if_pos hlt))
  · exact exec_csrWrite_of_some hrun (csrOn_of_seq hcur rfl) (Nat.zero_le _) (by decide) rfl
  · exact exec_csrWrite_of_some hrun (csrOn_of_seq hcur rfl) (Nat.zero_le _) (by decide)
      (if_pos (decide_eq_true hlt))
  · exact exec_csrWrite_of_some hrun (csrOn_of_seq hcur rfl) (Priv.one_le_code hpriv) (by decide) rfl

end Sys2Proof.Claims

namespace Sys2Proof.Proofs

/-- Settles O14: what each register reads, what a write of it does, and the writes as events. -/
theorem controlRegisters : Obligations.ControlRegisters :=
  ⟨Claims.csrReads, Claims.csrWrites, Claims.csrEvents⟩

end Sys2Proof.Proofs
end

section
/-! SUPPORT. The device right after reset. -/

namespace Sys2Proof.Proofs

open Sys2Proof.Machine Sys2Proof.Claims

/-- A memory with nothing listed reads zero everywhere. -/
theorem readAll_nil_zero (a n : Nat) : ∀ b ∈ Memory.readAll [] a n, b = 0#8 := by
  induction n generalizing a with
  | zero => simp [Memory.readAll]
  | succ n ih => simpa [Memory.readAll] using ih (a + 1)

theorem coreZero_mcInit : CoreZero Core.mcInit := by
  refine ⟨fun r => ?_, rfl, rfl⟩
  simp [Core.reg, Core.mcInit, Core.init]

/-- Settles O58: each field of the reset state, and the empty lists that its memories are. -/
theorem resetState : Obligations.ResetState := by
  refine ⟨by decide, fun p n => ?_, rfl, coreZero_mcInit, rfl, rfl, rfl, rfl, rfl, rfl, rfl, rfl, ?_, fun _ => rfl⟩
  · have hlist : State.reset.mem.list p = [] := by
      rcases p with _ | _ | _ | _ | ⟨_ | _, _⟩ <;> rfl
    rw [Mems.bytes, hlist]
    exact readAll_nil_zero p.key n
  · decide

end Sys2Proof.Proofs
end

section
/-! SUPPORT. Semaphores and barriers (R107, R108, R381 to R384): a semaphore that is written, what a completed and what a
waiting instruction leave, the release of a semaphore, and the departure from a barrier. -/

namespace Sys2Proof.Machine

/-! ## A core that is written -/

theorem State.core_setCore_ne (s : State) {c d : CoreId} (x : Core) (h : d ≠ c) : (s.setCore c x).core d = s.core d := by
  cases c with
  | mc =>
    cases d with
    | mc => exact absurd rfl h
    | seq q => rfl
  | seq r =>
    cases d with
    | mc => rfl
    | seq q => simp [State.setCore, State.core, State.region_setRegion_ne s _ (fun hq => h (congrArg CoreId.seq hq))]

/-- An instruction that completes without a result leaves every other core, memory and the dispatcher. -/
theorem done_id_eq (s : State) : ∃ t, done s id = .next t ∧ t.mem = s.mem ∧ t.cur = s.cur ∧ t.disp = s.disp ∧
    t.me = Claims.retired s.me ∧ ∀ c, c ≠ s.cur → t.core c = s.core c := by
  refine ⟨_, rfl, by simp, by simp, by simp, ?_, fun c hc => ?_⟩
  · rw [State.me_setMe, State.me_dropCoreReads]; rfl
  · rw [State.setMe, State.core_setCore_ne _ _ (by simpa using hc), State.core_dropCoreReads]

/-- A waiting instruction leaves memory and the dispatcher. -/
theorem waiting_eq (s : State) (w : CoreWait) : ∃ t, waiting s w = .next t ∧ t.mem = s.mem ∧ t.disp = s.disp ∧
    t.me = { s.me with wait := w } := ⟨_, rfl, by simp, by simp, by simp⟩

/-! ## A semaphore that is written -/

@[simp] theorem State.sem_setSem_self (s : State) (n : Nat) (x : Sem) : (s.setSem n x).sem n = x := by
  by_cases h : x = Sem.free <;> simp [State.sem, State.setSem, Table.get, h]

theorem State.sem_setSem_ne (s : State) {n m : Nat} (x : Sem) (h : m ≠ n) : (s.setSem n x).sem m = s.sem m := by
  by_cases hx : x = Sem.free <;>
    simp [State.sem, State.setSem, Table.get, hx, Table.find?_del_ne _ h, Table.find?_put_ne _ _ h]

@[simp] theorem State.setSem_mem (s : State) (n : Nat) (x : Sem) : (s.setSem n x).mem = s.mem := rfl
@[simp] theorem State.setSem_cur (s : State) (n : Nat) (x : Sem) : (s.setSem n x).cur = s.cur := rfl
@[simp] theorem State.setSem_core (s : State) (n : Nat) (x : Sem) (c : CoreId) : (s.setSem n x).core c = s.core c := by
  cases c <;> rfl
@[simp] theorem State.setSem_me (s : State) (n : Nat) (x : Sem) : (s.setSem n x).me = s.me := by simp [State.me]

theorem State.sem_congr {s t : State} (h : t.disp = s.disp) (n : Nat) : t.sem n = s.sem n := by simp [State.sem, h]

theorem State.cluster?_congr {s t : State} (h : t.disp = s.disp) (k : Nat) : t.cluster? k = s.cluster? k := by
  simp [State.cluster?, h]

/-- Nobody waits: the semaphore becomes free (R108). -/
theorem State.releaseSem_of_nil {s : State} {n : Nat} (code : Nat) (h : (s.sem n).waiters = []) :
    s.releaseSem n code = s.setSem n Sem.free := by
  simp [State.releaseSem, h, nextWaiter]

/-- A sequencer alone waits: it holds the semaphore, and its SEMA completes (R108, R381). -/
theorem State.releaseSem_of_single {s : State} {n w : Nat} (code : Nat) (h : (s.sem n).waiters = [w]) (hw : w < 0x100) :
    s.releaseSem n code = (s.setSem n { holder := w, kept := none, waiters := [] }).setCore (.seq w)
      (s.core (.seq w)).retire := by
  have h1 : w ≠ 0x100 := by omega
  have h2 : w ≠ 0x101 := by omega
  have h3 : w ≠ 0x102 := by omega
  simp [State.releaseSem, h, nextWaiter, State.granted, h1, h2, h3]

/-! ## The departure from a barrier (R383) -/

/-- A core after every waiting BAR of its cluster has completed. -/
def Core.departed (c : Core) : Core := if c.atBarrier then c.retire else c

theorem Core.departed_departed (c : Core) : c.departed.departed = c.departed := by
  by_cases h : c.atBarrier
  · have hgone : ¬c.retire.atBarrier = true := by simp [Core.atBarrier]
    simp [Core.departed, h, -Core.retire_eq, hgone]
  · simp [Core.departed, h]

theorem Core.departed_of_not_waiting {c : Core} (h : c.wait = .none) : c.departed = c := by
  simp [Core.departed, Core.atBarrier, h]

theorem State.departAll_cons (s : State) (r : Nat) (rs : List Nat) :
    s.departAll (r :: rs) = (if (s.core (.seq r)).atBarrier then s.setCore (.seq r) (s.core (.seq r)).retire else s).departAll rs :=
  rfl

/-- The departure changes cores alone. -/
theorem State.departAll_eq (l : List Nat) (s : State) : (s.departAll l).mem = s.mem ∧ (s.departAll l).cur = s.cur ∧
    (s.departAll l).disp = s.disp := by
  induction l generalizing s with
  | nil => exact ⟨rfl, rfl, rfl⟩
  | cons r rs ih =>
    rw [State.departAll_cons]
    obtain ⟨hmem, hcur, hdisp⟩ := ih (if (s.core (.seq r)).atBarrier then s.setCore (.seq r) (s.core (.seq r)).retire else s)
    rw [hmem, hcur, hdisp]
    split <;> simp

theorem State.core_departAll (l : List Nat) (s : State) (q : Nat) :
    (s.departAll l).core (.seq q) = if q ∈ l then (s.core (.seq q)).departed else s.core (.seq q) := by
  induction l generalizing s with
  | nil => rfl
  | cons r rs ih =>
    rw [State.departAll_cons, ih]
    have hstep : (if (s.core (.seq r)).atBarrier then s.setCore (.seq r) (s.core (.seq r)).retire else s).core (.seq q) =
        if q = r then (s.core (.seq q)).departed else s.core (.seq q) := by
      by_cases hq : q = r
      · subst hq
        by_cases hb : (s.core (.seq q)).atBarrier <;> simp [hb, Core.departed]
      · by_cases hb : (s.core (.seq r)).atBarrier
        · simp [hb, hq, State.core_setCore_ne s (c := .seq r) (d := .seq q) _ (fun h => hq (CoreId.seq.inj h))]
        · simp [hb, hq]
    rw [hstep]
    by_cases hq : q = r
    · subst hq
      by_cases hm : q ∈ rs <;> simp [hm, Core.departed_departed]
    · simp [hq]

theorem State.me_departAll (s : State) (l : List Nat) (h : s.me.wait = .none) : (s.departAll l).me = s.me := by
  obtain ⟨-, hcur, -⟩ := s.departAll_eq l
  rw [State.me, hcur]
  cases hc : s.cur with
  | mc =>
    have hmc (l : List Nat) (s : State) : (s.departAll l).mc = s.mc := by
      induction l generalizing s with
      | nil => rfl
      | cons r rs ih => rw [State.departAll_cons, ih]; split <;> rfl
    rw [State.me, hc]; exact hmc l s
  | seq r =>
    rw [State.core_departAll]
    rw [State.me, hc] at h ⊢
    simp [Core.departed_of_not_waiting h]

end Sys2Proof.Machine

namespace Sys2Proof.Claims

open Sys2Proof.Machine

section
variable {s : State}

/-- An instruction that completes on a state with the same memory and the same current core retires. -/
theorem retires_of_done {i : Instr} {u : State} {P : State → Prop} (hexec : exec i s = done u id) (hmem : u.mem = s.mem)
    (hcur : u.cur = s.cur) (hme : u.me = s.me)
    (hP : ∀ t, t.disp = u.disp → (∀ c, c ≠ s.cur → t.core c = u.core c) → P t) :
    Completes i s fun t => Retires s t 0#5 0#64 ∧ P t := by
  obtain ⟨t, ht, htmem, htcur, hdisp, htme, hcore⟩ := done_id_eq u
  refine ⟨t, hexec.trans ht, ⟨htmem.trans hmem, htcur.trans hcur, ?_⟩, hP t hdisp (hcur ▸ hcore)⟩
  rw [htme, hme]
  rfl

theorem waits_of_waiting {i : Instr} {u : State} {w : CoreWait} {P : State → Prop} (hexec : exec i s = waiting u w)
    (hmem : u.mem = s.mem) (hme : u.me = s.me) (hP : ∀ t, t.disp = u.disp → P t) :
    Completes i s fun t => WaitsWith s t w ∧ P t := by
  obtain ⟨t, ht, htmem, hdisp, htme⟩ := waiting_eq u w
  exact ⟨t, hexec.trans ht, ⟨htmem.trans hmem, by rw [htme, hme]⟩, hP t hdisp⟩

theorem exec_sema (n : BitVec 6) (hwait : s.me.wait = .none) : exec (.sema n) s =
    if (s.sem n.toNat).heldBy (coreHolder s.cur) then trap s (.sema n) causeSync 0#64 0#64
    else if (s.sem n.toNat).holder = 0x1FF then
      done (s.setSem n.toNat { s.sem n.toNat with holder := coreHolder s.cur }) id
    else waiting (s.setSem n.toNat { s.sem n.toNat with waiters := (s.sem n.toNat).waiters ++ [coreHolder s.cur] })
      (.sema n.toNat) := by
  change execSema n s = _
  simp [execSema, hwait]

theorem exec_semr_held (n : BitVec 6) (h : (s.sem n.toNat).heldBy (coreHolder s.cur) = true) :
    exec (.semr n) s = done (s.releaseSem n.toNat (coreHolder s.cur)) id := by
  change execSemr n s = _
  simp [execSemr, h]

theorem exec_semr_not_held (n : BitVec 6) (h : (s.sem n.toNat).heldBy (coreHolder s.cur) = false) :
    exec (.semr n) s = trap s (.semr n) causeSync 0#64 0#64 := by
  change execSemr n s = _
  simp [execSemr, h]

end

theorem semaphores : Semaphores := by
  intro s n own x hwait
  refine ⟨fun hfree hkept hown => ?free, fun htaken hnot => ?wait, fun _ hheld => ?again, fun hheld hnil => ?release,
    fun w hheld hw hlt hne => ?grant, fun hnot => ?notHeld⟩
  case free =>
    have hnot : ¬x.heldBy own = true := by simp [Sem.heldBy, hfree, Ne.symm hown]
    have hexec := exec_sema n hwait
    rw [if_neg hnot, if_pos hfree] at hexec
    refine retires_of_done hexec rfl rfl (by simp) (fun t ht _ => ?_)
    simp only [State.sem_congr ht, State.sem_setSem_self]
    exact ⟨rfl, fun m hm => State.sem_setSem_ne s _ hm⟩
  case wait =>
    have hexec := exec_sema n hwait
    rw [if_neg (ne_true_of_eq_false hnot), if_neg htaken] at hexec
    refine waits_of_waiting hexec rfl (by simp) (fun t ht => ?_)
    simp only [State.sem_congr ht, State.sem_setSem_self]
    exact ⟨rfl, rfl⟩
  case again => exact raises_of_trap rfl ((exec_sema n hwait).trans (if_pos hheld))
  case release =>
    have hexec := exec_semr_held n hheld
    rw [State.releaseSem_of_nil _ hnil] at hexec
    refine retires_of_done hexec rfl rfl (by simp) (fun t ht _ => ?_)
    simp only [State.sem_congr ht, State.sem_setSem_self]
    exact ⟨rfl, fun m hm => State.sem_setSem_ne s _ hm⟩
  case grant =>
    have hexec := exec_semr_held n hheld
    rw [State.releaseSem_of_single _ hw hlt] at hexec
    refine retires_of_done hexec (by simp) (by simp) ?_ (fun t ht hcore => ?_)
    · rw [State.me, State.setCore_cur, State.setSem_cur, State.core_setCore_ne _ _ (Ne.symm hne), State.setSem_core]; rfl
    · rw [hcore _ hne, State.core_setCore, State.sem_congr (ht.trans (State.setCore_disp _ _ _)), State.sem_setSem_self]
      exact ⟨rfl, rfl, rfl⟩
  case notHeld => exact raises_of_trap rfl (exec_semr_not_held n hnot)

section
variable {s : State} {r k : Nat} {c : Cluster} {scope : Scope}

theorem exec_bar (hcur : s.cur = .seq r) (hk : s.clusterOf r = some k) (hc : s.cluster? k = some c)
    (hwait : s.me.wait = .none) : exec (.bar scope) s =
    if scopeNum scope < 2 then trap s (.bar scope) causeSync 0#64 0#64
    else if c.regions.any (fun x => (s.core (.seq x)).run == .halted) then trap s (.bar scope) causeSync 0#64 0#64
    else if (List.range c.regions.length).all (fun x => (c.barArrived ||| (1#128 <<< c.indexOf r)).getLsbD x) then
      done ((s.setCluster k { c with barArrived := 0#128, barGen := c.barGen + 1#32 }).departAll c.regions) id
    else waiting (s.setCluster k { c with barArrived := c.barArrived ||| (1#128 <<< c.indexOf r) })
      (.bar (wordOf (.bar scope))) := by
  change execBar scope s = _
  simp [execBar, onSeq, hcur, hk, hc, Core.atBarrier, hwait]

theorem scopeNum_lt_two_iff (scope : Scope) : scopeNum scope < 2 ↔ scope = .tile ∨ scope = .region := by
  cases scope <;> decide

theorem State.me_setCluster (s : State) (k : Nat) (c : Cluster) : (s.setCluster k c).me = s.me := s.me_withDisp _

end

theorem barriers : Barriers := by
  intro s r k c scope hcur hk hc hwait arrived
  have hexec := exec_bar (scope := scope) hcur hk hc hwait
  refine ⟨fun htile hregion hrun => ⟨fun hall => ?last, fun hsome => ?wait⟩, fun hscope => ?low, fun hhalted => ?halted⟩
  case low => exact raises_of_trap rfl (by rw [hexec, if_pos ((scopeNum_lt_two_iff scope).mpr hscope)]; rfl)
  case halted =>
    have hany : c.regions.any (fun x => (s.core (.seq x)).run == .halted) = true := by simpa using hhalted
    refine raises_of_trap (w := wordOf (.bar scope)) rfl ?_
    rw [hexec, hany]
    split <;> rfl
  all_goals
    have hlow : ¬scopeNum scope < 2 := by rw [scopeNum_lt_two_iff]; exact fun h => h.elim htile hregion
    have hany : ¬c.regions.any (fun x => (s.core (.seq x)).run == .halted) = true := by simpa using hrun
    rw [if_neg hlow, if_neg hany] at hexec
  case last =>
    have hyes : (List.range c.regions.length).all (fun x => arrived.getLsbD x) = true := by simpa using hall
    rw [if_pos hyes] at hexec
    have hcl := State.departAll_eq c.regions (s.setCluster k { c with barArrived := 0#128, barGen := c.barGen + 1#32 })
    obtain ⟨hmem, hcur', hdisp⟩ := hcl
    have hme : (s.setCluster k { c with barArrived := 0#128, barGen := c.barGen + 1#32 }).me = s.me := State.me_setCluster s k _
    refine retires_of_done hexec hmem hcur' ((State.me_departAll _ _ (by rw [hme]; exact hwait)).trans hme)
      (fun t ht hcore => ⟨?_, fun q hq hne => ?_⟩)
    · rw [State.cluster?_congr (ht.trans hdisp)]
      simp [State.cluster?]
    · rw [hcore _ (by rw [hcur]; simpa using hne), State.core_departAll, if_pos hq]
      rfl
  case wait =>
    have hnot : ¬(List.range c.regions.length).all (fun x => arrived.getLsbD x) = true := by simpa using hsome
    rw [if_neg hnot] at hexec
    obtain ⟨t, ht, hwaits, hcl⟩ := waits_of_waiting (P := fun t => t.cluster? k = some { c with barArrived := arrived }) hexec rfl
      (State.me_setCluster s k _) (fun t ht => by rw [State.cluster?_congr ht]; simp [State.cluster?, arrived])
    exact ⟨t, ht, _, hwaits, hcl⟩

end Sys2Proof.Claims

namespace Sys2Proof.Proofs

/-- Settles O15: what SEMA and SEMR do to a semaphore in each of its states, and BAR before and at the last arrival. -/
theorem coreSynchronisation : Obligations.CoreSynchronisation := ⟨Claims.semaphores, Claims.barriers⟩

end Sys2Proof.Proofs
end

section
/-! SUPPORT. A granule of HBM that is filled (R118, R131, R370): the bytes, the presence and the mark it has then, in the clear
and encrypted, and LAUNCH (R117, R118). -/

namespace Sys2Proof.Machine

/-! ## Bytes, presence and marks -/

/-- The two places lie in one memory. -/
def Place.sameMemory : Place → Place → Bool
  | .hbm _, .hbm _ => true
  | .bank _ _, .bank _ _ => true
  | .tile _ _ _, .tile _ _ _ => true
  | .sram _, .sram _ => true
  | .host x _, .host y _ => x == y
  | _, _ => false

theorem within_eq (p q : Place) (n : Nat) :
    Claims.Within p n q = (p.sameMemory q && decide (p.key ≤ q.key ∧ q.key < p.key + n)) := by
  cases p <;> cases q <;> rfl

theorem Mems.list_setList_eq (m : Mems) (p q : Place) (l : List Host.Cell) :
    (m.setList p l).list q = if p.sameMemory q then l else m.list q := by
  rcases p with _ | _ | _ | _ | ⟨_ | _, _⟩ <;> rcases q with _ | _ | _ | _ | ⟨_ | _, _⟩ <;> rfl

theorem Mems.list_of_sameMemory {p q : Place} (m : Mems) (h : p.sameMemory q = true) : m.list q = m.list p := by
  rcases p with _ | _ | _ | _ | ⟨_ | _, _⟩ <;> rcases q with _ | _ | _ | _ | ⟨_ | _, _⟩ <;>
    simp_all [Place.sameMemory, Mems.list]

/-- A byte after successive bytes have been written in memory. -/
theorem Mems.byte_setBytes {m : Mems} (h : m.wf = true) (p q : Place) (bs : List Byte) :
    (m.setBytes p bs).byte q = if Claims.Within p bs.length q then bs.getD (q.key - p.key) 0#8 else m.byte q := by
  rw [Mems.byte, Mems.setBytes, Mems.list_setList_eq, within_eq]
  cases hm : p.sameMemory q with
  | false => simp [Mems.byte]
  | true =>
    rw [if_pos rfl, Memory.read_writeAll _ _ _ (Mems.wf_list h p), Mems.byte, Mems.list_of_sameMemory m hm]
    simp

@[simp] theorem Mems.byte_setGst (m : Mems) (p q : Place) (g : Gst) : (m.setGst p g).byte q = m.byte q := by
  have hlist : (m.setGst p g).list q = m.list q := by cases p <;> rcases q with _ | _ | _ | _ | ⟨_ | _, _⟩ <;> rfl
  simp [Mems.byte, hlist]

@[simp] theorem Mems.byte_setMark (m : Mems) (p q : Place) (b : Bool) : (m.setMark p b).byte q = m.byte q := by
  have hlist : (m.setMark p b).list q = m.list q := by cases p <;> rcases q with _ | _ | _ | _ | ⟨_ | _, _⟩ <;> rfl
  simp [Mems.byte, hlist]

@[simp] theorem Mems.gst_setBytes (m : Mems) (p q : Place) (bs : List Byte) : (m.setBytes p bs).gst q = m.gst q := by
  rcases p with _ | _ | _ | _ | ⟨_ | _, _⟩ <;> cases q <;> rfl

@[simp] theorem Mems.gst_setMark (m : Mems) (p q : Place) (b : Bool) : (m.setMark p b).gst q = m.gst q := by
  cases p <;> cases q <;> rfl

@[simp] theorem Mems.mark_setBytes (m : Mems) (p q : Place) (bs : List Byte) : (m.setBytes p bs).mark q = m.mark q := by
  rcases p with _ | _ | _ | _ | ⟨_ | _, _⟩ <;> cases q <;> rfl

@[simp] theorem Mems.mark_setGst (m : Mems) (p q : Place) (g : Gst) : (m.setGst p g).mark q = m.mark q := by
  cases p <;> cases q <;> rfl

@[simp] theorem Mems.keyBits_setGst (m : Mems) (p : Place) (g : Gst) : (m.setGst p g).keyBits = m.keyBits := by
  cases p <;> rfl

@[simp] theorem Mems.keyBits_setMark (m : Mems) (p : Place) (b : Bool) : (m.setMark p b).keyBits = m.keyBits := by
  cases p <;> rfl

/-- The presence of a granule of HBM after one of them has been given a state. -/
theorem Mems.gst_setGst_hbm (m : Mems) (a b : Nat) (g : Gst) :
    (m.setGst (.hbm a) g).gst (.hbm b) = if b / 64 = a / 64 then g else m.gst (.hbm b) := by
  by_cases hb : b / 64 = a / 64
  · by_cases hg : g = .empty <;> simp [Mems.setGst, Mems.gst, Table.get, hb, hg]
  · by_cases hg : g = .empty <;>
      simp [Mems.setGst, Mems.gst, Table.get, hb, hg, Table.find?_del_ne _ hb, Table.find?_put_ne _ _ hb]

/-- A member of a list of numbers after one of them has been added or removed. -/
theorem mem_setMember (l : List Nat) (k j : Nat) (b : Bool) : j ∈ setMember l k b ↔ if j = k then b = true else j ∈ l := by
  cases b with
  | false => by_cases h : j = k <;> simp [setMember, h]
  | true =>
    by_cases h : j = k
    · simp [setMember, h]
    · simp only [setMember, if_true, List.append_assoc, List.mem_append, List.mem_filter, List.mem_singleton, h, false_or,
        if_false, decide_eq_true_eq]
      constructor
      · rintro (⟨hj, -⟩ | ⟨hj, -⟩) <;> exact hj
      · intro hj
        rcases Nat.lt_or_gt_of_ne h with hlt | hlt
        · exact .inl ⟨hj, hlt⟩
        · exact .inr ⟨hj, hlt⟩

/-- The mark of a granule of HBM after one of them has been written. -/
theorem Mems.mark_setMark_hbm (m : Mems) (a b : Nat) (v : Bool) :
    (m.setMark (.hbm a) v).mark (.hbm b) = if b / 64 = a / 64 then v else m.mark (.hbm b) := by
  have h : (m.setMark (.hbm a) v).mark (.hbm b) = true ↔ (if b / 64 = a / 64 then v else m.mark (.hbm b)) = true := by
    simp only [Mems.mark, Mems.setMark, List.contains_iff_mem, mem_setMember]
    split <;> simp
  exact Bool.eq_iff_iff.mpr h

/-! ## The length of a unit under AES-256-XTS (R131) -/

theorem length_xorBytes (a b : List Byte) : (xorBytes a b).length = min a.length b.length := by
  simp [xorBytes]

/-- The expansion adds words of four bytes to words of four bytes. -/
theorem aesExpand_words (n i : Nat) (rcon : Byte) (w : List (List Byte)) (hlen : 8 ≤ w.length) (hw : ∀ x ∈ w, x.length = 4) :
    (aesExpand n i rcon w).length = w.length + n ∧ ∀ x ∈ aesExpand n i rcon w, x.length = 4 := by
  induction n generalizing i rcon w with
  | zero => exact ⟨rfl, hw⟩
  | succ n ih =>
    have hget (k : Nat) (hk : k < 8) : (w.getD k []).length = 4 := by
      rw [List.getD_eq_getElem _ _ (by omega)]
      exact hw _ (List.getElem_mem _)
    have hprev := hget 0 (by omega)
    unfold aesExpand
    dsimp only
    generalize w.getD 0 [] = prev at hprev
    have hrot : ((prev.drop 1 ++ prev.take 1).map subByte).length = 4 := by
      simp [hprev]
    refine (ih _ _ _ (by simp; omega) (fun x hx => ?_)).imp (fun h => by rw [h]; simp; omega) id
    obtain rfl | hx := List.mem_cons.mp hx
    · rw [List.length_zipWith, hget 7 (by omega)]
      split
      · generalize (prev.drop 1 ++ prev.take 1).map subByte = z at hrot
        cases z with
        | nil => simp at hrot
        | cons b r => simp at hrot; simp [hrot]
      · split <;> simp [hprev]
    · exact hw x hx

/-- Every round key of a 32-byte key has 16 bytes. -/
theorem length_aesRoundKey {key : List Byte} (h : key.length = 32) {i : Nat} (hi : i < 15) :
    ((aesRoundKeys key).getD i []).length = 16 := by
  have hw0 : ∀ x ∈ ((List.range 8).map (fun i => (key.drop (4 * i)).take 4)).reverse, x.length = 4 := by
    intro x hx
    simp only [List.mem_reverse, List.mem_map, List.mem_range] at hx
    obtain ⟨j, hj, rfl⟩ := hx
    simp [h]; omega
  obtain ⟨hlen, hall⟩ := aesExpand_words 52 8 1#8 _ (by simp) hw0
  have hsum (l : List (List Byte)) (hl : ∀ x ∈ l, x.length = 4) : l.flatten.length = 4 * l.length := by
    induction l with
    | nil => rfl
    | cons x l ih =>
      rw [List.flatten_cons, List.length_append, hl x List.mem_cons_self, ih (fun y hy => hl y (List.mem_cons_of_mem _ hy)),
        List.length_cons]
      omega
  rw [aesRoundKeys, List.getD_eq_getElem _ _ (by simpa using hi), List.getElem_map, hsum]
  · simp only [List.getElem_range, List.length_take, List.length_drop, List.length_reverse, hlen, List.length_map,
      List.length_range]
    omega
  · intro x hx
    exact hall x (List.mem_reverse.mp (List.mem_of_mem_drop (List.mem_of_mem_take hx)))

theorem length_aesEncrypt {key : List Byte} (h : key.length = 32) (x : List Byte) :
    (aesEncrypt (aesRoundKeys key) x).length = 16 := by
  rw [aesEncrypt, length_xorBytes, length_aesRoundKey h (by omega)]
  simp [shiftRows]

/-- No unit grows under XTS. -/
theorem length_aesXts_le (key : List Byte) (unit : Nat) (enc : Bool) (x : List Byte) :
    (aesXts key unit enc x).length ≤ x.length := by
  have h (n : Nat) (p : List Byte × Nat) (f : List Byte × Nat → Nat → List Byte) :
      ((List.range n).foldl (fun (p : List Byte × Nat) i =>
        (p.1 ++ xorBytes (f p i) (leBytes 16 p.2), xtsDouble p.2)) p).1.length ≤ p.1.length + 16 * n := by
    induction n with
    | zero => simp
    | succ n ih =>
      rw [List.range_succ, List.foldl_append, List.foldl_cons, List.foldl_nil, List.length_append, length_xorBytes,
        length_leBytes]
      omega
  refine (h (x.length / 16) ([], _) _).trans ?_
  simp; omega

/-- A unit of whole blocks keeps its length when it is encrypted. -/
theorem length_aesXts_encrypt {key : List Byte} (hkey : key.length = 64) (unit : Nat) (x : List Byte) :
    (aesXts key unit true x).length = 16 * (x.length / 16) := by
  have h (n : Nat) (p : List Byte × Nat) (f : List Byte × Nat → Nat → List Byte) (hf : ∀ p i, (f p i).length = 16) :
      ((List.range n).foldl (fun (p : List Byte × Nat) i =>
        (p.1 ++ xorBytes (f p i) (leBytes 16 p.2), xtsDouble p.2)) p).1.length = p.1.length + 16 * n := by
    induction n with
    | zero => simp
    | succ n ih =>
      rw [List.range_succ, List.foldl_append, List.foldl_cons, List.foldl_nil, List.length_append, length_xorBytes,
        length_leBytes, hf, ih]
      omega
  refine (h (x.length / 16) ([], _) _ (fun p i => length_aesEncrypt (by simp [hkey]) _)).trans ?_
  simp

theorem State.length_xtsKey (s : State) (asid : Nat) : (s.xtsKey asid).length = 64 := by
  unfold State.xtsKey
  split <;> simp [beBytes]

theorem State.length_unit_le (s : State) (asid : Nat) (p : Place) : (s.unit asid p).length ≤ 64 := by
  have hraw : (s.mem.bytes p.granule 64).length = 64 := Memory.length_readAll _ _ _
  unfold State.unit
  dsimp only
  split
  · split
    · exact (length_aesXts_le _ _ _ _).trans_eq hraw
    · exact hraw.le
  · exact hraw.le

/-! ## A granule of HBM stored and filled -/

section
variable (s : State) (asid a : Nat) (bs : List Byte)

theorem State.isKeyed_congr {s t : State} (h : t.disp.aspaces = s.disp.aspaces) (asid : Nat) :
    t.isKeyed asid = s.isKeyed asid := by
  simp [State.isKeyed, State.aspace?, h]

theorem State.xtsKey_congr {s t : State} (h : t.disp.aspaces = s.disp.aspaces) (asid : Nat) :
    t.xtsKey asid = s.xtsKey asid := by
  simp [State.xtsKey, State.aspace?, h]

theorem State.storeBytes_hbm_keyed (h : s.isKeyed asid = true) : ∃ l, a / 64 ∈ l ∧
    s.storeBytes asid (.hbm a) bs = { s with mem := { s.mem.setBytes (Place.hbm a).granule (aesXts (s.xtsKey asid)
      (s.gpaOf a / 64) true ((s.unit asid (.hbm a)).take (a % 64) ++ bs ++ (s.unit asid (.hbm a)).drop (a % 64 + bs.length)))
      with keyBits := l } } :=
  ⟨_, (mem_setMember _ _ _ _).mpr (by simp), if_pos h⟩

theorem State.storeBytes_hbm_clear (h : s.isKeyed asid = false) : ∃ l,
    s.storeBytes asid (.hbm a) bs = { s with mem := { s.mem.setBytes (.hbm a) bs with keyBits := l } } := by
  have h' : ¬s.isKeyed asid = true := ne_true_of_eq_false h
  simp only [State.storeBytes, if_neg h']
  split
  · exact ⟨_, rfl⟩
  · exact ⟨_, rfl⟩

/-- A store in HBM writes bytes and key bits alone. -/
theorem State.storeBytes_hbm_eq : ∃ p d l,
    s.storeBytes asid (.hbm a) bs = { s with mem := { s.mem.setBytes p d with keyBits := l } } := by
  cases h : s.isKeyed asid with
  | true =>
    obtain ⟨l, -, hl⟩ := s.storeBytes_hbm_keyed asid a bs h
    exact ⟨_, _, l, hl⟩
  | false =>
    obtain ⟨l, hl⟩ := s.storeBytes_hbm_clear asid a bs h
    exact ⟨_, _, l, hl⟩

/-- Memory once the granule of HBM at `a` has been filled with `bs` by an address space. -/
def State.filledMem (mark : Bool) : Mems :=
  ((s.storeBytes asid (.hbm a) bs).mem.setGst (.hbm a) .full).setMark (.hbm a) mark

/-- A store into an EMPTY granule fills it and serves its deferred reads (R370, R371). -/
theorem State.storeAt_of_empty (mark : Bool) (h : s.mem.gst (.hbm a) = .empty) : ∃ l,
    s.storeAt asid (.hbm a) true bs mark =
      .ok { s with mem := s.filledMem asid a bs mark, ports := { s.ports with reads := l } } := by
  obtain ⟨p, d, l, hs⟩ := s.storeBytes_hbm_eq asid a bs
  simp only [State.storeAt, State.storeBy, h, State.filledMem, hs]
  exact ⟨_, rfl⟩

theorem State.byte_filledMem (mark : Bool) (q : Place) :
    (s.filledMem asid a bs mark).byte q = (s.storeBytes asid (.hbm a) bs).mem.byte q := by
  simp [State.filledMem]

theorem State.gst_filledMem (mark : Bool) (b : Nat) : (s.filledMem asid a bs mark).gst (.hbm b) =
    if b / 64 = a / 64 then .full else s.mem.gst (.hbm b) := by
  obtain ⟨p, d, l, hs⟩ := s.storeBytes_hbm_eq asid a bs
  have hgst : (s.storeBytes asid (.hbm a) bs).mem.gst (.hbm b) = s.mem.gst (.hbm b) := by
    rw [hs]; exact Mems.gst_setBytes s.mem p (.hbm b) d
  rw [State.filledMem, Mems.gst_setMark, Mems.gst_setGst_hbm, hgst]

theorem State.mark_filledMem (mark : Bool) (b : Nat) : (s.filledMem asid a bs mark).mark (.hbm b) =
    if b / 64 = a / 64 then mark else s.mem.mark (.hbm b) := by
  obtain ⟨p, d, l, hs⟩ := s.storeBytes_hbm_eq asid a bs
  have hmark : (s.storeBytes asid (.hbm a) bs).mem.mark (.hbm b) = s.mem.mark (.hbm b) := by
    rw [hs]; exact Mems.mark_setBytes s.mem p (.hbm b) d
  rw [State.filledMem, Mems.mark_setMark_hbm, Mems.mark_setGst, hmark]

variable {s}

theorem State.wf_filledMem (mark : Bool) (h : s.mem.wf = true) : (s.filledMem asid a bs mark).wf = true := by
  obtain ⟨p, d, l, hs⟩ := s.storeBytes_hbm_eq asid a bs
  rw [State.filledMem, Mems.wf_setMark, Mems.wf_setGst, hs]
  exact Mems.wf_setBytes h p d

/-- The bytes of a granule filled by an address space without a key. -/
theorem State.byte_filledMem_clear (mark : Bool) (hwf : s.mem.wf = true) (hkey : s.isKeyed asid = false) (q : Place) :
    (s.filledMem asid a bs mark).byte q =
      if Claims.Within (.hbm a) bs.length q then bs.getD (q.key - a) 0#8 else s.mem.byte q := by
  obtain ⟨l, hl⟩ := s.storeBytes_hbm_clear asid a bs hkey
  rw [State.byte_filledMem, hl]
  exact Mems.byte_setBytes hwf (.hbm a) q bs

/-- A whole granule that is filled is stored as R131 says, whether its address space has a key or not. -/
theorem State.stored_filledMem {t : State} (mark : Bool) (hwf : s.mem.wf = true) (ha : a % 64 = 0) (hlen : bs.length = 64)
    (ht : t.mem = s.filledMem asid a bs mark) : Claims.Stored s t asid (.hbm a) bs := by
  unfold Claims.Stored
  rw [ht]
  cases hkey : s.isKeyed asid with
  | true =>
    obtain ⟨l, hl, hs⟩ := s.storeBytes_hbm_keyed asid a bs hkey
    refine ⟨fun q => ?_, by simpa [State.filledMem, hs] using hl⟩
    have hunit := s.length_unit_le asid (.hbm a)
    have hxts := length_aesXts_encrypt (s.length_xtsKey asid) (s.gpaOf a / 64)
      ((s.unit asid (.hbm a)).take (a % 64) ++ bs ++ (s.unit asid (.hbm a)).drop (a % 64 + bs.length))
    have h64 : ((s.unit asid (.hbm a)).take (a % 64) ++ bs ++
        (s.unit asid (.hbm a)).drop (a % 64 + bs.length)).length = 64 := by simp [ha, hlen]; omega
    rw [State.byte_filledMem, hs]
    refine (Mems.byte_setBytes hwf _ q _).trans ?_
    rw [hxts, h64]
    rfl
  | false => exact fun q => State.byte_filledMem_clear asid a bs mark hwf hkey q

end

end Sys2Proof.Machine
end

section
/-! SUPPORT. What the reads of a core leave (R117, R342), and LAUNCH (R117, R118). -/

namespace Sys2Proof.Machine

/-- `t` is `s` after reads: posted reads, cached translations, frames of links and energy apart, nothing differs (R132, R152,
R371, R460). -/
structure AfterReads (s t : State) : Prop where
  mem : t.mem = s.mem
  cur : t.cur = s.cur
  mc : t.mc = s.mc
  mcr : t.mcr = s.mcr
  regions : t.regions = s.regions
  aspaces : t.disp.aspaces = s.disp.aspaces

theorem AfterReads.refl (s : State) : AfterReads s s := ⟨rfl, rfl, rfl, rfl, rfl, rfl⟩

theorem AfterReads.trans {s t u : State} (h : AfterReads s t) (g : AfterReads t u) : AfterReads s u :=
  ⟨g.mem.trans h.mem, g.cur.trans h.cur, g.mc.trans h.mc, g.mcr.trans h.mcr, g.regions.trans h.regions,
    g.aspaces.trans h.aspaces⟩

theorem AfterReads.core {s t : State} (h : AfterReads s t) (c : CoreId) : t.core c = s.core c := by
  cases c with
  | mc => exact h.mc
  | seq r => simp [State.core, State.region, h.regions]

theorem AfterReads.me {s t : State} (h : AfterReads s t) : t.me = s.me := by
  rw [State.me, h.cur, h.core]; rfl

theorem SameButTlb.afterReads {s t : State} (h : SameButTlb s t) : AfterReads s t :=
  ⟨h.mem, h.cur, h.mc, h.mcr, h.regions, by rw [h.disp]⟩

theorem State.postRead_afterReads (s : State) (rd : Reader) (p : Place) (asid : Nat) (virt : Option Nat) :
    AfterReads s (s.postRead rd p asid virt) := by
  unfold State.postRead
  split
  · exact .refl s
  · exact ⟨rfl, rfl, rfl, rfl, rfl, rfl⟩

theorem State.loadAt_afterReads (s : State) (rd : Reader) (asid : Nat) (p : Place) (sa : Bool) (n : Nat)
    (virt : Option Nat) : AfterReads s (s.loadAt rd asid p sa n virt).1 := by
  obtain h | h := s.loadAt_same rd asid p sa n virt
  · rw [h]; exact .refl s
  · rw [h]; exact s.postRead_afterReads rd p asid virt

theorem State.charge_afterReads (s : State) (k : Option Nat) (p : Place) : AfterReads s (s.charge k p) := by
  obtain ⟨_, _, _, h⟩ := s.charge_same k p
  rw [h]
  exact ⟨rfl, rfl, rfl, rfl, rfl, rfl⟩

/-- A read of several granules. -/
theorem State.bulkLoad_afterReads (g : Nat) (s : State) (ea : W64) (acc : List Byte) :
    AfterReads s (s.bulkLoad ea g acc).1 := by
  induction g generalizing s ea acc with
  | zero => exact .refl s
  | succ g ih =>
    have hresolve := (s.coreResolve_same ea .read).afterReads
    unfold State.bulkLoad
    split
    next h => rw [h] at hresolve; exact hresolve
    next h => rw [h] at hresolve; exact hresolve
    next s1 p sa h =>
      rw [h] at hresolve
      split
      · exact hresolve
      · have hload := s1.loadAt_afterReads (.core s.cur) (s.coreAsid s.cur) p sa 64 (virtOf s.cur ea)
        split
        next h => rw [h] at hload; exact hresolve.trans hload
        next h => rw [h] at hload; exact hresolve.trans hload
        next h =>
          rw [h] at hload
          exact ((hresolve.trans hload).trans (State.charge_afterReads _ _ _)).trans (ih _ _ _)

theorem State.launchCell_afterReads (s : State) (va : Nat) : AfterReads s (s.launchCell va).1 := by
  have h := (s.translate_same (s.coreAsid s.cur) va .write).afterReads
  unfold State.launchCell
  split
  next s1 p sa ht =>
    rw [ht] at h
    exact h.trans (s1.translate_same _ va .presence).afterReads
  next => exact h

/-- LAUNCH whose record is read and whose cell passes every check and is EMPTY (R117): granule 1 is filled, then granule 0. -/
theorem exec_launch_of_empty {s s1 s2 s3 s4 s5 : State} {d a b : SReg} {bs : List Byte} {p q : Place} {u v : Bool}
    (ha : (s.me.reg a).toNat % 64 = 0) (hb : (s.me.reg b).toNat % 128 = 0)
    (hload : s.bulkLoad (s.me.reg a) 2 [] = (s1, .ok bs)) (hp : s1.launchCell (s.me.reg b).toNat = (s2, .ok p u))
    (hq : s2.launchCell (s.me.reg b + 64#64).toNat = (s3, .ok q v)) (hep : s3.coreEcc p = false)
    (heq : s3.coreEcc q = false) (hgp : s3.mem.gst p = .empty) (hgq : s3.mem.gst q = .empty)
    (h4 : s3.storeAt (s.coreAsid s.cur) q true (bs.drop 64) false = .ok s4)
    (h5 : s4.storeAt (s.coreAsid s.cur) p true (bs.take 64) true = .ok s5) :
    exec (.launch d a b) s = done ((s5.charge (s.coreCluster s.cur) p).charge (s.coreCluster s.cur) q)
      (fun c => c.setReg d (BitVec.ofNat 64 (fieldLe bs 8 8))) := by
  change execLaunch d a b s = _
  simp [execLaunch, aligned, -BitVec.toNat_add, ha, hb, hload, hp, hq, hep, heq, hgp, hgq, h4, h5]

/-- Zeros at the top of a little-endian number (R3). -/
theorem leNat_append_zeros (l : List Byte) (n : Nat) : leNat (l ++ List.replicate n 0#8) = leNat l := by
  induction l with
  | nil => induction n with
    | zero => rfl
    | succ n ih => simpa [List.replicate_succ, leNat] using ih
  | cons b l ih => simp [leNat, ih]

/-- A field is the number that its bytes are. -/
theorem fieldLe_eq (l : List Byte) (off n : Nat) : fieldLe l off n = leNat ((l.drop off).take n) :=
  leNat_append_zeros _ _

end Sys2Proof.Machine

namespace Sys2Proof.Proofs

open Sys2Proof.Machine Sys2Proof.Claims

/-- Settles O16: granule 1 is filled and then granule 0, by the rule of a filled granule of HBM. -/
theorem launchWritesRecord : Obligations.LaunchWritesRecord := by
  intro s s1 s2 s3 d a b bs x y u v sa sb ha hb hload hp hq hep heq hx hy hne hlen hgx hgy hwf
  have hreads : AfterReads s s3 := by
    have h1 := State.bulkLoad_afterReads 2 s sa []
    have h2 := s1.launchCell_afterReads sb.toNat
    have h3 := s2.launchCell_afterReads (sb + 64#64).toNat
    rw [hload] at h1; rw [hp] at h2; rw [hq] at h3
    exact (h1.trans h2).trans h3
  have hcells : x / 64 ≠ y / 64 := by omega
  rw [← hreads.mem] at hwf
  obtain ⟨l4, h4⟩ := s3.storeAt_of_empty (s.coreAsid s.cur) y (bs.drop 64) false hgy
  set s4 : State := { s3 with mem := s3.filledMem (s.coreAsid s.cur) y (bs.drop 64) false,
                              ports := { s3.ports with reads := l4 } } with hs4
  have hgx4 : s4.mem.gst (.hbm x) = .empty := by
    rw [hs4, State.gst_filledMem, if_neg hcells]; exact hgx
  obtain ⟨l5, h5⟩ := s4.storeAt_of_empty (s.coreAsid s.cur) x (bs.take 64) true hgx4
  set s5 : State := { s4 with mem := s4.filledMem (s.coreAsid s.cur) x (bs.take 64) true,
                              ports := { s4.ports with reads := l5 } } with hs5
  have hexec := exec_launch_of_empty (d := d) ha hb hload hp hq hep heq hgx hgy h4 h5
  obtain ⟨t, ht, htmem, htme, -⟩ := done_eq ((s5.charge (s.coreCluster s.cur) (.hbm x)).charge (s.coreCluster s.cur) (.hbm y))
    (fun c => c.setReg d (BitVec.ofNat 64 (fieldLe bs 8 8)))
  have hmem : t.mem = s4.filledMem (s.coreAsid s.cur) x (bs.take 64) true := by
    rw [htmem, State.charge_mem, State.charge_mem]
  have hme5 : s5.me = s.me := (AfterReads.me (s := s3) ⟨rfl, rfl, rfl, rfl, rfl, rfl⟩).trans hreads.me
  have hkeyed : s4.isKeyed (s.coreAsid s.cur) = s.isKeyed (s.coreAsid s.cur) := State.isKeyed_congr hreads.aspaces _
  have hwf4 : s4.mem.wf = true := State.wf_filledMem _ _ _ _ hwf
  refine ⟨t, hexec.trans ht, ?_, ?_, ?_, ?_, ?_, ⟨s4, ?_, ?_, hkeyed, State.xtsKey_congr hreads.aspaces _⟩, fun hclear q => ?_⟩
  · rw [htme, State.charge_me, State.charge_me, hme5, fieldLe_eq]
    simp [retired, Core.complete]
  · rw [hmem, State.gst_filledMem, if_pos rfl]
  · rw [hmem, State.gst_filledMem, if_neg (Ne.symm hcells), hs4, State.gst_filledMem, if_pos rfl]
  · rw [hmem, State.mark_filledMem, if_pos rfl]
  · rw [hmem, State.mark_filledMem, if_neg (Ne.symm hcells), hs4, State.mark_filledMem, if_pos rfl]
  · exact State.stored_filledMem _ _ _ _ hwf hy (by simp [hlen]) rfl
  · exact State.stored_filledMem _ _ _ _ hwf4 hx (by simp [hlen]) hmem
  · have hkey3 : s3.isKeyed (s.coreAsid s.cur) = false := (State.isKeyed_congr hreads.aspaces _).trans hclear
    have hbyte (i : Nat) (hi : i < 64) : (bs.take 64).getD i 0#8 = bs.getD i 0#8 := by
      simp [hi]
    have hdrop (i : Nat) : (bs.drop 64).getD i 0#8 = bs.getD (64 + i) 0#8 := by simp
    rw [hmem, State.byte_filledMem_clear _ _ _ _ hwf4 (hkeyed.trans hclear), hs4, State.byte_filledMem_clear _ _ _ _ hwf hkey3]
    simp only [List.length_take, List.length_drop, hlen, hreads.mem, hdrop]
    norm_num
    split
    next hin =>
      have hlt : q.key - x < 64 := by
        rw [within_eq, Bool.and_eq_true, decide_eq_true_eq] at hin
        have hupper : q.key < x + 64 := hin.2.2
        omega
      simpa using hbyte _ hlt
    next => rfl

end Sys2Proof.Proofs
end

section
/-! SUPPORT. The cells of address space 0 (R121, R122), the reply of a command and its chain's next cell (R103, R106), and what
a command event does once its command stands. -/

namespace Sys2Proof.Machine

/-! ## Cells of address space 0 (R122) -/

theorem State.as0Place_congr {s t : State} (h : t.mcr = s.mcr) (va : Nat) : t.as0Place va = s.as0Place va := by
  have hmember : t.member = s.member := congrArg (fun m => m.member.toNat) h
  simp only [State.as0Place, State.walkOf, State.hbmPlace, if_true, hmember]

theorem State.as0Cell_congr {s t : State} (h : t.mcr = s.mcr) (va : Nat) : t.as0Cell va = s.as0Cell va := by
  rw [State.as0Cell, State.as0Cell, State.as0Place_congr h]

/-- The leaf of a page of address space 0 leads to the address itself, from the base of address space 0 on. -/
theorem State.as0Place_of_leaf {s : State} {va : Nat} {l : Leaf} (hl : as0Leaf va = .ok l) (hva : va < 0x300000)
    (hsize : l.size = 65536) (hphys : l.phys = as0Base + (va - va % 65536)) :
    s.as0Place va = some (.hbm (as0Base + va), l.sa) := by
  have hcanon : ¬va / 2 ^ 52 ≠ 0 := by omega
  have hsum : s.member * 2 ^ 47 + (as0Base + (va - va % 65536)) + va % 65536 = s.member * 2 ^ 47 + (as0Base + va) := by omega
  have hbase : as0Base + va < 2 ^ 47 := by unfold as0Base; omega
  have hdiv : (s.member * 2 ^ 47 + (as0Base + va)) / 2 ^ 47 = s.member := by omega
  have hmod : (s.member * 2 ^ 47 + (as0Base + va)) % 2 ^ 47 = as0Base + va := by omega
  rw [State.as0Place, State.walkOf, if_neg hcanon, if_pos rfl, hl]
  simp only [hsize, hphys, hsum, State.hbmPlace, hdiv, hmod, if_true]

/-- Where an address of address space 0 lies. -/
theorem State.as0Place_eq {s : State} {va : Nat} {p : Place} {sa : Bool} (h : s.as0Place va = some (p, sa)) :
    p = .hbm (as0Base + va) := by
  by_cases h1 : 0x10000 ≤ va ∧ va < 0x20000 ∨ 0x100000 ≤ va ∧ va < 0x200000
  · rw [State.as0Place_of_leaf (if_pos h1) (by omega) rfl rfl] at h
    cases h; rfl
  · by_cases h2 : 0x200000 ≤ va ∧ va < 0x300000
    · have hleaf : as0Leaf va = .ok _ := (if_neg h1).trans (if_pos h2)
      rw [State.as0Place_of_leaf hleaf (by omega) rfl rfl] at h
      cases h; rfl
    · have hnone : as0Leaf va = .error clsTranslation := (if_neg h1).trans (if_neg h2)
      by_cases hcanon : va / 2 ^ 52 ≠ 0
      · rw [State.as0Place, State.walkOf, if_pos hcanon] at h
        simp at h
      · rw [State.as0Place, State.walkOf, if_neg hcanon, if_pos rfl, hnone] at h
        simp at h

/-- The granules that CELL_CLR may name are single-assignment (R105, R122). -/
theorem State.as0Place_of_clearable (s : State) {va : Nat} (h : clearable va = true) :
    s.as0Place va = some (.hbm (as0Base + va), true) := by
  have hpage : 0x10000 ≤ va ∧ va < 0x20000 ∨ 0x100000 ≤ va ∧ va < 0x200000 := by
    simp only [clearable, Bool.or_eq_true, decide_eq_true_eq] at h
    omega
  exact State.as0Place_of_leaf (if_pos hpage) (by omega) rfl rfl

/-! ## A cell that is filled, and the reads of a chain -/

theorem length_padTo {l : List Byte} {n : Nat} (h : l.length ≤ n) : (padTo l n).length = n := by
  simp [padTo]; omega

/-- A cell that can be filled is; any other is left as it is (R106). -/
theorem State.fillCell_cases (s : State) (va : Nat) (bs : List Byte) : s.fillCell va bs = s ∨
    ∃ a l, va % 64 = 0 ∧ s.as0Place va = some (.hbm a, true) ∧ s.mem.gst (.hbm a) = .empty ∧
      s.fillCell va bs = { s with mem := s.filledMem 0 a (padTo bs 64) false, ports := { s.ports with reads := l } } := by
  unfold State.fillCell
  split
  · exact .inl rfl
  · rename_i hva
    split
    · rename_i p hp
      obtain rfl := State.as0Place_eq hp
      cases hg : s.mem.gst (.hbm (as0Base + va)) with
      | empty =>
        obtain ⟨l, hl⟩ := s.storeAt_of_empty 0 (as0Base + va) (padTo bs 64) false hg
        refine .inr ⟨_, l, by simpa using hva, hp, hg, ?_⟩
        rw [hl]
      | full => simp [State.storeAt, State.storeBy, hg]
      | void => simp [State.storeAt, State.storeBy, hg]
    · exact .inl rfl

theorem State.fillCell_of_free {s : State} {va a : Nat} (bs : List Byte) (hva : va % 64 = 0)
    (hp : s.as0Place va = some (.hbm a, true)) (hg : s.mem.gst (.hbm a) = .empty) : ∃ l,
    s.fillCell va bs = { s with mem := s.filledMem 0 a (padTo bs 64) false, ports := { s.ports with reads := l } } := by
  obtain ⟨l, hl⟩ := s.storeAt_of_empty 0 a (padTo bs 64) false hg
  refine ⟨l, ?_⟩
  simp [State.fillCell, hva, hp, hl]

/-- The bytes of a granule filled by an address space without a key. -/
theorem State.bytes_filledMem_clear {s : State} {asid a : Nat} {bs : List Byte} (mark : Bool) (hwf : s.mem.wf = true)
    (hkey : s.isKeyed asid = false) : (s.filledMem asid a bs mark).bytes (.hbm a) bs.length = bs := by
  obtain ⟨l, hl⟩ := s.storeBytes_hbm_clear asid a bs hkey
  rw [State.filledMem, hl]
  exact Memory.readAll_writeAll a bs (Mems.wf_list hwf (.hbm a))

theorem State.askCell_eq (s : State) (rd : Reader) (p : Place) (asid : Nat) : ∃ r, r.reader = rd ∧
    s.askCell rd p asid = { s with ports := { s.ports with reads := s.ports.reads ++ [r] } } := by
  unfold State.askCell
  dsimp only
  split
  · exact ⟨⟨rd, p.granule, none, asid, none⟩, rfl, rfl⟩
  · exact ⟨⟨rd, p.granule, none, asid, _⟩, rfl, rfl⟩
  · exact ⟨⟨rd, p.granule, none, asid, _⟩, rfl, rfl⟩

/-- The posting of a chain's reads adds reads alone. -/
theorem State.askGranules_eq (g : Nat) (s : State) (rd : Reader) (va : Nat) : ∃ l,
    s.askGranules rd va g = { s with ports := { s.ports with reads := l } } := by
  induction g generalizing s va with
  | zero => exact ⟨s.ports.reads, rfl⟩
  | succ g ih =>
    unfold State.askGranules
    split
    · rename_i p _ _
      obtain ⟨r, -, hr⟩ := s.askCell_eq rd p 0
      obtain ⟨l, hl⟩ := ih (s.askCell rd p 0) (va + 64)
      exact ⟨l, by rw [hl, hr]⟩
    · exact ⟨s.ports.reads, rfl⟩

/-! ## The chain goes on, and the reply (R103, R106) -/

theorem Disp.port_setPort_self (d : Disp) (p : PortId) (x : Port) : (d.setPort p x).port p = x := by
  cases p <;> rfl

theorem Disp.port_setPort_ne (d : Disp) {p q : PortId} (x : Port) (h : q ≠ p) : (d.setPort p x).port q = d.port q := by
  cases p <;> cases q <;> simp_all [Disp.setPort, Disp.port]

/-- The chain waits on its next cell, or has stopped with an alert (R103). -/
theorem State.advanceCommand_eq (s : State) (p : PortId) (next : W64) : ∃ l n, s.advanceCommand p next =
    { s with
      ports := { s.ports with reads := l }
      disp := { s.disp.setPort p { s.port p with
          cmd := if next.toNat % 64 = 0 ∧ s.as0Cell next.toNat then some next else none } with notices := n } } := by
  have hcell : (s.dropReads (fun r => r == .command p)).as0Cell next.toNat = s.as0Cell next.toNat := State.as0Cell_congr rfl _
  unfold State.advanceCommand
  simp only [hcell]
  split
  · obtain ⟨l, hl⟩ := State.askGranules_eq 1 ((s.dropReads (fun r => r == .command p)).setPort p
      { (s.dropReads (fun r => r == .command p)).port p with cmd := some next }) (.command p) next.toNat
    refine ⟨l, s.disp.notices, ?_⟩
    rw [State.postCommand, hl]
    cases p <;> rfl
  · exact ⟨_, _, rfl⟩

/-- A command is answered with a status: its reply, the chain's next cell, and the other chain's turn (R30, R103, R106). -/
def State.answer (s : State) (p : PortId) (c : Command) (status : Nat) : State :=
  ((s.reply c.reply status).advanceCommand p c.next).passCommand p

/-- The answer changes memory, posted reads and the port, and with them notices and the chains' turn. -/
theorem State.answer_eq (s : State) (p : PortId) (c : Command) (status : Nat) : ∃ l n, s.answer p c status =
    { s with
      mem := (s.reply c.reply status).mem, ports := { s.ports with reads := l }
      disp := { s.disp.setPort p { s.port p with
          cmd := if c.next.toNat % 64 = 0 ∧ s.as0Cell c.next.toNat then some c.next else none } with
        notices := n, cmdTurn := otherPort p } } := by
  obtain ⟨m, r, hr⟩ : ∃ m r, s.reply c.reply status = { s with mem := m, ports := { s.ports with reads := r } } := by
    obtain hf | ⟨a, r, -, -, -, hf⟩ := s.fillCell_cases c.reply.toNat (leBytes 8 status)
    · exact ⟨s.mem, s.ports.reads, hf⟩
    · exact ⟨_, r, hf⟩
  obtain ⟨l, n, h⟩ := (s.reply c.reply status).advanceCommand_eq p c.next
  have hcell : (s.reply c.reply status).as0Cell c.next.toNat = s.as0Cell c.next.toNat := State.as0Cell_congr (by rw [hr]) _
  rw [hcell] at h
  refine ⟨l, n, ?_⟩
  rw [State.answer, h, hr]
  cases p <;> rfl

section
variable (s : State) (p : PortId) (c : Command) (status : Nat)

@[simp] theorem State.answer_sems : (s.answer p c status).disp.sems = s.disp.sems := by
  obtain ⟨_, _, h⟩ := s.answer_eq p c status; rw [h]; cases p <;> rfl
@[simp] theorem State.answer_caravans : (s.answer p c status).disp.caravans = s.disp.caravans := by
  obtain ⟨_, _, h⟩ := s.answer_eq p c status; rw [h]; cases p <;> rfl
@[simp] theorem State.answer_reserved : (s.answer p c status).disp.reserved = s.disp.reserved := by
  obtain ⟨_, _, h⟩ := s.answer_eq p c status; rw [h]; cases p <;> rfl
@[simp] theorem State.answer_aspaces : (s.answer p c status).disp.aspaces = s.disp.aspaces := by
  obtain ⟨_, _, h⟩ := s.answer_eq p c status; rw [h]; cases p <;> rfl
@[simp] theorem State.answer_tlb : (s.answer p c status).ports.tlb = s.ports.tlb := by
  obtain ⟨_, _, h⟩ := s.answer_eq p c status; rw [h]
theorem State.answer_mem : (s.answer p c status).mem = (s.reply c.reply status).mem := by
  obtain ⟨_, _, h⟩ := s.answer_eq p c status; rw [h]

@[simp] theorem State.sem_answer (n : Nat) : (s.answer p c status).sem n = s.sem n := by simp [State.sem]
@[simp] theorem State.caravan_answer (n : Nat) : (s.answer p c status).caravan n = s.caravan n := by simp [State.caravan]
@[simp] theorem State.aspace?_answer (n : Nat) : (s.answer p c status).aspace? n = s.aspace? n := by simp [State.aspace?]

end

/-- The reply changes no granule of HBM but its own (R106). -/
theorem State.answer_keeps {s : State} (p : PortId) (c : Command) (status : Nat) {a : Nat} (hwf : s.mem.wf = true)
    (hkey : s.isKeyed 0 = false) (ha : ∀ b, s.as0Place c.reply.toNat = some (.hbm b, true) → b / 64 ≠ a / 64) :
    (s.answer p c status).mem.gst (.hbm a) = s.mem.gst (.hbm a) ∧
    (s.answer p c status).mem.mark (.hbm a) = s.mem.mark (.hbm a) ∧
    (s.answer p c status).mem.byte (.hbm a) = s.mem.byte (.hbm a) := by
  rw [State.answer_mem, State.reply]
  obtain h | ⟨b, l, hva, hp, -, h⟩ := s.fillCell_cases c.reply.toNat (leBytes 8 status)
  · rw [h]; exact ⟨rfl, rfl, rfl⟩
  · have hne : a / 64 ≠ b / 64 := Ne.symm (ha b hp)
    have hb : b % 64 = 0 := by
      have hb := Place.hbm.inj (State.as0Place_eq hp)
      unfold as0Base at hb
      omega
    rw [h, State.gst_filledMem, if_neg hne, State.mark_filledMem, if_neg hne,
      State.byte_filledMem_clear _ _ _ _ hwf hkey, length_padTo (by simp), if_neg]
    · exact ⟨rfl, rfl, rfl⟩
    · simp only [within_eq, Place.sameMemory, Bool.true_and, decide_eq_true_eq]
      show ¬(b ≤ a ∧ a < b + 64)
      omega

end Sys2Proof.Machine

namespace Sys2Proof.Claims

open Sys2Proof.Machine

/-- A state that has the control registers of `s`, canonical memory and no key of address space 0, and in which no cell that was
free has been filled, can be answered from. -/
structure Answerable (s u : State) (c : Command) : Prop where
  mcr : u.mcr = s.mcr
  wf : u.mem.wf = true
  clear : u.isKeyed 0 = false
  free : ∀ a, FreeCell s c.reply a → u.mem.gst (.hbm a) = .empty

/-- The answer is the one R103 and R106 describe. -/
theorem answered_answer {s u : State} {c : Command} (p : PortId) {status : Nat} (h : Answerable s u c) :
    Answered s (u.answer p c status) p c status := by
  obtain ⟨hmcr, hwf, hclear, hfree⟩ := h
  refine ⟨fun a ha => ?_, ?_, ?_⟩
  · obtain ⟨hva, hp, hg⟩ := ha
    obtain ⟨l, hl⟩ := State.fillCell_of_free (leBytes 8 status) hva ((State.as0Place_congr hmcr _).trans hp)
      (hfree a ⟨hva, hp, hg⟩)
    have hbytes := State.bytes_filledMem_clear (a := a) (bs := padTo (leBytes 8 status) 64) false hwf hclear
    rw [length_padTo (by simp)] at hbytes
    rw [FilledWith, State.answer_mem, State.reply, hl]
    exact ⟨by rw [State.gst_filledMem, if_pos rfl], hbytes⟩
  · obtain ⟨l, n, heq⟩ := u.answer_eq p c status
    rw [heq, ← State.as0Cell_congr hmcr]
    cases p <;> rfl
  · obtain ⟨l, n, heq⟩ := u.answer_eq p c status
    rw [heq]

section
variable {s : State} {p : PortId} {c : Command} {opc : Nat}

theorem CommandStands.answerable (h : CommandStands s p c opc) : Answerable s s c := by
  obtain ⟨-, -, -, -, hwf, hclear⟩ := h
  exact ⟨rfl, hwf, hclear, fun a ha => ha.2.2⟩

/-- A state with the same memory, control registers and key bindings can be answered from as well. -/
theorem CommandStands.answerable_of_same {u : State} (h : CommandStands s p c opc) (hmem : u.mem = s.mem)
    (hmcr : u.mcr = s.mcr) (hkey : u.isKeyed 0 = s.isKeyed 0) : Answerable s u c := by
  obtain ⟨-, -, -, -, hwf, hclear⟩ := h
  exact ⟨hmcr, by rw [hmem]; exact hwf, hkey.trans hclear, fun a ha => by rw [hmem]; exact ha.2.2⟩

theorem servable_of_stands (h : CommandStands s p c opc) : s.servableCommand p = some c := by
  obtain ⟨hat, hturn, -⟩ := h
  rw [State.servableCommand, if_pos (hturn.imp id (fun h => by simp [h])), hat]

/-- A command that stands is answered over the state that its event gives. -/
theorem onCommand_answer {sub : Command → Bool} {f : Command → CmdRes} {u : State} {status : Nat}
    (h : CommandStands s p c opc) (hsub : sub c = true) (hf : f c = .answer status u) :
    onCommand s p opc sub f = .next (u.answer p c status) := by
  have hserve := servable_of_stands h
  obtain ⟨-, -, hsound, hopc, -⟩ := h
  simp [onCommand, hserve, hsound, hopc, hsub, hf, State.answer]

theorem onCommand_wait {sub : Command → Bool} {f : Command → CmdRes} {u : State} (h : CommandStands s p c opc)
    (hsub : sub c = true) (hf : f c = .wait u) : onCommand s p opc sub f = .next (u.passCommand p) := by
  have hserve := servable_of_stands h
  obtain ⟨-, -, hsound, hopc, -⟩ := h
  simp [onCommand, hserve, hsound, hopc, hsub, hf]

/-- A command waits while it is the other chain's turn and a command stands there (R30). -/
theorem onCommand_not_turn {sub : Command → Bool} {f : Command → CmdRes} (hturn : s.disp.cmdTurn = otherPort p)
    (hother : (s.commandAt (otherPort p)).isSome = true) : onCommand s p opc sub f = .next s := by
  have hne : otherPort p ≠ p := by cases p <;> decide
  have hsome : s.commandAt (otherPort p) ≠ none := by simpa [Option.isSome_iff_ne_none] using hother
  simp [onCommand, State.servableCommand, hturn, hne, hsome]

theorem arg_eq (c : Command) (off n : Nat) : fieldLe c.args off n = arg c off n := fieldLe_eq _ _ _

theorem unnamed_eq_false {off n : Nat} (h : ZeroArgs c off n) : c.unnamed off n = false := by
  have hzero : (c.args.drop off).take n = List.replicate ((c.args.drop off).take n).length 0#8 := List.eq_replicate_of_mem h
  have hnat := leNat_append_zeros [] ((c.args.drop off).take n).length
  rw [List.nil_append, ← hzero] at hnat
  simp [Command.unnamed, fieldLe_eq, hnat, leNat]

theorem badSem_eq_false (h : c.sem < 64) : c.badSem = false := by
  simp [Command.badSem]; omega

end

end Sys2Proof.Claims
end

section
/-! SUPPORT. The commands of the control ports on semaphores and tables (R104, R106 to R110, R138): the release of every semaphore
of a code, the end of sessions, and the table entries of caravans. -/

namespace Sys2Proof.Machine

/-! ## Tables whose keys are filtered -/

/-- The entry of a key in a table of which only the keys of a kind are left. -/
theorem Table.find?_filter_key {α : Type} (t : Table α) (keep : Nat → Bool) (k : Nat) :
    Table.find? (t.filter (fun e => keep e.1)) k = if keep k then Table.find? t k else none := by
  induction t with
  | nil => simp
  | cons e t ih =>
    by_cases hk : e.1 = k
    · cases hkeep : keep k <;> simp [hk, hkeep, ih, Table.find?_cons]
    · cases hkeep : keep e.1 <;> simp [hk, hkeep, ih, Table.find?_cons]

/-- The entry of a key stands in the table. -/
theorem Table.mem_of_find? {α : Type} {t : Table α} {k : Nat} {v : α} (h : Table.find? t k = some v) : (k, v) ∈ t := by
  induction t with
  | nil => simp at h
  | cons e t ih =>
    rw [Table.find?_cons] at h
    split at h
    next hk =>
      obtain rfl := Option.some.inj h
      simp [← hk]
    next => exact List.mem_cons_of_mem _ (ih h)

/-! ## Semaphores that nobody waits for -/

theorem State.setSem_free (s : State) (n : Nat) :
    s.setSem n Sem.free = { s with disp := { s.disp with sems := Table.del s.disp.sems n } } := by
  simp [State.setSem]

/-- The entry of a semaphore, when nobody waits for any. -/
theorem State.sem_waiters_of_none {s : State} (h : ∀ e ∈ s.disp.sems, e.2.waiters = []) (n : Nat) :
    (s.sem n).waiters = [] := by
  rw [State.sem, Table.get]
  cases hx : Table.find? s.disp.sems n with
  | none => rfl
  | some x => exact h _ (Table.mem_of_find? hx)

/-- Semaphores nobody waits for are free once they are released. -/
theorem State.foldl_releaseSem (code : Nat) (l : List (Nat × Sem)) (s : State) (h : ∀ e ∈ s.disp.sems, e.2.waiters = []) :
    l.foldl (fun s e => s.releaseSem e.1 code) s =
      { s with disp := { s.disp with sems := s.disp.sems.filter (fun e => decide (e.1 ∉ l.map Prod.fst)) } } := by
  induction l generalizing s with
  | nil => simp
  | cons f l ih =>
    have hfilter : (Table.del s.disp.sems f.1).filter (fun e => decide (e.1 ∉ l.map Prod.fst)) =
        s.disp.sems.filter (fun e => decide (e.1 ∉ (f :: l).map Prod.fst)) := by
      rw [Table.del, List.filter_filter]
      refine List.filter_congr fun e _ => ?_
      rw [Bool.eq_iff_iff]
      simp only [Bool.and_eq_true, decide_eq_true_eq, bne_iff_ne, List.map_cons, List.mem_cons, not_or]
      exact and_comm
    rw [List.foldl_cons, State.releaseSem_of_nil code (State.sem_waiters_of_none h f.1), State.setSem_free, ih]
    · rw [hfilter]
    · exact fun e he => h e (List.mem_filter.mp he).1

/-- A code holds the semaphore of an entry of the table. -/
def State.Holds (s : State) (code m : Nat) : Prop := ∃ e ∈ s.disp.sems, e.1 = m ∧ e.2.heldBy code = true

/-- Every semaphore of a code is free once they are released, if nobody waits, and no other has changed (R109). -/
theorem State.releaseAll_eq {s : State} (code : Nat) (h : ∀ e ∈ s.disp.sems, e.2.waiters = []) : ∃ sems,
    s.releaseAll code = { s with disp := { s.disp with sems := sems } } ∧
    (∀ m, s.Holds code m → (s.releaseAll code).sem m = Sem.free) ∧
    ∀ m, ¬s.Holds code m → (s.releaseAll code).sem m = s.sem m := by
  have heq := State.foldl_releaseSem code (s.disp.sems.filter (fun e => e.2.heldBy code)) s h
  rw [← State.releaseAll] at heq
  have hkey (m : Nat) : m ∈ (s.disp.sems.filter (fun e => e.2.heldBy code)).map Prod.fst ↔ s.Holds code m := by
    simp only [State.Holds, List.mem_map, List.mem_filter]
    exact ⟨fun ⟨e, ⟨he, hheld⟩, hm⟩ => ⟨e, he, hm, hheld⟩, fun ⟨e, he, hm, hheld⟩ => ⟨e, ⟨he, hheld⟩, hm⟩⟩
  have hsem (m : Nat) := Table.find?_filter_key s.disp.sems
    (fun k => decide (k ∉ (s.disp.sems.filter (fun e => e.2.heldBy code)).map Prod.fst)) m
  refine ⟨_, heq, fun m hm => ?_, fun m hm => ?_⟩
  · rw [heq, State.sem, Table.get, hsem, if_neg (by simpa using (hkey m).mpr hm)]
    rfl
  · rw [heq, State.sem, State.sem, Table.get, Table.get, hsem, if_pos (by simpa using fun h => hm ((hkey m).mp h))]

/-- A semaphore of a table in which a code holds none. -/
theorem State.sem_heldBy_of_not_holds {s : State} {code m : Nat} (hcode : code ≠ 0x1FF) (h : ¬s.Holds code m) :
    (s.sem m).heldBy code = false := by
  rw [State.sem, Table.get]
  cases hx : Table.find? s.disp.sems m with
  | none => simp [Sem.heldBy, Sem.free, Ne.symm hcode]
  | some x => exact Bool.eq_false_iff.mpr fun hheld => h ⟨_, Table.mem_of_find? hx, rfl, hheld⟩

/-! ## Sessions that end (R134) -/

/-- An address space once its session has ended. -/
def Aspace.sessionless (a : Aspace) : Aspace := { a with session := none }

/-- The end of sessions changes address spaces and captures alone. -/
theorem State.foldl_endSession (l : List Nat) (s : State) :
    (l.foldl State.endSession s).mem = s.mem ∧ (l.foldl State.endSession s).mcr = s.mcr ∧
    (l.foldl State.endSession s).disp.sems = s.disp.sems ∧
    ∀ n, (l.foldl State.endSession s).aspace? n = if n ∈ l then (s.aspace? n).map Aspace.sessionless else s.aspace? n := by
  induction l generalizing s with
  | nil => simp
  | cons k l ih =>
    have hstep : (s.endSession k).mem = s.mem ∧ (s.endSession k).mcr = s.mcr ∧ (s.endSession k).disp.sems = s.disp.sems ∧
        ∀ n, (s.endSession k).aspace? n = if n = k then (s.aspace? n).map Aspace.sessionless else s.aspace? n := by
      unfold State.endSession
      split
      next hk => exact ⟨rfl, rfl, rfl, fun n => by by_cases hn : n = k <;> simp [hn, hk]⟩
      next a hk =>
        refine ⟨rfl, rfl, rfl, fun n => ?_⟩
        by_cases hn : n = k
        · subst hn
          rw [hk, if_pos rfl]
          exact Table.find?_put_self _ _ _
        · rw [if_neg hn]
          exact Table.find?_put_ne _ _ hn
    obtain ⟨hmem, hmcr, hsems, hasp⟩ := ih (s.endSession k)
    obtain ⟨smem, smcr, ssems, sasp⟩ := hstep
    rw [List.foldl_cons]
    refine ⟨hmem.trans smem, hmcr.trans smcr, hsems.trans ssems, fun n => ?_⟩
    rw [hasp, sasp]
    have htwice : Aspace.sessionless ∘ Aspace.sessionless = Aspace.sessionless := rfl
    by_cases hn : n = k
    · by_cases hl : k ∈ l <;> simp [hn, hl, htwice]
    · simp [hn]

theorem State.isKeyed_foldl_endSession (l : List Nat) (s : State) (asid : Nat) :
    (l.foldl State.endSession s).isKeyed asid = s.isKeyed asid := by
  obtain ⟨-, -, -, h⟩ := s.foldl_endSession l
  unfold State.isKeyed
  rw [h]
  by_cases hl : asid ∈ l
  · cases s.aspace? asid <;> simp [hl, Aspace.sessionless]
  · rw [if_neg hl]

/-! ## Caravans (R110) -/

theorem State.caravan_setCaravan_self (s : State) (k : Nat) {x : Caravan} (h : x.state = .unreg → x = Caravan.init) :
    (s.setCaravan k x).caravan k = x := by
  by_cases hx : x.state = .unreg
  · simp [State.caravan, State.setCaravan, Table.get, h hx, Caravan.init]
  · simp [State.caravan, State.setCaravan, Table.get, hx]

theorem State.caravan_setCaravan_ne (s : State) {k m : Nat} (x : Caravan) (h : m ≠ k) :
    (s.setCaravan k x).caravan m = s.caravan m := by
  by_cases hx : x.state = .unreg <;>
    simp [State.caravan, State.setCaravan, Table.get, hx, Table.find?_del_ne _ h, Table.find?_put_ne _ _ h]

theorem State.saPlace_same (s : State) (asid va : Nat) : SameButTlb s (s.saPlace asid va).1 := by
  have h := s.translate_same asid va .read
  unfold State.saPlace
  split <;> simp_all

/-- The reads on a launch cell: two of the caravan's, or none where the cell is no single-assignment page (R110). -/
theorem State.askHead_eq (s : State) (car asid va : Nat) : ∃ tlb n l, (s.askHead car asid va).1 =
    { s with free := n, ports := { s.ports with tlb := tlb, reads := s.ports.reads ++ l } } ∧
    (∀ r ∈ l, r.reader = .carHead car) ∧ ((s.askHead car asid va).2 = true → l.length = 2) := by
  unfold State.askHead
  have h1 := s.saPlace_same asid va
  split
  next s1 hs =>
    rw [hs] at h1
    obtain ⟨tlb, n, rfl⟩ := h1
    exact ⟨tlb, n, [], by simp, by simp, by simp⟩
  next s1 p hs =>
    rw [hs] at h1
    have h2 := h1.trans (s1.saPlace_same asid (va + 64))
    split
    next s2 hs2 =>
      rw [hs2] at h2
      obtain ⟨tlb, n, rfl⟩ := h2
      exact ⟨tlb, n, [], by simp, by simp, by simp⟩
    next s2 q hs2 =>
      rw [hs2] at h2
      obtain ⟨tlb, n, rfl⟩ := h2
      obtain ⟨r, hr, hask⟩ := State.askCell_eq { s with free := n, ports := { s.ports with tlb := tlb } } (.carHead car) p asid
      obtain ⟨r', hr', hask'⟩ := State.askCell_eq
        (State.askCell { s with free := n, ports := { s.ports with tlb := tlb } } (.carHead car) p asid) (.carHead car) q asid
      refine ⟨tlb, n, [r, r'], ?_, by simp [hr, hr'], by simp⟩
      rw [hask', hask]
      simp

end Sys2Proof.Machine
end

section
/-! SUPPORT. The commands of the control ports on semaphores and tables (R104, R106 to R110, R138), each by the answer it gives. -/

namespace Sys2Proof.Claims

open Sys2Proof.Machine

theorem checked_of_failed {s : State} {l : List (Bool × Nat)} {st : Nat} (h : firstStatus l = some st) (go : Unit → CmdRes) :
    checked s l go = .answer st s := by
  simp [checked, h]

theorem checked_of_passed {s : State} {l : List (Bool × Nat)} (h : firstStatus l = none) (go : Unit → CmdRes) :
    checked s l go = go () := by
  simp [checked, h]

theorem portHolder_ne_free (p : PortId) : portHolder p ≠ 0x1FF := by cases p <;> decide

section
variable {s : State} {p : PortId} {c : Command}

/-! ## Semaphores -/

theorem semAcq_completes (hst : CommandStands s p c 1) (hz : ZeroArgs c 0 40) (hc : c.sem < 64) :
    ((s.sem c.sem).holder = 0x1FF → (s.sem c.sem).heldBy (portHolder p) = false →
      Completes (.semAcq p) s fun t => Answered s t p c 0 ∧ (t.sem c.sem).holder = portHolder p ∧
        ∀ m, m ≠ c.sem → t.sem m = s.sem m) ∧
    ((s.sem c.sem).holder ≠ 0x1FF → (s.sem c.sem).heldBy (portHolder p) = false →
      Completes (.semAcq p) s fun t => t.mem = s.mem ∧
        (t.port p).acq = some { sem := c.sem, reply := c.reply, next := c.next } ∧
        (t.sem c.sem).holder = (s.sem c.sem).holder ∧ (t.sem c.sem).waiters = (s.sem c.sem).waiters ++ [portHolder p] ∧
        t.disp.cmdTurn = otherPort p) ∧
    ((s.sem c.sem).heldBy (portHolder p) = true →
      Completes (.semAcq p) s fun t => Answered s t p c 2 ∧ ∀ m, t.sem m = s.sem m) := by
  have hfirst : firstStatus [(c.unnamed 0 40, stBadField), (c.badSem, stBadIndex), (s.portHolds p c.sem, stAlreadyHeld)] =
      if (s.sem c.sem).heldBy (portHolder p) then some 2 else none := by
    simp only [firstStatus, unnamed_eq_false hz, badSem_eq_false hc, State.portHolds, Bool.false_eq_true, if_false]
    rfl
  refine ⟨fun hfree hheld => ?_, fun hother hheld => ?_, fun hheld => ?_⟩
  · refine ⟨_, onCommand_answer hst rfl ((checked_of_passed (by simp [hfirst, hheld]) _).trans (if_pos hfree)), ?_, ?_, ?_⟩
    · exact answered_answer p (hst.answerable_of_same rfl rfl (State.isKeyed_congr rfl _))
    · rw [State.sem_answer, State.sem_setSem_self]
    · exact fun m hm => by rw [State.sem_answer, State.sem_setSem_ne _ _ hm]
  · refine ⟨_, onCommand_wait hst rfl ((checked_of_passed (by simp [hfirst, hheld]) _).trans (if_neg hother)), ?_⟩
    have hsem (u : State) (x : Port) (m : Nat) : ((u.setPort p x).passCommand p).sem m = u.sem m := by cases p <;> rfl
    refine ⟨by cases p <;> rfl, by cases p <;> rfl, ?_, ?_, by cases p <;> rfl⟩
    · rw [hsem, State.sem_setSem_self]
    · rw [hsem, State.sem_setSem_self]
  · exact ⟨_, onCommand_answer hst rfl (checked_of_failed (by rw [hfirst, if_pos hheld]) _), answered_answer p hst.answerable,
      fun m => by rw [State.sem_answer]⟩

theorem semRel_completes (hst : CommandStands s p c 2) (hz : ZeroArgs c 0 40) (hc : c.sem < 64) :
    ((s.sem c.sem).heldBy (portHolder p) = true → (s.sem c.sem).waiters = [] →
      Completes (.semRel p) s fun t => Answered s t p c 0 ∧ (t.sem c.sem).holder = 0x1FF ∧
        ∀ m, m ≠ c.sem → t.sem m = s.sem m) ∧
    ((s.sem c.sem).heldBy (portHolder p) = false →
      Completes (.semRel p) s fun t => Answered s t p c 1 ∧ ∀ m, t.sem m = s.sem m) := by
  have hfirst : firstStatus [(c.unnamed 0 40, stBadField), (c.badSem, stBadIndex), (!s.portHolds p c.sem, stNotHeld)] =
      if (s.sem c.sem).heldBy (portHolder p) then none else some 1 := by
    cases hheld : (s.sem c.sem).heldBy (portHolder p) <;>
      simp [firstStatus, unnamed_eq_false hz, badSem_eq_false hc, State.portHolds, hheld, stNotHeld]
  refine ⟨fun hheld hnone => ?_, fun hheld => ?_⟩
  · have hrel := State.releaseSem_of_nil (portHolder p) hnone
    refine ⟨_, onCommand_answer hst rfl ((checked_of_passed (by simp [hfirst, hheld]) _).trans (by rw [hrel])), ?_, ?_, ?_⟩
    · exact answered_answer p (hst.answerable_of_same rfl rfl (State.isKeyed_congr rfl _))
    · rw [State.sem_answer, State.sem_setSem_self]; rfl
    · exact fun m hm => by rw [State.sem_answer, State.sem_setSem_ne _ _ hm]
  · exact ⟨_, onCommand_answer hst rfl (checked_of_failed (by simp [hfirst, hheld]) _), answered_answer p hst.answerable,
      fun m => by rw [State.sem_answer]⟩

theorem portReset_completes (hst : CommandStands s p c 7) (hz : ZeroArgs c 0 40) (hc : c.sem < 64)
    (hw : ∀ e ∈ s.disp.sems, e.2.waiters = []) :
    Completes (.portReset p) s fun t => Answered s t p c 0 ∧ (∀ m, (t.sem m).heldBy (portHolder p) = false) ∧
      (∀ m, (∀ e ∈ s.disp.sems, e.1 = m → e.2.heldBy (portHolder p) = false) → t.sem m = s.sem m) ∧
      ∀ n a, s.aspace? n = some a → a.session = some p → ∃ b, t.aspace? n = some b ∧ b.session = none := by
  have hfirst : firstStatus [(c.unnamed 0 40, stBadField), (c.badSem, stBadIndex)] = none := by
    simp [firstStatus, unnamed_eq_false hz, badSem_eq_false hc]
  obtain ⟨sems, heq, hfree, hkept⟩ := State.releaseAll_eq (portHolder p) hw
  set l := (s.disp.aspaces.filter (fun a => a.2.session == some p)).map Prod.fst with hl
  obtain ⟨hmem, hmcr, hsems, hasp⟩ := (s.releaseAll (portHolder p)).foldl_endSession l
  have hsem (m : Nat) : (l.foldl State.endSession (s.releaseAll (portHolder p))).sem m = (s.releaseAll (portHolder p)).sem m := by
    rw [State.sem, hsems]; rfl
  refine ⟨_, onCommand_answer hst rfl (checked_of_passed hfirst _), ?_, fun m => ?_, fun m hm => ?_, fun n a ha hses => ?_⟩
  · refine answered_answer p (hst.answerable_of_same (hmem.trans (by rw [heq])) (hmcr.trans (by rw [heq])) ?_)
    rw [State.isKeyed_foldl_endSession, heq]
    exact State.isKeyed_congr rfl _
  · rw [State.sem_answer, hsem]
    by_cases hheld : s.Holds (portHolder p) m
    · rw [hfree m hheld]
      simp [Sem.heldBy, Sem.free, Ne.symm (portHolder_ne_free p)]
    · rw [hkept m hheld]
      exact State.sem_heldBy_of_not_holds (portHolder_ne_free p) hheld
  · rw [State.sem_answer, hsem]
    refine hkept m fun ⟨e, he, hem, hheld⟩ => ?_
    rw [hm e he hem] at hheld
    exact absurd hheld (by simp)
  · have hn : n ∈ l := List.mem_map.mpr ⟨(n, a), List.mem_filter.mpr ⟨Table.mem_of_find? ha, by simp [hses]⟩, rfl⟩
    have hreleased : (s.releaseAll (portHolder p)).aspace? n = some a := by rw [heq]; exact ha
    exact ⟨a.sessionless, by rw [State.aspace?_answer, hasp, if_pos hn, hreleased]; rfl, rfl⟩

/-! ## Caravans and reservations -/

/-- What CAR_REG of a cell that can be read answers, after its checks of range. -/
theorem exec_carReg {s1 u : State} {st : Nat} (hst : CommandStands s p c 3) (hc : c.sem < 64) (hz : ZeroArgs c 5 3)
    (hz' : ZeroArgs c 16 24) (hpf : arg c 4 1 ≤ 7) (hcell : arg c 8 8 % 128 = 0) (hcar : arg c 0 2 ≤ 191)
    (hasid : arg c 2 2 ≠ 0) (hset : (s.aspace? (arg c 2 2)).isSome = true)
    (hask : s.askHead (arg c 0 2) (arg c 2 2) (arg c 8 8) = (s1, true))
    (h : (if (s.sem 1).heldBy (portHolder p) = false then CmdRes.answer stNotHeld s
      else if (s.caravan (arg c 0 2)).state ≠ .unreg then .answer stInUse s
      else .answer stOk (s1.setCaravan (arg c 0 2) { Caravan.init with
        state := .waiting, asid := arg c 2 2, pfloor := arg c 4 1, head := BitVec.ofNat 64 (arg c 8 8) })) = .answer st u) :
    exec (.carReg p) s = .next (u.answer p c st) := by
  refine onCommand_answer hst rfl (Eq.trans ?_ h)
  have hpf' : ¬7 < arg c 4 1 := by omega
  have hcar' : ¬191 < arg c 0 2 := by omega
  cases hheld : (s.sem 1).heldBy (portHolder p) <;> by_cases hreg : (s.caravan (arg c 0 2)).state = .unreg <;>
    simp [arg_eq, hset, hasid, hask, checked, firstStatus, unnamed_eq_false hz, unnamed_eq_false hz', badSem_eq_false hc,
      State.portHolds, hpf', hcell, hcar', hheld, hreg]

theorem carReg_completes {s1 : State} (hst : CommandStands s p c 3) (hc : c.sem < 64) (hz : ZeroArgs c 5 3)
    (hz' : ZeroArgs c 16 24) (hpf : arg c 4 1 ≤ 7) (hcell : arg c 8 8 % 128 = 0) (hcar : arg c 0 2 ≤ 191)
    (hasid : arg c 2 2 ≠ 0) (hset : (s.aspace? (arg c 2 2)).isSome = true)
    (hask : s.askHead (arg c 0 2) (arg c 2 2) (arg c 8 8) = (s1, true)) :
    ((s.sem 1).heldBy (portHolder p) = true → (s.caravan (arg c 0 2)).state = .unreg → Completes (.carReg p) s fun t =>
      Answered s t p c 0 ∧ t.caravan (arg c 0 2) = { Caravan.init with
        state := .waiting, asid := arg c 2 2, pfloor := arg c 4 1, head := BitVec.ofNat 64 (arg c 8 8) } ∧
      ∀ m, m ≠ arg c 0 2 → t.caravan m = s.caravan m) ∧
    ((s.sem 1).heldBy (portHolder p) = true → (s.caravan (arg c 0 2)).state ≠ .unreg → Completes (.carReg p) s fun t =>
      Answered s t p c 5 ∧ ∀ m, t.caravan m = s.caravan m) ∧
    ((s.sem 1).heldBy (portHolder p) = false → Completes (.carReg p) s fun t =>
      Answered s t p c 1 ∧ ∀ m, t.caravan m = s.caravan m) := by
  have hs1 := s.askHead_eq (arg c 0 2) (arg c 2 2) (arg c 8 8)
  rw [hask] at hs1
  obtain ⟨tlb, n, l, rfl, -⟩ := hs1
  refine ⟨fun hheld hunreg => ?_, fun hheld hreg => ?_, fun hheld => ?_⟩
  · refine ⟨_, exec_carReg hst hc hz hz' hpf hcell hcar hasid hset hask ((if_neg (by simp [hheld])).trans (if_neg (by simp [hunreg]))), ?_, ?_, ?_⟩
    · exact answered_answer p (hst.answerable_of_same rfl rfl (State.isKeyed_congr rfl _))
    · rw [State.caravan_answer, State.caravan_setCaravan_self _ _ (by simp)]
    · exact fun m hm => by rw [State.caravan_answer, State.caravan_setCaravan_ne _ _ hm]; rfl
  · exact ⟨_, exec_carReg hst hc hz hz' hpf hcell hcar hasid hset hask ((if_neg (by simp [hheld])).trans (if_pos hreg)),
      answered_answer p hst.answerable, fun m => by rw [State.caravan_answer]⟩
  · exact ⟨_, exec_carReg hst hc hz hz' hpf hcell hcar hasid hset hask (if_pos hheld), answered_answer p hst.answerable,
      fun m => by rw [State.caravan_answer]⟩

/-- What CAR_UNREG answers, after its checks of range. -/
theorem exec_carUnreg {u : State} {st : Nat} (hst : CommandStands s p c 4) (hc : c.sem < 64) (hz : ZeroArgs c 2 38)
    (hcar : arg c 0 2 ≤ 191)
    (h : (if (s.sem 1).heldBy (portHolder p) = false then CmdRes.answer stNotHeld s
      else if (s.caravan (arg c 0 2)).state == .ready || s.disp.saved.any (fun x => x.cluster.caravan == arg c 0 2) then
        .answer stInUse s
      else .answer stOk ((s.dropCaravanReads (arg c 0 2)).setCaravan (arg c 0 2) Caravan.init)) = .answer st u) :
    exec (.carUnreg p) s = .next (u.answer p c st) := by
  refine onCommand_answer hst rfl (Eq.trans ?_ h)
  have hcar' : ¬191 < arg c 0 2 := by omega
  cases hheld : (s.sem 1).heldBy (portHolder p)
  · simp [arg_eq, checked, firstStatus, unnamed_eq_false hz, badSem_eq_false hc, State.portHolds, hcar', hheld]
  · cases hused : (s.caravan (arg c 0 2)).state == .ready || s.disp.saved.any (fun x => x.cluster.caravan == arg c 0 2) <;>
      simp only [arg_eq, checked, firstStatus, unnamed_eq_false hz, badSem_eq_false hc, State.portHolds, hcar', hheld, hused] <;>
      rfl

theorem carUnreg_completes (hst : CommandStands s p c 4) (hc : c.sem < 64) (hz : ZeroArgs c 2 38) (hcar : arg c 0 2 ≤ 191) :
    ((s.sem 1).heldBy (portHolder p) = false →
      Completes (.carUnreg p) s fun t => Answered s t p c 1 ∧ ∀ m, t.caravan m = s.caravan m) ∧
    ((s.sem 1).heldBy (portHolder p) = true → (∀ v ∈ s.disp.saved, v.cluster.caravan ≠ arg c 0 2) →
      ((s.caravan (arg c 0 2)).state ≠ .ready → Completes (.carUnreg p) s fun t =>
        Answered s t p c 0 ∧ t.caravan (arg c 0 2) = Caravan.init ∧ ∀ m, m ≠ arg c 0 2 → t.caravan m = s.caravan m) ∧
      ((s.caravan (arg c 0 2)).state = .ready → Completes (.carUnreg p) s fun t =>
        Answered s t p c 5 ∧ ∀ m, t.caravan m = s.caravan m)) := by
  refine ⟨fun hheld => ?_, fun hheld hsaved => ⟨fun hready => ?_, fun hready => ?_⟩⟩
  · exact ⟨_, exec_carUnreg hst hc hz hcar (if_pos hheld), answered_answer p hst.answerable,
      fun m => by rw [State.caravan_answer]⟩
  · have hunused : ¬(((s.caravan (arg c 0 2)).state == .ready ||
        s.disp.saved.any (fun x => x.cluster.caravan == arg c 0 2)) = true) := by
      simpa [hready] using hsaved
    refine ⟨_, exec_carUnreg hst hc hz hcar ((if_neg (by simp [hheld])).trans (if_neg hunused)), ?_, ?_, ?_⟩
    · exact answered_answer p (hst.answerable_of_same rfl rfl (State.isKeyed_congr rfl _))
    · rw [State.caravan_answer, State.caravan_setCaravan_self _ _ (fun _ => rfl)]
    · exact fun m hm => by rw [State.caravan_answer, State.caravan_setCaravan_ne _ _ hm]; rfl
  · exact ⟨_, exec_carUnreg hst hc hz hcar ((if_neg (by simp [hheld])).trans (if_pos (by simp [hready]))),
      answered_answer p hst.answerable, fun m => by rw [State.caravan_answer]⟩

/-- What RES_SET answers, after its checks of range. -/
theorem exec_resSet {u : State} {st : Nat} (hst : CommandStands s p c 6) (hc : c.sem < 64) (hz : ZeroArgs c 1 1)
    (hz' : ZeroArgs c 4 36) (hr : arg c 0 1 ≤ 127) (hcar : arg c 2 2 ≤ 191 ∨ arg c 2 2 = 0xFFFF)
    (h : (if (s.sem 2).heldBy (portHolder p) = false then CmdRes.answer stNotHeld s
      else .answer stOk { s with disp := { s.disp with
        reserved := if arg c 2 2 = 0xFFFF then Table.del s.disp.reserved (arg c 0 1)
          else Table.put s.disp.reserved (arg c 0 1) (arg c 2 2) } }) = .answer st u) :
    exec (.resSet p) s = .next (u.answer p c st) := by
  refine onCommand_answer hst rfl (Eq.trans ?_ h)
  have hr' : ¬127 < arg c 0 1 := by omega
  have hcar' : ¬(191 < arg c 2 2 ∧ ¬arg c 2 2 = 0xFFFF) := by omega
  cases hheld : (s.sem 2).heldBy (portHolder p) <;>
    simp [arg_eq, checked, firstStatus, unnamed_eq_false hz, unnamed_eq_false hz', badSem_eq_false hc, State.portHolds, hr',
      hcar', hheld]

theorem resSet_completes (hst : CommandStands s p c 6) (hc : c.sem < 64) (hz : ZeroArgs c 1 1) (hz' : ZeroArgs c 4 36)
    (hr : arg c 0 1 ≤ 127) (hcar : arg c 2 2 ≤ 191 ∨ arg c 2 2 = 0xFFFF) :
    ((s.sem 2).heldBy (portHolder p) = true → Completes (.resSet p) s fun t => Answered s t p c 0 ∧
      Table.find? t.disp.reserved (arg c 0 1) = (if arg c 2 2 = 0xFFFF then none else some (arg c 2 2)) ∧
      ∀ r, r ≠ arg c 0 1 → Table.find? t.disp.reserved r = Table.find? s.disp.reserved r) ∧
    ((s.sem 2).heldBy (portHolder p) = false → Completes (.resSet p) s fun t => Answered s t p c 1 ∧
      t.disp.reserved = s.disp.reserved) := by
  refine ⟨fun hheld => ?_, fun hheld => ?_⟩
  · refine ⟨_, exec_resSet hst hc hz hz' hr hcar (if_neg (by simp [hheld])), ?_, ?_, fun r hr => ?_⟩
    · exact answered_answer p (hst.answerable_of_same rfl rfl (State.isKeyed_congr rfl _))
    · rw [State.answer_reserved]
      by_cases hnone : arg c 2 2 = 0xFFFF <;> simp [hnone]
    · rw [State.answer_reserved]
      by_cases hnone : arg c 2 2 = 0xFFFF <;> simp [hnone, Table.find?_del_ne _ hr, Table.find?_put_ne _ _ hr]
  · exact ⟨_, exec_resSet hst hc hz hz' hr hcar (if_pos hheld), answered_answer p hst.answerable, by rw [State.answer_reserved]⟩

end

end Sys2Proof.Claims

namespace Sys2Proof.Proofs

open Sys2Proof.Machine Sys2Proof.Claims

/-- Settles O21: the answer of each command of the control ports on semaphores and tables. -/
theorem portCommands : Obligations.PortCommands := by
  refine ⟨fun s p c => ⟨semAcq_completes, fun hturn hother i hi => ?_, semRel_completes, portReset_completes⟩,
    fun s p c hc => ⟨fun s1 hst hz hz' hpf hcell hcar hasid hset hask => ?_, fun hst hz hcar => ?_, fun hst hz hcar => ?_,
      fun hst hz hz' hr hcar => ?_⟩⟩
  · simp only [List.mem_cons, List.not_mem_nil, or_false] at hi
    rcases hi with rfl | rfl | rfl | rfl | rfl | rfl | rfl | rfl | rfl | rfl <;> exact onCommand_not_turn hturn hother
  · exact carReg_completes hst hc hz hz' hpf hcell hcar hasid hset hask
  · exact (carUnreg_completes hst hc hz hcar).1
  · exact (carUnreg_completes hst hc hz hcar).2
  · exact resSet_completes hst hc hz hz' hr hcar

end Sys2Proof.Proofs
end

section
/-! SUPPORT. The commands of the control ports on address spaces (R146, R147, R152), and the clearing of cells (R105). -/

namespace Sys2Proof.Machine

/-! ## Address spaces -/

theorem State.isKeyed_of_aspace? {s t : State} {asid : Nat} (h : t.aspace? asid = s.aspace? asid) :
    t.isKeyed asid = s.isKeyed asid := by
  rw [State.isKeyed, State.isKeyed, h]

theorem State.aspace?_setAspace_self (s : State) (asid : Nat) (a : Aspace) : (s.setAspace asid a).aspace? asid = some a :=
  Table.find?_put_self _ _ _

theorem State.aspace?_setAspace_ne (s : State) {asid m : Nat} (a : Aspace) (h : m ≠ asid) :
    (s.setAspace asid a).aspace? m = s.aspace? m := Table.find?_put_ne _ _ h

/-- No access translated in the range stands at a port, as a read that stands deferred counts (R152). -/
theorem State.invalPending_eq_false {s : State} {x : InvalRange}
    (hpend : ∀ a ∈ s.ports.pend, a.asid ≠ x.asid ∨ a.page = none ∨ ∃ r ∈ s.ports.reads, r.reader = a.reader)
    (hsc : ∀ a ∈ s.ports.sc, a.asid ≠ x.asid ∨ a.page = none) : s.invalPending x = false := by
  have hmeets {asid : Nat} {q : Option (Nat × Nat)} (h : asid ≠ x.asid ∨ q = none) : x.meets asid q = false := by
    obtain h | rfl := h
    · cases q <;> simp [InvalRange.meets, h]
    · rfl
  rw [State.invalPending, Bool.or_eq_false_iff, List.any_eq_false, List.any_eq_false]
  refine ⟨fun a ha => ?_, fun a ha => by simp [hmeets (hsc a ha)]⟩
  obtain h | h | ⟨r, hr, hrd⟩ := hpend a ha
  · simp [hmeets (.inl h)]
  · simp [hmeets (.inr h)]
  · have hany : s.ports.reads.any (fun r => r.reader == a.reader) = true := List.any_eq_true.mpr ⟨r, hr, by simp [hrd]⟩
    simp [hany]

/-- An invalidation that nothing delays discards the translations of its range (R152). -/
theorem invalidate_of_performed {s : State} {x : InvalRange} (go : State → State)
    (hpend : ∀ a ∈ s.ports.pend, a.asid ≠ x.asid ∨ a.page = none ∨ ∃ r ∈ s.ports.reads, r.reader = a.reader)
    (hsc : ∀ a ∈ s.ports.sc, a.asid ≠ x.asid ∨ a.page = none) :
    invalidate s x go = .answer stOk (go (s.discardCached x)) := by
  have hnone : (s.discardCached x).invalPending x = false := State.invalPending_eq_false hpend hsc
  simp [invalidate, hnone]

theorem State.mem_discardCached (s : State) (x : InvalRange) (e : Cached) :
    e ∈ (s.discardCached x).ports.tlb ↔ e ∈ s.ports.tlb ∧ ¬Claims.InRange x.asid x.lo x.hi e := by
  simp only [State.discardCached, List.mem_filter, Claims.InRange, Bool.not_eq_true', Bool.and_eq_false_iff, beq_eq_false_iff_ne,
    decide_eq_false_iff_not, not_and_or, or_assoc, ne_eq]

/-! ## Cells that are cleared (R105) -/

/-- A granule of HBM that is cleared: its bytes are zero, it is EMPTY and has no mark. -/
theorem State.clearGranule_eq {s : State} {a : Nat} {bs : List Byte} (ha : a % 64 = 0) (hbs : bs = List.replicate 64 0#8)
    (hwf : s.mem.wf = true) (hkey : s.isKeyed 0 = false) : ∃ m, (s.storeBytes 0 (.hbm a) bs).clearGranule (.hbm a) =
      { s with mem := m } ∧ m.wf = true ∧
    ∀ b, m.gst (.hbm b) = (if b / 64 = a / 64 then .empty else s.mem.gst (.hbm b)) ∧
      m.mark (.hbm b) = (if b / 64 = a / 64 then false else s.mem.mark (.hbm b)) ∧
      m.byte (.hbm b) = (if b / 64 = a / 64 then 0#8 else s.mem.byte (.hbm b)) := by
  obtain ⟨l, hl⟩ := s.storeBytes_hbm_clear 0 a bs hkey
  refine ⟨_, by rw [hl]; rfl, ?_, fun b => ⟨?_, ?_, ?_⟩⟩
  · rw [Mems.wf_setMark, Mems.wf_setGst]
    exact Mems.wf_setBytes hwf _ _
  · rw [Mems.gst_setMark, Mems.gst_setGst_hbm]
    exact congrArg (ite _ _) (Mems.gst_setBytes s.mem (.hbm a) (.hbm b) bs)
  · rw [Mems.mark_setMark_hbm, Mems.mark_setGst]
    exact congrArg (ite _ _) (Mems.mark_setBytes s.mem (.hbm a) (.hbm b) bs)
  · rw [Mems.byte_setMark, Mems.byte_setGst]
    refine (Mems.byte_setBytes hwf (.hbm a) (.hbm b) bs).trans ?_
    have hwithin : Claims.Within (.hbm a) 64 (.hbm b) = decide (b / 64 = a / 64) := by
      rw [within_eq, Bool.eq_iff_iff]
      simp only [Place.sameMemory, Bool.true_and, decide_eq_true_eq]
      show a ≤ b ∧ b < a + 64 ↔ _
      omega
    have hzero (i : Nat) : bs.getD i 0#8 = 0#8 := by
      rw [hbs]
      rw [List.getD_eq_getElem?_getD]
      exact List.getElem?_getD_replicate_default_eq _ 64 i
    rw [hbs, List.length_replicate, hwithin, ← hbs, hzero]
    simp

/-- A cell of address space 0 that is cleared. -/
theorem State.clearCell_of_clearable {s : State} {va : Nat} (hva : va % 64 = 0) (h : clearable va = true)
    (hwf : s.mem.wf = true) (hkey : s.isKeyed 0 = false) : ∃ m, s.clearCell va = { s with mem := m } ∧ m.wf = true ∧
    ∀ b, m.gst (.hbm b) = (if b / 64 = (as0Base + va) / 64 then .empty else s.mem.gst (.hbm b)) ∧
      m.mark (.hbm b) = (if b / 64 = (as0Base + va) / 64 then false else s.mem.mark (.hbm b)) ∧
      m.byte (.hbm b) = (if b / 64 = (as0Base + va) / 64 then 0#8 else s.mem.byte (.hbm b)) := by
  have hbase : (as0Base + va) % 64 = 0 := by unfold as0Base; omega
  rw [State.clearCell, State.as0Place_of_clearable s h]
  exact State.clearGranule_eq hbase rfl hwf hkey

/-- The granule of HBM at `b` is one of the cells at the addresses. -/
def CellHit (l : List Nat) (b : Nat) : Prop := ∃ va ∈ l, (as0Base + va) / 64 = b / 64

/-- The granules at a list of addresses are cleared, and no other. -/
theorem State.foldl_clearCell (l : List Nat) (hl : ∀ va ∈ l, va % 64 = 0 ∧ clearable va = true) (s : State)
    (hwf : s.mem.wf = true) (hkey : s.isKeyed 0 = false) : ∃ m, l.foldl State.clearCell s = { s with mem := m } ∧ m.wf = true ∧
    (∀ b, CellHit l b → m.gst (.hbm b) = .empty ∧ m.mark (.hbm b) = false ∧ m.byte (.hbm b) = 0#8) ∧
    ∀ b, ¬CellHit l b → m.gst (.hbm b) = s.mem.gst (.hbm b) ∧ m.mark (.hbm b) = s.mem.mark (.hbm b) ∧
      m.byte (.hbm b) = s.mem.byte (.hbm b) := by
  induction l generalizing s with
  | nil => exact ⟨s.mem, rfl, hwf, fun b ⟨va, hva, _⟩ => absurd hva (by simp), fun b _ => ⟨rfl, rfl, rfl⟩⟩
  | cons va l ih =>
    obtain ⟨m, hm, hmwf, hmem⟩ := State.clearCell_of_clearable (hl va (by simp)).1 (hl va (by simp)).2 hwf hkey
    obtain ⟨n, hn, hnwf, hhit, hmiss⟩ := ih (fun x hx => hl x (List.mem_cons_of_mem _ hx)) { s with mem := m } hmwf
      ((State.isKeyed_congr rfl 0).trans hkey)
    refine ⟨n, by rw [List.foldl_cons, hm, hn], hnwf, fun b hb => ?_, fun b hb => ?_⟩
    · by_cases hrest : CellHit l b
      · exact hhit b hrest
      · have hfirst : b / 64 = (as0Base + va) / 64 := by
          obtain ⟨x, hx, hxb⟩ := hb
          obtain rfl | hx := List.mem_cons.mp hx
          · exact hxb.symm
          · exact absurd ⟨x, hx, hxb⟩ hrest
        obtain ⟨hg, hk, hbyte⟩ := hmiss b hrest
        obtain ⟨hg', hk', hbyte'⟩ := hmem b
        rw [if_pos hfirst] at hg' hk' hbyte'
        exact ⟨hg.trans hg', hk.trans hk', hbyte.trans hbyte'⟩
    · have hrest : ¬CellHit l b := fun ⟨x, hx, hxb⟩ => hb ⟨x, List.mem_cons_of_mem _ hx, hxb⟩
      have hfirst : ¬b / 64 = (as0Base + va) / 64 := fun h => hb ⟨va, by simp, h.symm⟩
      obtain ⟨hg, hk, hbyte⟩ := hmiss b hrest
      obtain ⟨hg', hk', hbyte'⟩ := hmem b
      rw [if_neg hfirst] at hg' hk' hbyte'
      exact ⟨hg.trans hg', hk.trans hk', hbyte.trans hbyte'⟩

/-- The addresses that a CELL_CLR names. -/
def clearedCells (va n : Nat) : List Nat := (List.range n).map (fun i => va + 64 * i)

/-- A CELL_CLR names no cells that it may clear (R105, R122). -/
def badCells (va n : Nat) : Bool :=
  va % 64 != 0 || n == 0 || decide (1024 < n) || !(clearedCells va n).all clearable

theorem badCells_eq_true (va n : Nat) : badCells va n = true ↔
    va % 64 ≠ 0 ∨ n = 0 ∨ 1024 < n ∨ ∃ i, i < n ∧ clearable (va + 64 * i) = false := by
  simp [badCells, clearedCells, or_assoc]

/-- One of the granules holds a read that stands in the way (R105). -/
def State.cellsHeld (s : State) (va n : Nat) : Bool :=
  (clearedCells va n).any (fun a => match s.as0Place a with
    | some (p, _) => s.readHeld p
    | none => false)

end Sys2Proof.Machine

namespace Sys2Proof.Claims

open Sys2Proof.Machine

/-- The operands of an AS_SET are good ones (R104, R146, R147). -/
def GoodAct (s : State) (c : Command) : Prop :=
  (arg c 2 1 = 0 ∧ arg c 8 8 % 4096 = 0 ∧ arg c 8 8 / 2 ^ 47 = s.member ∧ arg c 16 8 % 64 = 0) ∨ arg c 2 1 = 1 ∨
    (arg c 2 1 = 2 ∧ arg c 8 8 % 65536 = 0)

section
variable {s : State} {p : PortId} {c : Command} {va n : Nat}

theorem firstStatus_asChecks (hz : ZeroArgs c 3 5) (hz' : ZeroArgs c 24 16) (hpos : 0 < arg c 0 2) (hmax : arg c 0 2 ≤ 4095)
    (hc : c.sem < 64) (hheld : (s.sem 0).heldBy (portHolder p) = true) (hact : GoodAct s c) (l : List (Bool × Nat)) :
    firstStatus (asChecks s p c ++ l) = firstStatus l := by
  have hmax' : ¬4095 < arg c 0 2 := by omega
  have hpos' : ¬arg c 0 2 = 0 := by omega
  unfold asChecks Command.act
  simp only [arg_eq, List.cons_append, List.nil_append, firstStatus, unnamed_eq_false hz, unnamed_eq_false hz', badSem_eq_false hc,
    State.portHolds, hheld]
  obtain ⟨h0, hx, hm, hy⟩ | h1 | ⟨h2, hx⟩ := hact
  · have hm' : arg c 8 8 / 140737488355328 = s.member := hm
    simp [h0, hx, hm', hy, hmax', hpos']
  · simp [h1, hmax', hpos']
  · simp [h2, hx, hmax', hpos']

/-- No access translated in the address space stands at a port (R152). -/
def Performed (s : State) (asid : Nat) : Prop :=
  (∀ a ∈ s.ports.pend, a.asid ≠ asid ∨ a.page = none ∨ ∃ r ∈ s.ports.reads, r.reader = a.reader) ∧
    ∀ a ∈ s.ports.sc, a.asid ≠ asid ∨ a.page = none

theorem invalRange_asid (asid base count : Nat) : (invalRange asid base count).asid = asid := by
  unfold invalRange; split <;> rfl

theorem asSetSet_new (hst : CommandStands s p c 5) (hpos : 0 < arg c 0 2)
    (hgood : ∀ l, firstStatus (asChecks s p c ++ l) = firstStatus l) (hact : arg c 2 1 = 0) (hnone : s.aspace? (arg c 0 2) = none) :
    Completes (.asSetSet p) s fun t => Answered s t p c 0 ∧ (∀ m, m ≠ arg c 0 2 → t.aspace? m = s.aspace? m) ∧
      ∃ a, t.aspace? (arg c 0 2) = some a ∧ a.root = arg c 8 8 ∧ a.fqNext = arg c 16 8 ∧ a.winPort = p ∧ a.logh = 0#384 ∧
        a.logn = 0#32 ∧ a.kbind = 0#384 ∧ a.session = none := by
  have hgood' : firstStatus (asChecks s p c) = none := by simpa [firstStatus] using hgood []
  have hkey : (s.setAspace (arg c 0 2) (newAspace (arg c 8 8) (arg c 16 8) p)).isKeyed 0 = s.isKeyed 0 :=
    State.isKeyed_of_aspace? (State.aspace?_setAspace_ne _ _ (by omega))
  refine ⟨_, onCommand_answer (u := s.setAspace (arg c 0 2) (newAspace (arg c 8 8) (arg c 16 8) p)) hst
    (by simp [Command.isAct, Command.act, arg_eq, hact]) ((checked_of_passed hgood' _).trans (by simp only [arg_eq, hnone]; rfl)),
    answered_answer p (hst.answerable_of_same rfl rfl hkey), fun m hm => ?_, newAspace (arg c 8 8) (arg c 16 8) p, ?_,
    rfl, rfl, rfl, rfl, rfl, rfl, rfl⟩
  · rw [State.aspace?_answer, State.aspace?_setAspace_ne _ _ hm]
  · rw [State.aspace?_answer, State.aspace?_setAspace_self]

theorem asSetSet_again {o : Aspace} (hst : CommandStands s p c 5) (hpos : 0 < arg c 0 2)
    (hgood : ∀ l, firstStatus (asChecks s p c ++ l) = firstStatus l) (hper : Performed s (arg c 0 2)) (hact : arg c 2 1 = 0)
    (hset : s.aspace? (arg c 0 2) = some o) :
    Completes (.asSetSet p) s fun t => Answered s t p c 0 ∧ (∀ m, m ≠ arg c 0 2 → t.aspace? m = s.aspace? m) ∧
      t.aspace? (arg c 0 2) = some { o with root := arg c 8 8, winPort := p, fqNext := arg c 16 8, fqStuck := false } ∧
      ∀ e, e ∈ t.ports.tlb ↔ e ∈ s.ports.tlb ∧ ¬InRange (arg c 0 2) 0 (2 ^ 52) e := by
  have hgood' : firstStatus (asChecks s p c) = none := by simpa [firstStatus] using hgood []
  obtain ⟨hpend, hsc⟩ := hper
  set x := invalRange (arg c 0 2) 0 0 with hx
  set u := ((s.discardCached x).dropReads (fun r => r == .fqLink (arg c 0 2))).setAspace (arg c 0 2)
    { o with root := arg c 8 8, winPort := p, fqNext := arg c 16 8, fqStuck := false } with hu
  have hkey : u.isKeyed 0 = s.isKeyed 0 := State.isKeyed_of_aspace? (State.aspace?_setAspace_ne _ _ (by omega))
  refine ⟨_, onCommand_answer (u := u) hst (by simp [Command.isAct, Command.act, arg_eq, hact])
    ((checked_of_passed hgood' _).trans ?_), answered_answer p (hst.answerable_of_same rfl rfl hkey), fun m hm => ?_, ?_,
    fun e => ?_⟩
  · simp only [arg_eq, hset]
    exact invalidate_of_performed _ hpend hsc
  · rw [State.aspace?_answer]
    exact State.aspace?_setAspace_ne _ _ hm
  · rw [State.aspace?_answer, State.aspace?_setAspace_self]
  · rw [State.answer_tlb]
    exact s.mem_discardCached x e

theorem asSetRemove_completes (hst : CommandStands s p c 5) (hpos : 0 < arg c 0 2)
    (hgood : ∀ l, firstStatus (asChecks s p c ++ l) = firstStatus l) (hact : arg c 2 1 = 1)
    (hcar : ∀ e ∈ s.disp.caravans, e.2.asid ≠ arg c 0 2) (hclu : ∀ e ∈ s.disp.clusters, e.2.asid ≠ arg c 0 2)
    (hsaved : ∀ v ∈ s.disp.saved, v.cluster.asid ≠ arg c 0 2) :
    Completes (.asSetRemove p) s fun t => Answered s t p c 0 ∧ (∀ m, m ≠ arg c 0 2 → t.aspace? m = s.aspace? m) ∧
      t.aspace? (arg c 0 2) = none := by
  have hused : (s.disp.caravans.any (fun x => x.2.asid == arg c 0 2) || s.disp.clusters.any (fun x => x.2.asid == arg c 0 2) ||
      s.disp.saved.any (fun x => x.cluster.asid == arg c 0 2)) = false := by
    simp only [Bool.or_eq_false_iff, List.any_eq_false, beq_iff_eq]
    exact ⟨⟨hcar, hclu⟩, hsaved⟩
  have hasp (m : Nat) (hm : m ≠ arg c 0 2) : Table.find? (Table.del s.disp.aspaces (arg c 0 2)) m = s.aspace? m :=
    Table.find?_del_ne _ hm
  refine ⟨_, onCommand_answer hst (by simp [Command.isAct, Command.act, arg_eq, hact])
    (checked_of_passed ((hgood _).trans (by simp only [arg_eq, hused]; rfl)) _),
    answered_answer p (hst.answerable_of_same rfl rfl (State.isKeyed_of_aspace? ?_)), fun m hm => ?_, ?_⟩
  · simp only [arg_eq]
    exact hasp 0 (by omega)
  · rw [State.aspace?_answer]
    simp only [arg_eq]
    exact hasp m hm
  · rw [State.aspace?_answer]
    simp only [arg_eq]
    exact Table.find?_del_self _ _

theorem asSetInval_completes (hst : CommandStands s p c 5)
    (hgood : ∀ l, firstStatus (asChecks s p c ++ l) = firstStatus l) (hper : Performed s (arg c 0 2)) (hact : arg c 2 1 = 2) :
    Completes (.asSetInval p) s fun t => Answered s t p c 0 ∧ (∀ m, t.aspace? m = s.aspace? m) ∧ ∀ e, e ∈ t.ports.tlb ↔
      e ∈ s.ports.tlb ∧ ¬(if arg c 16 8 = 0 then InRange (arg c 0 2) 0 (2 ^ 52) e
        else InRange (arg c 0 2) (arg c 8 8) (arg c 8 8 + 65536 * arg c 16 8) e) := by
  have hgood' : firstStatus (asChecks s p c) = none := by simpa [firstStatus] using hgood []
  obtain ⟨hpend, hsc⟩ := hper
  set x := invalRange (arg c 0 2) (arg c 8 8) (arg c 16 8) with hx
  have hasid : x.asid = arg c 0 2 := invalRange_asid _ _ _
  refine ⟨_, onCommand_answer (u := s.discardCached x) hst (by simp [Command.isAct, Command.act, arg_eq, hact])
    ((checked_of_passed hgood' _).trans ?_), answered_answer p (hst.answerable_of_same rfl rfl (State.isKeyed_congr rfl _)),
    fun m => by rw [State.aspace?_answer]; rfl, fun e => ?_⟩
  · simp only [arg_eq]
    exact invalidate_of_performed id (by rwa [hasid]) (by rwa [hasid])
  · rw [State.answer_tlb, State.mem_discardCached, hx]
    unfold invalRange
    split <;> simp [Nat.mul_comm]

/-! ## CELL_CLR -/

/-- What CELL_CLR answers, after the check of its other operands. -/
theorem exec_cellClr {u : State} {st : Nat} (hst : CommandStands s p c 8) (hz : ZeroArgs c 10 30) (hc : c.sem < 64)
    (h : (if badCells (arg c 0 8) (arg c 8 2) then CmdRes.answer stBadField s
      else if s.cellsHeld (arg c 0 8) (arg c 8 2) then .answer stInUse s
      else .answer stOk ((clearedCells (arg c 0 8) (arg c 8 2)).foldl State.clearCell s)) = .answer st u) :
    exec (.cellClr p) s = .next (u.answer p c st) := by
  refine onCommand_answer hst rfl (Eq.trans ?_ h)
  change checked s
    [(c.unnamed 10 30 || fieldLe c.args 0 8 % 64 != 0 || fieldLe c.args 8 2 == 0 || decide (1024 < fieldLe c.args 8 2) ||
       !(clearedCells (fieldLe c.args 0 8) (fieldLe c.args 8 2)).all clearable, stBadField), (c.badSem, stBadIndex),
     (s.cellsHeld (fieldLe c.args 0 8) (fieldLe c.args 8 2), stInUse)]
    (fun _ => .answer stOk ((clearedCells (fieldLe c.args 0 8) (fieldLe c.args 8 2)).foldl State.clearCell s)) = _
  simp only [arg_eq, checked, firstStatus, unnamed_eq_false hz, badSem_eq_false hc, Bool.false_or, Bool.false_eq_true, if_false]
  rw [← badCells]
  cases badCells (arg c 0 8) (arg c 8 2) <;> cases s.cellsHeld (arg c 0 8) (arg c 8 2) <;> rfl

/-- A CELL_CLR that is refused leaves memory but for its reply (R105, R106). -/
theorem cellClr_refused {st : Nat} (hst : CommandStands s p c 8) (hexec : exec (.cellClr p) s = .next (s.answer p c st)) :
    Completes (.cellClr p) s fun t => Answered s t p c st ∧
      ∀ a, (∀ b, s.as0Place c.reply.toNat = some (.hbm b, true) → b / 64 ≠ a / 64) →
        t.mem.gst (.hbm a) = s.mem.gst (.hbm a) ∧ t.mem.byte (.hbm a) = s.mem.byte (.hbm a) := by
  refine ⟨_, hexec, answered_answer p hst.answerable, fun a ha => ?_⟩
  obtain ⟨-, -, -, -, hwf, hkey⟩ := hst
  obtain ⟨hg, -, hb⟩ := State.answer_keeps p c st hwf hkey ha
  exact ⟨hg, hb⟩

theorem cellHit_clearedCells (hclear : ∀ i, i < n → clearable (va + 64 * i) = true) (b : Nat) :
    CellHit (clearedCells va n) b ↔
      ∃ i a, i < n ∧ s.as0Place (va + 64 * i) = some (.hbm a, true) ∧ b / 64 = a / 64 := by
  simp only [CellHit, clearedCells, List.mem_map, List.mem_range]
  constructor
  · rintro ⟨x, ⟨i, hi, rfl⟩, hx⟩
    exact ⟨i, _, hi, State.as0Place_of_clearable s (hclear i hi), hx.symm⟩
  · rintro ⟨i, a, hi, hp, hb⟩
    rw [State.as0Place_of_clearable s (hclear i hi)] at hp
    cases hp
    exact ⟨_, ⟨i, hi, rfl⟩, hb.symm⟩

/-- A granule of the command holds a read of a chain. -/
theorem cellsHeld_of_read (h : ∃ r ∈ s.ports.reads, ∃ i a, i < n ∧ s.as0Place (va + 64 * i) = some (.hbm a, true) ∧
    r.place = (Place.hbm a).granule ∧ r.reader.isChain = true) : s.cellsHeld va n = true := by
  obtain ⟨r, hr, i, a, hi, hp, hplace, hchain⟩ := h
  refine List.any_eq_true.mpr ⟨va + 64 * i, List.mem_map.mpr ⟨i, List.mem_range.mpr hi, rfl⟩, ?_⟩
  rw [hp]
  exact List.any_eq_true.mpr ⟨r, hr, by simp [hplace, hchain]⟩

/-- No granule of the command holds a read. -/
theorem cellsHeld_of_none (hclear : ∀ i, i < n → clearable (va + 64 * i) = true)
    (h : ∀ r ∈ s.ports.reads, ∀ a, r.place = .hbm a → ¬CellHit (clearedCells va n) a) : s.cellsHeld va n = false := by
  refine List.any_eq_false.mpr fun x hx => ?_
  obtain ⟨i, hi, rfl⟩ := List.mem_map.mp hx
  rw [State.as0Place_of_clearable s (hclear i (List.mem_range.mp hi)), Bool.not_eq_true]
  refine List.any_eq_false.mpr fun r hr => ?_
  have hplace : r.place ≠ (Place.hbm (as0Base + (va + 64 * i))).granule := fun hp =>
    h r hr _ hp ⟨_, hx, by omega⟩
  simp [hplace]

theorem cellClr_completes (hst : CommandStands s p c 8) (hz : ZeroArgs c 10 30) (hc : c.sem < 64)
    (hgood : badCells (arg c 0 8) (arg c 8 2) = false) (hfree : s.cellsHeld (arg c 0 8) (arg c 8 2) = false)
    (halign : ∀ va ∈ clearedCells (arg c 0 8) (arg c 8 2), va % 64 = 0 ∧ clearable va = true)
    (hreply : ∀ a, s.as0Place c.reply.toNat = some (.hbm a, true) → ¬CellHit (clearedCells (arg c 0 8) (arg c 8 2)) a) :
    Completes (.cellClr p) s fun t => Answered s t p c 0 ∧
      (∀ a, CellHit (clearedCells (arg c 0 8) (arg c 8 2)) a →
        t.mem.gst (.hbm a) = .empty ∧ t.mem.mark (.hbm a) = false ∧ t.mem.byte (.hbm a) = 0#8) ∧
      ∀ a, ¬CellHit (clearedCells (arg c 0 8) (arg c 8 2)) a →
        (∀ b, s.as0Place c.reply.toNat = some (.hbm b, true) → b / 64 ≠ a / 64) →
        t.mem.gst (.hbm a) = s.mem.gst (.hbm a) ∧ t.mem.byte (.hbm a) = s.mem.byte (.hbm a) := by
  have hst' := hst
  obtain ⟨-, -, -, -, hwf, hkey⟩ := hst'
  obtain ⟨m, hm, hmwf, hhit, hmiss⟩ := State.foldl_clearCell _ halign s hwf hkey
  obtain ⟨u, hu⟩ : ∃ u, u = ({ s with mem := m } : State) := ⟨_, rfl⟩
  have hmem : u.mem = m := by rw [hu]
  have hmcr : u.mcr = s.mcr := by rw [hu]
  have hukey : u.isKeyed 0 = false := (State.isKeyed_congr (by rw [hu]) 0).trans hkey
  have hplace := State.as0Place_congr hmcr c.reply.toNat
  rw [← hmem] at hmwf hhit hmiss
  have hexec := exec_cellClr (u := u) (st := 0) hst hz hc (by rw [hgood, hfree, hm, hu]; rfl)
  refine ⟨_, hexec, answered_answer p ⟨hmcr, hmwf, hukey, fun a ha => ?_⟩, fun a ha => ?_, fun a ha hne => ?_⟩
  · obtain ⟨-, hp, hg⟩ := ha
    exact (hmiss a (hreply a hp)).1.trans hg
  · have hne (b : Nat) (hb : u.as0Place c.reply.toNat = some (.hbm b, true)) : b / 64 ≠ a / 64 := by
      intro hba
      obtain ⟨va, hva, hvaa⟩ := ha
      exact hreply b (hplace.symm.trans hb) ⟨va, hva, hvaa.trans hba.symm⟩
    obtain ⟨hg, hk, hb⟩ := State.answer_keeps p c 0 hmwf hukey hne
    obtain ⟨hg', hk', hb'⟩ := hhit a ha
    exact ⟨hg.trans hg', hk.trans hk', hb.trans hb'⟩
  · obtain ⟨hg, -, hb⟩ := State.answer_keeps p c 0 hmwf hukey (by rwa [hplace])
    obtain ⟨hg', -, hb'⟩ := hmiss a ha
    exact ⟨hg.trans hg', hb.trans hb'⟩

end

end Sys2Proof.Claims

namespace Sys2Proof.Proofs

open Sys2Proof.Machine Sys2Proof.Claims

/-- Settles O22: the answer of each act of AS_SET, and of CELL_CLR over the granules that it names. -/
theorem addressSpaceAndCells : Obligations.AddressSpaceAndCells := by
  refine ⟨fun s p c => ?_, fun s p c => ?_⟩
  · intro asid x y rest hst hz hz' hpos hmax hc hheld hpend hsc
    have hgood (h : GoodAct s c) := firstStatus_asChecks hz hz' hpos hmax hc hheld h
    refine ⟨fun hact hx hm hy hnone => ?_, fun o hact hx hm hy hset => ?_, fun hact hcar hclu hsaved => ?_, fun hact hx => ?_⟩
    · exact asSetSet_new hst hpos (hgood (.inl ⟨hact, hx, hm, hy⟩)) hact hnone
    · exact asSetSet_again hst hpos (hgood (.inl ⟨hact, hx, hm, hy⟩)) ⟨hpend, hsc⟩ hact hset
    · exact asSetRemove_completes hst hpos (hgood (.inr (.inl hact))) hact hcar hclu hsaved
    · exact asSetInval_completes hst (hgood (.inr (.inr ⟨hact, hx⟩))) ⟨hpend, hsc⟩ hact
  · intro va n mine hst hz hc
    have hgood (h0 : va % 64 = 0) (hn : 0 < n) (hmax : n ≤ 1024) (hclear : ∀ i, i < n → clearable (va + 64 * i) = true) :
        badCells va n = false := by
      rw [← Bool.not_eq_true, badCells_eq_true]
      rintro (h | h | h | ⟨i, hi, h⟩)
      · exact h h0
      · omega
      · omega
      · simp [hclear i hi] at h
    refine ⟨fun h0 hn hmax hclear hreads hreply => ?_, fun h0 hn hmax hclear hread => ?_, fun hbad => ?_⟩
    · have hhit (b : Nat) : CellHit (clearedCells va n) b ↔ mine (b / 64) := cellHit_clearedCells (s := s) hclear b
      have halign (x : Nat) (hx : x ∈ clearedCells va n) : x % 64 = 0 ∧ clearable x = true := by
        obtain ⟨i, hi, rfl⟩ := List.mem_map.mp hx
        exact ⟨by omega, hclear i (List.mem_range.mp hi)⟩
      have hfree := cellsHeld_of_none (s := s) hclear (fun r hr a ha => by rw [hhit]; exact hreads r hr a ha)
      have h := cellClr_completes hst hz hc (hgood h0 hn hmax hclear) hfree halign
        (fun a ha => by rw [hhit]; exact hreply a ha)
      obtain ⟨t, ht, hans, hcleared, hkept⟩ := h
      exact ⟨t, ht, hans, fun a ha => hcleared a ((hhit a).mpr ha), fun a ha => hkept a fun h => ha ((hhit a).mp h)⟩
    · exact cellClr_refused hst (exec_cellClr hst hz hc
        ((if_neg (ne_true_of_eq_false (hgood h0 hn hmax hclear))).trans (if_pos (cellsHeld_of_read hread))))
    · exact cellClr_refused hst (exec_cellClr hst hz hc (if_pos ((badCells_eq_true _ _).mpr hbad)))

end Sys2Proof.Proofs
end

section
/-! SUPPORT. Launch records (R110 to R114, R126): what a notice leaves of a translation, the stores and reads of the dispatcher, a
caravan that goes on, and a record that is rejected. -/

namespace Sys2Proof.Machine

/-! ## A notice changes no translation -/

section
variable (s : State) (x : Notice)

theorem State.entryUsed_notify (asid va n e : Nat) :
    (s.notify x).entryUsed asid va n e = ((s.entryUsed asid va n e).1.notify x, (s.entryUsed asid va n e).2) := by
  have htlb : (s.notify x).ports.tlb = s.ports.tlb := rfl
  have hfree : (s.notify x).free = s.free := rfl
  unfold State.entryUsed
  rw [htlb, hfree]
  split
  · rfl
  · split
    · rfl
    · split <;> rfl

theorem State.walkCached_notify (asid va n : Nat) (s : State) (a : Nat) :
    (s.notify x).walkCached asid va n a = ((s.walkCached asid va n a).1.notify x, (s.walkCached asid va n a).2) := by
  have hmember (t : State) : (t.notify x).member = t.member := rfl
  have hmem (t : State) : (t.notify x).mem = t.mem := rfl
  induction n generalizing s a with
  | zero =>
    unfold State.walkCached
    simp only [State.entryUsed_notify, hmember, hmem]
    split <;> simp_all
  | succ n ih =>
    unfold State.walkCached
    simp only [State.entryUsed_notify, hmember, hmem]
    split <;> simp_all

theorem State.leafOf_notify (asid va : Nat) :
    (s.notify x).leafOf asid va = ((s.leafOf asid va).1.notify x, (s.leafOf asid va).2) := by
  have hasp : (s.notify x).aspace? asid = s.aspace? asid := rfl
  have hwalk : (s.notify x).walkOf asid va = s.walkOf asid va := rfl
  unfold State.leafOf
  rw [hasp, hwalk]
  split
  · rfl
  · split
    · rfl
    · exact State.walkCached_notify x asid va 3 s _

theorem State.translate_notify (asid va : Nat) (acc : Acc) :
    (s.notify x).translate asid va acc = ((s.translate asid va acc).1.notify x, (s.translate asid va acc).2) := by
  unfold State.translate
  rw [State.leafOf_notify]
  cases h : s.leafOf asid va with
  | mk s1 r =>
    cases r with
    | error c => rfl
    | ok l => rfl

theorem State.saPlace_notify (asid va : Nat) :
    (s.notify x).saPlace asid va = ((s.saPlace asid va).1.notify x, (s.saPlace asid va).2) := by
  unfold State.saPlace
  rw [State.translate_notify]
  cases h : s.translate asid va .read with
  | mk s1 r =>
    cases r with
    | ok p sa => cases sa <;> rfl
    | fault c => rfl
    | protect => rfl

/-- The reads on a launch cell are posted whatever notices stand. -/
theorem State.askHead_notify (car asid va : Nat) : ((s.notify x).askHead car asid va).2 = (s.askHead car asid va).2 := by
  unfold State.askHead
  rw [State.saPlace_notify]
  cases h : s.saPlace asid va with
  | mk s1 r =>
    cases r with
    | none => rfl
    | some p =>
      dsimp only
      rw [State.saPlace_notify]
      cases h : s1.saPlace asid (va + 64) with
      | mk s2 r => cases r <;> rfl

end

/-! ## What the dispatcher's stores and reads leave -/

/-- `t` differs from `s` at most in memory, the ports and the counter of free values. -/
def SameButMem (s t : State) : Prop := ∃ m n pt, t = { s with mem := m, free := n, ports := pt }

theorem SameButMem.refl (s : State) : SameButMem s s := ⟨_, _, _, rfl⟩

theorem SameButMem.trans {s t u : State} (h : SameButMem s t) (g : SameButMem t u) : SameButMem s u := by
  obtain ⟨_, _, _, rfl⟩ := h
  obtain ⟨_, _, _, rfl⟩ := g
  exact ⟨_, _, _, rfl⟩

theorem SameButMem.disp {s t : State} (h : SameButMem s t) : t.disp = s.disp := by obtain ⟨_, _, _, rfl⟩ := h; rfl

theorem SameButTlb.sameButMem {s t : State} (h : SameButTlb s t) : SameButMem s t := by
  obtain ⟨_, _, rfl⟩ := h
  exact ⟨_, _, _, rfl⟩

/-- A single-assignment page lies in HBM (R148, R150). -/
theorem State.translate_sa {s s1 : State} {asid va : Nat} {acc : Acc} {p : Place} (h : s.translate asid va acc = (s1, .ok p true)) :
    ∃ a, p = .hbm a := by
  unfold State.translate at h
  split at h
  · simp at h
  next s1' l _ =>
    simp only [Prod.mk.injEq] at h
    obtain ⟨-, h⟩ := h
    unfold State.throughLeaf State.hbmPlace at h
    by_cases hk : l.kind = 1 <;> simp only [hk] at h <;> (repeat' split at h) <;> simp_all <;> exact ⟨_, h.1.symm⟩

theorem State.storeAt_sa {s t : State} {asid a : Nat} {bs : List Byte} {mark : Bool}
    (h : s.storeAt asid (.hbm a) true bs mark = .ok t) : SameButMem s t := by
  cases hg : s.mem.gst (.hbm a) with
  | empty =>
    obtain ⟨l, hl⟩ := s.storeAt_of_empty asid a bs mark hg
    rw [hl] at h
    cases h
    exact ⟨_, _, _, rfl⟩
  | full => simp [State.storeAt, State.storeBy, hg] at h
  | void => simp [State.storeAt, State.storeBy, hg] at h

theorem State.saStore_same (s : State) (asid va : Nat) (bs : List Byte) : SameButMem s (s.saStore asid va bs).1 := by
  have htr := (s.translate_same asid va .write).sameButMem
  unfold State.saStore
  split
  next s1 p h =>
    rw [h] at htr
    obtain ⟨a, rfl⟩ := State.translate_sa h
    split
    next s2 hs => exact htr.trans (State.storeAt_sa hs)
    next => exact htr
  next s1 _ _ h => rw [h] at htr; exact htr

/-- The store of a completion record (R465). -/
theorem State.writeCompl_same (s : State) (asid : Nat) (compl : W64) (bs : List Byte) :
    SameButMem s (s.writeCompl asid compl bs).1 := by
  have h1 := s.saStore_same asid (compl.toNat + 64) (bs.drop 64)
  unfold State.writeCompl
  dsimp only
  split
  · exact .refl s
  · split
    next h => rw [h] at h1; exact h1
    next s1 h => rw [h] at h1; exact h1.trans (s1.saStore_same _ _ _)

/-- `t` differs from `s` at most in the ports and the counter of free values. -/
def SameButPorts (s t : State) : Prop := ∃ n pt, t = { s with free := n, ports := pt }

theorem SameButPorts.refl (s : State) : SameButPorts s s := ⟨_, _, rfl⟩

theorem SameButPorts.trans {s t u : State} (h : SameButPorts s t) (g : SameButPorts t u) : SameButPorts s u := by
  obtain ⟨_, _, rfl⟩ := h
  obtain ⟨_, _, rfl⟩ := g
  exact ⟨_, _, rfl⟩

theorem SameButPorts.disp {s t : State} (h : SameButPorts s t) : t.disp = s.disp := by obtain ⟨_, _, rfl⟩ := h; rfl
theorem SameButPorts.mem {s t : State} (h : SameButPorts s t) : t.mem = s.mem := by obtain ⟨_, _, rfl⟩ := h; rfl

theorem SameButTlb.sameButPorts {s t : State} (h : SameButTlb s t) : SameButPorts s t := by
  obtain ⟨_, _, rfl⟩ := h
  exact ⟨_, _, rfl⟩

theorem State.askCell_same (s : State) (rd : Reader) (p : Place) (asid : Nat) : SameButPorts s (s.askCell rd p asid) := by
  obtain ⟨r, -, hr⟩ := s.askCell_eq rd p asid
  exact ⟨_, _, hr⟩

/-- The reads on a record's dependences (R114). -/
theorem State.askDeps_same (c asid : Nat) (l : List Nat) (s : State) : SameButPorts s (s.askDeps c asid l).1 := by
  induction l generalizing s with
  | nil => exact .refl s
  | cons a rest ih =>
    have hsa := (s.saPlace_same asid a).sameButPorts
    unfold State.askDeps
    split
    next h => rw [h] at hsa; exact hsa
    next s1 p h =>
      rw [h] at hsa
      split
      · exact hsa
      · exact (hsa.trans (s1.askCell_same _ _ _)).trans (ih _)

/-- The reads of an image (R126). -/
theorem State.asGranules_same (rd : Reader) (asid n : Nat) (s : State) (a : Nat) (acc : List Byte) :
    SameButPorts s (s.asGranules rd asid n a acc).1 := by
  induction n generalizing s a acc with
  | zero => exact .refl s
  | succ n ih =>
    have htr := (s.translateRead_same rd asid a .read).sameButPorts
    unfold State.asGranules
    split
    next h => rw [h] at htr; exact htr
    next h => rw [h] at htr; exact htr
    next s1 p sa h =>
      rw [h] at htr
      split
      · exact htr
      · have hload : SameButPorts s1 (s1.loadAt rd asid p sa 64 (some a)).1 := by
          obtain h | h := s1.loadAt_same rd asid p sa 64 (some a)
          · rw [h]; exact .refl s1
          · rw [h]
            unfold State.postRead
            split
            · exact .refl s1
            · exact ⟨_, _, rfl⟩
        split
        next h => rw [h] at hload; exact htr.trans hload
        next h => rw [h] at hload; exact htr.trans hload
        next h => rw [h] at hload; exact (htr.trans hload).trans (ih _ _ _)

end Sys2Proof.Machine
end

section
/-! SUPPORT. Launch records (R110 to R114, R126): a caravan that goes on, and a record that is rejected. -/

namespace Sys2Proof.Machine

/-! ## A caravan leaves its head (R110) -/

/-- The entry of a caravan that has left its head in a state. -/
def Caravan.left (x : Caravan) (st : CarState) (head : W64) : Caravan :=
  { x with recd := none, seen := [], header := none, configs := [], state := st, head := head }

theorem Caravan.left_listed {x : Caravan} {st : CarState} {head : W64} (h : st ≠ .unreg) :
    (x.left st head).state = .unreg → x.left st head = Caravan.init := fun h' => absurd h' h

/-- Where a caravan that leaves its head stands (R110): it ends, stalls, or waits with two reads on its next cell. -/
theorem State.advanceCaravan_cases (s : State) (c : Nat) (next : W64) :
    (next = 0#64 ∧ s.advanceCaravan c next = (s.dropCaravanReads c).setCaravan c ((s.caravan c).left .ended 0#64)) ∨
    (next.toNat % 128 ≠ 0 ∧ s.advanceCaravan c next =
      ((s.dropCaravanReads c).setCaravan c ((s.caravan c).left .stalled next)).notify (.stalled c)) ∨
    (next ≠ 0#64 ∧ next.toNat % 128 = 0 ∧ ∀ v b, (s.dropCaravanReads c).askHead c (s.caravan c).asid next.toNat = (v, b) →
      s.advanceCaravan c next = if b then v.setCaravan c ((s.caravan c).left .waiting next)
        else (v.setCaravan c ((s.caravan c).left .stalled next)).notify (.stalled c)) := by
  by_cases h0 : next = 0#64
  · exact .inl ⟨h0, if_pos h0⟩
  · by_cases h1 : next.toNat % 128 ≠ 0
    · exact .inr (.inl ⟨h1, (if_neg h0).trans (if_pos h1)⟩)
    · refine .inr (.inr ⟨h0, by simpa using h1, fun v b hask => ?_⟩)
      refine ((if_neg h0).trans (if_neg h1)).trans ?_
      rw [hask]
      cases b <;> rfl

/-- What a caravan that goes on leaves: memory, every other caravan, and every notice. -/
theorem State.advanceCaravan_keeps (s : State) (c : Nat) (next : W64) : (s.advanceCaravan c next).mem = s.mem ∧
    Claims.OtherCaravans s (s.advanceCaravan c next) c ∧ ∀ n ∈ s.disp.notices, n ∈ (s.advanceCaravan c next).disp.notices := by
  have hset (t : State) (x : Caravan) (hd : t.disp = s.disp) (hm : t.mem = s.mem) : (t.setCaravan c x).mem = s.mem ∧
      Claims.OtherCaravans s (t.setCaravan c x) c ∧ ∀ n ∈ s.disp.notices, n ∈ (t.setCaravan c x).disp.notices := by
    refine ⟨hm, fun m hne => ?_, fun n hn => ?_⟩
    · rw [State.caravan_setCaravan_ne _ _ hne, State.caravan, hd]; rfl
    · show n ∈ t.disp.notices
      rw [hd]; exact hn
  have hnotify (t : State) (h : t.mem = s.mem ∧ Claims.OtherCaravans s t c ∧ ∀ n ∈ s.disp.notices, n ∈ t.disp.notices) :
      (t.notify (.stalled c)).mem = s.mem ∧ Claims.OtherCaravans s (t.notify (.stalled c)) c ∧
        ∀ n ∈ s.disp.notices, n ∈ (t.notify (.stalled c)).disp.notices := by
    obtain ⟨hm, ho, hn⟩ := h
    exact ⟨hm, ho, fun n hin => List.mem_append_left _ (hn n hin)⟩
  obtain ⟨-, h⟩ | ⟨-, h⟩ | ⟨-, -, h⟩ := s.advanceCaravan_cases c next
  · rw [h]; exact hset _ _ rfl rfl
  · rw [h]; exact hnotify _ (hset _ _ rfl rfl)
  · obtain ⟨tlb, n, l, heq, -⟩ := (s.dropCaravanReads c).askHead_eq c (s.caravan c).asid next.toNat
    cases hask : (s.dropCaravanReads c).askHead c (s.caravan c).asid next.toNat with
    | mk v b =>
      rw [hask] at heq
      have hv : v = _ := heq
      have hd : v.disp = s.disp := by rw [hv]; rfl
      have hm : v.mem = s.mem := by rw [hv]; rfl
      rw [h v b hask]
      cases b with
      | true => exact hset _ _ hd hm
      | false => exact hnotify _ (hset _ _ hd hm)

end Sys2Proof.Machine

namespace Sys2Proof.Claims

open Sys2Proof.Machine

theorem caravanStalls_of_left (t : State) (x : Caravan) (c : Nat) (next : W64) :
    CaravanStalls ((t.setCaravan c (x.left .stalled next)).notify (.stalled c)) c next := by
  have hset := t.caravan_setCaravan_self c (Caravan.left_listed (x := x) (st := .stalled) (head := next) (by decide))
  have hcar : ((t.setCaravan c (x.left .stalled next)).notify (.stalled c)).caravan c = x.left .stalled next := hset
  exact ⟨by rw [hcar]; rfl, by rw [hcar]; rfl, by rw [hcar]; rfl, List.mem_append_right _ (by simp)⟩

theorem caravanEnds_of_left (t : State) (x : Caravan) (c : Nat) : CaravanEnds (t.setCaravan c (x.left .ended 0#64)) c := by
  have hcar : (t.setCaravan c (x.left .ended 0#64)).caravan c = x.left .ended 0#64 :=
    State.caravan_setCaravan_self _ _ (Caravan.left_listed (by decide))
  exact ⟨by rw [hcar]; rfl, by rw [hcar]; rfl, by rw [hcar]; rfl⟩

/-- A caravan goes on as R110 says. -/
theorem caravanGoes_advance (s : State) (c : Nat) (next : W64) : CaravanGoes s (s.advanceCaravan c next) c next := by
  obtain ⟨h0, h⟩ | ⟨h1, h⟩ | ⟨h0, h1, h⟩ := s.advanceCaravan_cases c next
  · subst h0
    rw [h]
    exact ⟨fun _ => caravanEnds_of_left _ _ _, fun h => absurd rfl h, fun h => absurd rfl h⟩
  · rw [h]
    refine ⟨fun h0 => absurd (by rw [h0]; rfl) h1, fun _ => caravanStalls_of_left _ _ _ _, fun _ h => absurd h h1⟩
  · refine ⟨fun h => absurd h h0, fun h => absurd h1 h, fun _ _ v b hask => ⟨fun hb => ?_, fun hb => ?_⟩⟩
    · rw [h v b hask, if_pos hb]
      have heq := (s.dropCaravanReads c).askHead_eq c (s.caravan c).asid next.toNat
      rw [hask] at heq
      obtain ⟨tlb, n, l, rfl, hl, hlen⟩ := heq
      have hcar := State.caravan_setCaravan_self
        { s.dropCaravanReads c with free := n, ports := { (s.dropCaravanReads c).ports with
            tlb := tlb, reads := (s.dropCaravanReads c).ports.reads ++ l } } c
        (Caravan.left_listed (x := s.caravan c) (st := .waiting) (head := next) (by decide))
      refine ⟨by rw [hcar]; rfl, by rw [hcar]; rfl, by rw [hcar]; rfl, ?_⟩
      have hdropped : (s.dropCaravanReads c).ports.reads.filter (fun x => x.reader == .carHead c) = [] := by
        simp only [State.dropCaravanReads, State.dropReads, List.filter_filter, List.filter_eq_nil_iff]
        intro r _
        cases r.reader == Reader.carHead c <;> simp
      have hposted : l.filter (fun x => x.reader == .carHead c) = l := List.filter_eq_self.mpr fun r hr => by simp [hl r hr]
      show (((s.dropCaravanReads c).ports.reads ++ l).filter (fun x => x.reader == .carHead c)).length = 2
      rw [List.filter_append, hdropped, hposted]
      exact hlen hb
    · rw [h v b hask, if_neg (by simp [hb])]
      exact caravanStalls_of_left _ _ _ _

/-- A notice changes nothing of where a caravan goes. -/
theorem caravanGoes_of_notify {u t : State} {c : Nat} {next : W64} {x : Notice} (h : CaravanGoes (u.notify x) t c next) :
    CaravanGoes u t c next := by
  obtain ⟨hend, hstall, hgo⟩ := h
  refine ⟨hend, hstall, fun h0 h1 v b hask => hgo h0 h1 (((u.notify x).dropCaravanReads c).askHead c (u.caravan c).asid next.toNat).1 b ?_⟩
  have hb := State.askHead_notify (u.dropCaravanReads c) x c (u.caravan c).asid next.toNat
  rw [hask] at hb
  exact Prod.ext rfl hb

/-- A record that is rejected (R113). -/
theorem rejects_rejectLaunch (s : State) (c : Nat) (l : LaunchRec) (reason : Nat) :
    Rejects s (s.rejectLaunch c l reason) c l reason := by
  have hdisp := (s.writeCompl_same (s.caravan c).asid l.compl
    (complBytes 1 reason 0x1FF 0xFF 0 (s.caravan c).asid Counts.zero 0 0)).disp
  unfold Rejects State.rejectLaunch
  dsimp only
  cases hw : s.writeCompl (s.caravan c).asid l.compl (complBytes 1 reason 0x1FF 0xFF 0 (s.caravan c).asid Counts.zero 0 0) with
  | mk u ok =>
    rw [hw] at hdisp
    have hother (m : Nat) : u.caravan m = s.caravan m := by rw [State.caravan, hdisp]; rfl
    cases ok with
    | true =>
      obtain ⟨hm, ho, -⟩ := u.advanceCaravan_keeps c l.next
      exact ⟨caravanGoes_advance _ _ _, fun m hne => (ho m hne).trans (hother m), hm, fun h => absurd h (by simp)⟩
    | false =>
      obtain ⟨hm, ho, hn⟩ := (u.notify (.recordUnwritable c)).advanceCaravan_keeps c l.next
      exact ⟨caravanGoes_of_notify (caravanGoes_advance _ _ _), fun m hne => (ho m hne).trans (hother m), hm,
        fun _ => hn _ (List.mem_append_right _ (by simp))⟩

end Sys2Proof.Claims
end

section
/-! SUPPORT. The events of a launch record (R110 to R114, R126): its reading, the filling of its dependences, and the measurement
of its image. -/

namespace Sys2Proof.Claims

open Sys2Proof.Machine

/-- A caravan whose entry alone has been written, over a state that differs in reads alone. -/
theorem caravan_written {s u : State} (h : SameButPorts s u) (c : Nat) {x : Caravan} (hx : x.state ≠ .unreg) :
    (u.setCaravan c x).mem = s.mem ∧ OtherCaravans s (u.setCaravan c x) c ∧ (u.setCaravan c x).caravan c = x := by
  refine ⟨h.mem, fun m hm => ?_, u.caravan_setCaravan_self c fun h => absurd h hx⟩
  rw [State.caravan_setCaravan_ne _ _ hm, State.caravan, h.disp]
  rfl

theorem dropCaravanReads_same (s : State) (c : Nat) : SameButPorts s (s.dropCaravanReads c) := ⟨_, _, rfl⟩

/-! ## The record is read (R111 to R113) -/

/-- A record without a fault, whose dependences can be waited on. -/
theorem launchRecordRead_ready {s s1 : State} {c : Nat} {l : LaunchRec} {mark : Bool} (hw : (s.caravan c).state = .waiting)
    (hread : HeadRead s c l mark) (hgood : recordFault c (s.caravan c) l mark = none)
    (hdeps : (s.dropCaravanReads c).askDeps c (s.caravan c).asid l.depList = (s1, true)) :
    Completes (.launchRecordRead c) s fun t => t.mem = s.mem ∧ OtherCaravans s t c ∧ t.caravan c =
      { s.caravan c with recd := some l, state := if l.depList = [] then .ready else .depwait, seen := [] } := by
  obtain ⟨r0, r1, hreads, h0, h1, hg0, hg1, rfl, hl⟩ := hread
  have hsame := State.askDeps_same c (s.caravan c).asid l.depList (s.dropCaravanReads c)
  rw [hdeps] at hsame
  have hexec : exec (.launchRecordRead c) s = .next (s1.setCaravan c
      { s.caravan c with recd := some l, state := if l.depList = [] then .ready else .depwait, seen := [] }) := by
    change execLaunchRecordRead c s = _
    simp [execLaunchRecordRead, hw, hreads, h0, h1, hg0, hg1, ← hl, hgood, hdeps]
  exact ⟨_, hexec, caravan_written ((dropCaravanReads_same s c).trans hsame) c (by dsimp only; split <;> decide)⟩

/-- A record with a fault. -/
theorem launchRecordRead_rejected {s : State} {c reason : Nat} {l : LaunchRec} {mark : Bool}
    (hw : (s.caravan c).state = .waiting) (hread : HeadRead s c l mark)
    (hbad : recordFault c (s.caravan c) l mark = some reason) :
    Completes (.launchRecordRead c) s fun t => Rejects (s.dropCaravanReads c) t c l reason := by
  obtain ⟨r0, r1, hreads, h0, h1, hg0, hg1, rfl, hl⟩ := hread
  refine ⟨(s.dropCaravanReads c).rejectLaunch c l reason, ?_, rejects_rejectLaunch _ _ _ _⟩
  change execLaunchRecordRead c s = _
  simp [execLaunchRecordRead, hw, hreads, h0, h1, hg0, hg1, ← hl, hbad]

/-- A record of another address space is malformed, or names the wrong one (R113). -/
theorem recordFault_of_asid {c : Nat} {x : Caravan} {l : LaunchRec} {mark : Bool} (h : l.asidField.toNat ≠ x.asid) :
    recordFault c x l mark = some 1 ∨ recordFault c x l mark = some 2 := by
  cases hm : l.malformed with
  | true => exact .inl (if_pos hm)
  | false => exact .inr ((if_neg (by simp [hm])).trans (if_pos h))

/-! ## Its dependences fill (R113, R114) -/

/-- The read has been answered by a granule that became VOID. -/
def readVoided (r : Read) : Bool :=
  match r.answer with
  | some .voided => true
  | _ => false

theorem readVoided_iff (r : Read) : readVoided r = true ↔ r.answer = some .voided := by
  unfold readVoided
  split <;> simp_all

/-- The dependences that have been seen FULL, by their place in the record. -/
def depsSeen (rs : List Read) : List Nat := (rs.zipIdx.filter (fun r => r.1.answer.isSome)).map Prod.snd

theorem depsSeen_of_all {rs : List Read} (h : ∀ r ∈ rs, r.answer.isSome = true) : depsSeen rs = List.range rs.length := by
  have hall : rs.zipIdx.filter (fun r => r.1.answer.isSome) = rs.zipIdx :=
    List.filter_eq_self.mpr fun r hr => h r.1 (List.fst_mem_of_mem_zipIdx hr)
  rw [depsSeen, hall, List.zipIdx_map_snd, List.range_eq_range']

theorem length_depsSeen_ne {rs : List Read} (h : ∃ r ∈ rs, r.answer = none) : (depsSeen rs).length ≠ rs.length := by
  obtain ⟨r, hr, hnone⟩ := h
  obtain ⟨i, hi, rfl⟩ := List.getElem_of_mem hr
  have hmem : (rs[i], i) ∈ rs.zipIdx := List.mk_mem_zipIdx_iff_getElem?.mpr (by simp [hi])
  have hlt : (rs.zipIdx.filter (fun r => r.1.answer.isSome)).length < rs.zipIdx.length :=
    List.length_filter_lt_length_iff_exists.mpr ⟨_, hmem, by simp [hnone]⟩
  rw [List.length_zipIdx] at hlt
  simpa [depsSeen] using hlt.ne

theorem exec_dependenceFill {s : State} {c : Nat} {l : LaunchRec} (hd : (s.caravan c).state = .depwait)
    (hl : (s.caravan c).recd = some l) : exec (.dependenceFill c) s = .next (
      if (s.readsOf (.dep c)).any readVoided then s.rejectLaunch c l 4
      else if (depsSeen (s.readsOf (.dep c))).length = (s.readsOf (.dep c)).length then
        (s.dropCaravanReads c).setCaravan c { s.caravan c with seen := depsSeen (s.readsOf (.dep c)), state := .ready }
      else s.setCaravan c { s.caravan c with seen := depsSeen (s.readsOf (.dep c)) }) := by
  change execDependenceFill c s = _
  unfold execDependenceFill
  simp only [hd, hl]
  change (if (s.readsOf (.dep c)).any readVoided then Host.Outcome.next (s.rejectLaunch c l 4)
    else if (depsSeen (s.readsOf (.dep c))).length = (s.readsOf (.dep c)).length then
      .next ((s.dropCaravanReads c).setCaravan c
        { s.caravan c with recd := some l, seen := depsSeen (s.readsOf (.dep c)), state := .ready })
    else .next (s.setCaravan c
      { s.caravan c with recd := some l, state := .depwait, seen := depsSeen (s.readsOf (.dep c)) })) = _
  split
  · rfl
  · split <;> rfl

theorem dependenceFill_ready {s : State} {c : Nat} {l : LaunchRec} (hd : (s.caravan c).state = .depwait)
    (hl : (s.caravan c).recd = some l) (hfull : ∀ r ∈ s.readsOf (.dep c), ∃ b m, r.answer = some (.filled b m)) :
    Completes (.dependenceFill c) s fun t => t.mem = s.mem ∧ OtherCaravans s t c ∧
      t.caravan c = { s.caravan c with state := .ready, seen := List.range (s.readsOf (.dep c)).length } := by
  have hvoid : ¬((s.readsOf (.dep c)).any readVoided = true) := by
    rw [List.any_eq_true]
    rintro ⟨r, hr, hv⟩
    obtain ⟨b, m, hb⟩ := hfull r hr
    rw [readVoided_iff, hb] at hv
    cases hv
  have hseen : depsSeen (s.readsOf (.dep c)) = List.range (s.readsOf (.dep c)).length :=
    depsSeen_of_all fun r hr => by obtain ⟨b, m, hb⟩ := hfull r hr; simp [hb]
  have hexec := exec_dependenceFill hd hl
  rw [if_neg hvoid, hseen, if_pos List.length_range] at hexec
  exact ⟨_, hexec, caravan_written (dropCaravanReads_same s c) c (by simp)⟩

theorem dependenceFill_waits {s : State} {c : Nat} {l : LaunchRec} (hd : (s.caravan c).state = .depwait)
    (hl : (s.caravan c).recd = some l) (hvoid : ∀ r ∈ s.readsOf (.dep c), r.answer ≠ some .voided)
    (hnone : ∃ r ∈ s.readsOf (.dep c), r.answer = none) :
    Completes (.dependenceFill c) s fun t => t.mem = s.mem ∧ OtherCaravans s t c ∧ (t.caravan c).state = .depwait := by
  have hvoid' : ¬((s.readsOf (.dep c)).any readVoided = true) := by
    rw [List.any_eq_true]
    exact fun ⟨r, hr, hv⟩ => hvoid r hr ((readVoided_iff r).mp hv)
  have hexec := exec_dependenceFill hd hl
  rw [if_neg hvoid', if_neg (length_depsSeen_ne hnone)] at hexec
  obtain ⟨hmem, hother, hcar⟩ := caravan_written (SameButPorts.refl s) c
    (x := { s.caravan c with seen := depsSeen (s.readsOf (.dep c)) }) (by simp [hd])
  exact ⟨_, hexec, hmem, hother, by rw [hcar]; exact hd⟩

theorem dependenceFill_rejected {s : State} {c : Nat} {l : LaunchRec} (hd : (s.caravan c).state = .depwait)
    (hl : (s.caravan c).recd = some l) (hvoid : ∃ r ∈ s.readsOf (.dep c), r.answer = some .voided) :
    Completes (.dependenceFill c) s fun t => Rejects s t c l 4 := by
  have hexec := exec_dependenceFill hd hl
  obtain ⟨r, hr, hv⟩ := hvoid
  rw [if_pos (List.any_eq_true.mpr ⟨r, hr, (readVoided_iff r).mpr hv⟩)] at hexec
  exact ⟨_, hexec, rejects_rejectLaunch _ _ _ _⟩

/-! ## The image is measured (R126) -/

theorem exec_imageMeasure {s s2 : State} {c : Nat} {l : LaunchRec} {h : Header} {img : List Byte}
    (hready : (s.caravan c).state = .ready) (hl : (s.caravan c).recd = some l) (hnone : (s.caravan c).header = none)
    (himg : ImageRead s c l s2 h img) : exec (.imageMeasure c) s = .next (
      if directoryBad img h = false ∧ imageDigest img = h.digest then
        (s2.dropCaravanReads c).setCaravan c { s.caravan c with header := some h, configs := configDigests img h }
      else s2.rejectLaunch c l 7) := by
  obtain ⟨s1, b, raw, h1, hgood, rfl, h2, rfl⟩ := himg
  change execImageMeasure c s = _
  simp only [execImageMeasure, hready, hl, hnone, h1, hgood, h2, Bool.false_eq_true, if_false]
  split <;> rfl

theorem imageRead_same {s s2 : State} {c : Nat} {l : LaunchRec} {h : Header} {img : List Byte}
    (himg : ImageRead s c l s2 h img) : SameButPorts s s2 := by
  obtain ⟨s1, b, raw, h1, -, -, h2, -⟩ := himg
  have hs1 := State.asGranules_same (.measure c) (s.caravan c).asid 2 s l.image.toNat []
  have hs2 := State.asGranules_same (.measure c) (s.caravan c).asid ((h.imageLen.toNat + 63) / 64) s1 l.image.toNat []
  rw [h1] at hs1
  rw [h2] at hs2
  exact hs1.trans hs2

theorem directoryBad_eq_false (img : List Byte) (h : Header) :
    directoryBad img h = false ↔ ∀ e ∈ entriesOf img h, fieldLe e 8 8 % 64 = 0 := by
  simp [directoryBad]

end Sys2Proof.Claims

namespace Sys2Proof.Proofs

open Sys2Proof.Machine Sys2Proof.Claims

/-- Settles O43: the reading of the record, the filling of its dependences, and the measurement of its image, each in the cases
that R113, R114 and R126 name. -/
theorem launchRecords : Obligations.LaunchRecords := by
  refine ⟨fun s c l mark hw hread => ⟨fun s1 hgood hdeps => ?_, fun reason hbad => ?_, recordFault_of_asid⟩,
    fun s c l hd hl => ⟨dependenceFill_ready hd hl, dependenceFill_waits hd hl, dependenceFill_rejected hd hl⟩,
    fun s s2 c l h img hready hl hnone himg => ?_⟩
  · exact launchRecordRead_ready hw hread hgood hdeps
  · exact launchRecordRead_rejected hw hread hbad
  · have hexec := exec_imageMeasure hready hl hnone himg
    refine ⟨fun hdigest haligned => ?_, fun hbad => ?_⟩
    · rw [if_pos ⟨(directoryBad_eq_false img h).mpr haligned, hdigest⟩] at hexec
      exact ⟨_, hexec, caravan_written ((imageRead_same himg).trans (dropCaravanReads_same s2 c)) c (by simp [hready])⟩
    · have hnot : ¬(directoryBad img h = false ∧ imageDigest img = h.digest) := by
        rintro ⟨hdir, hdigest⟩
        exact hbad.elim (fun hne => hne hdigest) fun hna => hna ((directoryBad_eq_false img h).mp hdir)
      rw [if_neg hnot] at hexec
      exact ⟨_, hexec, rejects_rejectLaunch _ _ _ _⟩

end Sys2Proof.Proofs
end

section
/-! SUPPORT. The order of an arbitration round (R115): a round in which the head of one caravan alone is ready is its turn. -/

namespace Sys2Proof.Machine

/-- No caravan but one has a head that is ready. -/
def State.NoOtherHead (s : State) (c : Nat) : Prop := ∀ m, m < 192 → m ≠ c → s.headOf? m = none

theorem roundAt_of_none {p m : Nat} {x : State × Bool} (h : x.1.headOf? m = none) : roundAt p m x = x := by
  simp [roundAt, h]

theorem roundAt_of_other_prio {p m : Nat} {x : State × Bool} {h : Head} (hh : x.1.headOf? m = some h)
    (hp : h.recd.prio.toNat ≠ p) : roundAt p m x = x := by
  simp [roundAt, hh, hp]

/-- Caravans without a turn leave the round as it is. -/
theorem foldl_roundAt_quiet {p : Nat} {x : State × Bool} (l : List Nat) (h : ∀ m ∈ l, roundAt p m x = x) :
    l.foldl (fun x m => roundAt p m x) x = x := by
  induction l with
  | nil => rfl
  | cons m l ih => rw [List.foldl_cons, h m (by simp), ih fun k hk => h k (by simp [hk])]

/-- Among distinct caravans, the one with a turn takes it. -/
theorem foldl_roundAt_turn {p c : Nat} {x : State × Bool} {l : List Nat} (hnodup : l.Nodup) (hc : c ∈ l)
    (hbefore : ∀ m ∈ l, m ≠ c → roundAt p m x = x)
    (hafter : ∀ m ∈ l, m ≠ c → roundAt p m (roundAt p c x) = roundAt p c x) :
    l.foldl (fun x m => roundAt p m x) x = roundAt p c x := by
  obtain ⟨l1, l2, rfl⟩ := List.append_of_mem hc
  have h1 (m : Nat) (hm : m ∈ l1) : m ≠ c := fun h =>
    (List.nodup_append.mp hnodup).2.2 m hm c (by simp) h
  have h2 (m : Nat) (hm : m ∈ l2) : m ≠ c := fun h =>
    (List.nodup_cons.mp (List.nodup_append.mp hnodup).2.1).1 (h ▸ hm)
  rw [List.foldl_append, foldl_roundAt_quiet l1 fun m hm => hbefore m (by simp [hm]) (h1 m hm), List.foldl_cons]
  exact foldl_roundAt_quiet l2 fun m hm => hafter m (by simp [hm]) (h2 m hm)

/-- The caravans in the order of a priority's turn. -/
def turnOrder (start : Nat) : List Nat := (List.range 192).map (fun i => (start + i) % 192)

theorem mem_turnOrder (start : Nat) {m : Nat} : m ∈ turnOrder start ↔ m < 192 := by
  simp only [turnOrder, List.mem_map, List.mem_range]
  constructor
  · rintro ⟨i, -, rfl⟩
    omega
  · exact fun hm => ⟨(m + 192 - start % 192) % 192, by omega, by omega⟩

theorem nodup_turnOrder (start : Nat) : (turnOrder start).Nodup := by
  refine List.Nodup.map_on (fun x hx y hy h => ?_) List.nodup_range
  rw [List.mem_range] at hx hy
  omega

/-- The caravans of a priority take their turns. -/
def roundOf (p : Nat) (s : State) : State × Bool :=
  (turnOrder ((s.disp.lastWinner.toList.getD p 191 + 1) % 192)).foldl (fun x m => roundAt p m x) (s, false)

theorem roundFrom_cons (p : Nat) (ps : List Nat) (s : State) :
    roundFrom (p :: ps) s = if (roundOf p s).2 then ((roundOf p s).1, true) else roundFrom ps (roundOf p s).1 := by
  simp only [roundFrom, roundOf, turnOrder, List.foldl_map]

theorem roundFrom_quiet (ps : List Nat) (s : State) (h : ∀ p ∈ ps, ∀ m, m < 192 → roundAt p m (s, false) = (s, false)) :
    roundFrom ps s = (s, false) := by
  induction ps with
  | nil => rfl
  | cons p ps ih =>
    have hp : roundOf p s = (s, false) := foldl_roundAt_quiet _ fun m hm => h p (by simp) m ((mem_turnOrder _).mp hm)
    rw [roundFrom_cons, hp]
    exact ih fun q hq => h q (by simp [hq])

/-- A round in which one caravan alone has a head that is ready, and after whose turn none has one, or it is blocked, or nothing
has changed. -/
theorem roundFrom_turn {s : State} {c : Nat} {h : Head} {y : State × Bool} (hc : c < 192) (hh : s.headOf? c = some h)
    (hother : s.NoOtherHead c) (hy : roundAt h.recd.prio.toNat c (s, false) = y) (hother' : y.1.NoOtherHead c)
    (hgone : y.2 = true ∨ y.1.headOf? c = none ∨ y = (s, false)) (ps : List Nat) (hnodup : ps.Nodup)
    (hp : h.recd.prio.toNat ∈ ps) : roundFrom ps s = y := by
  induction ps with
  | nil => simp at hp
  | cons p ps ih =>
    obtain ⟨hpn, hnodup'⟩ := List.nodup_cons.mp hnodup
    by_cases hpp : h.recd.prio.toNat = p
    · subst hpp
      have hround : roundOf h.recd.prio.toNat s = y := by
        rw [← hy]
        refine foldl_roundAt_turn (nodup_turnOrder _) ((mem_turnOrder _).mpr hc) (fun m hm hmc => ?_) (fun m hm hmc => ?_)
        · exact roundAt_of_none (hother m ((mem_turnOrder _).mp hm) hmc)
        · rw [hy]
          exact roundAt_of_none (hother' m ((mem_turnOrder _).mp hm) hmc)
      rw [roundFrom_cons, hround]
      obtain ⟨t, b⟩ := y
      cases b with
      | true => rfl
      | false =>
        refine roundFrom_quiet ps t fun q hq m hm => ?_
        by_cases hmc : m = c
        · subst hmc
          obtain h | h | h := hgone
          · exact absurd h (by simp)
          · exact roundAt_of_none h
          · cases h
            exact roundAt_of_other_prio hh fun h => hpn (h ▸ hq)
        · exact roundAt_of_none (hother' m hm hmc)
    · have hround : roundOf p s = (s, false) := by
        refine foldl_roundAt_quiet _ fun m hm => ?_
        by_cases hmc : m = c
        · subst hmc
          exact roundAt_of_other_prio hh hpp
        · exact roundAt_of_none (hother m ((mem_turnOrder _).mp hm) hmc)
      rw [roundFrom_cons, hround]
      exact ih hnodup' (by simpa [hpp] using hp)

/-- The event of a round whose one ready head takes its turn. -/
theorem exec_arbitrationRound {s : State} {c : Nat} {h : Head} {y : State × Bool} (hhead : Claims.OnlyHead s c h)
    (hy : roundAt h.recd.prio.toNat c (s, false) = y) (hother' : y.1.NoOtherHead c)
    (hgone : y.2 = true ∨ y.1.headOf? c = none ∨ y = (s, false))
    (hlive : y.2 = true → ∀ k ∈ y.1.disp.clusters, k.2.abort = none) :
    exec .arbitrationRound s = .next y.1 := by
  obtain ⟨hc, hprio, hh, hother⟩ := hhead
  have hround : roundFrom [0, 1, 2, 3, 4, 5, 6, 7] s = y :=
    roundFrom_turn hc hh hother hy hother' hgone _ (by decide) (by simp; omega)
  change execArbitrationRound s = _
  unfold execArbitrationRound
  rw [hround]
  cases hb : y.2 with
  | false => simp [hb]
  | true =>
    have hdead : y.1.disp.clusters.filter (fun k => k.2.abort.isSome) = [] :=
      List.filter_eq_nil_iff.mpr fun k hk => by simp [hlive hb k hk]
    simp [hb, hdead]

end Sys2Proof.Machine
end

section
/-! SUPPORT. Placement of a new launch (R127, R133, R136, R141): the regions that start, the banks that are handed over, the
measurement log, and the caravan's next head. -/

namespace Sys2Proof.Machine

/-! ## Regions that are mapped -/

/-- The mapping of regions changes regions alone. -/
theorem State.foldl_mapRegion_eq (f : Region → Region) (l : List Nat) (s : State) : ∃ rg,
    l.foldl (fun s r => s.mapRegion r f) s = { s with regions := rg } := by
  induction l generalizing s with
  | nil => exact ⟨s.regions, rfl⟩
  | cons r l ih =>
    obtain ⟨rg, h⟩ := ih (s.mapRegion r f)
    exact ⟨rg, by rw [List.foldl_cons, h]; rfl⟩

/-- Each of the regions is mapped by a function that has no more to do a second time, and no other. -/
theorem State.region_foldl_mapRegion {f : Region → Region} (hf : ∀ x, f (f x) = f x) (l : List Nat) (s : State) (q : Nat) :
    (l.foldl (fun s r => s.mapRegion r f) s).region q = if q ∈ l then f (s.region q) else s.region q := by
  induction l generalizing s with
  | nil => simp
  | cons r l ih =>
    rw [List.foldl_cons, ih]
    by_cases hq : q = r
    · subst hq
      by_cases hl : q ∈ l <;> simp [hl, State.mapRegion, hf]
    · simp [hq, State.mapRegion, State.region_setRegion_ne s _ hq]

/-! ## Banks (R133, R141) -/

/-- A byte in a memory of which only the cells of some addresses are left. -/
theorem Memory.read_filter (keep : Nat → Bool) (m : List Host.Cell) (a : Nat) :
    Memory.read (m.filter (fun c => keep c.1)) a = if keep a then Memory.read m a else 0#8 := by
  induction m with
  | nil => simp
  | cons c m ih =>
    by_cases hc : c.1 = a
    · cases hk : keep a <;> simp [hc, hk, ih, Memory.read]
    · cases hk : keep c.1 <;> simp [hc, hk, ih, Memory.read]

theorem Mems.byte_zeroBanks (m : Mems) (l : List Nat) (b y : Nat) (hy : y < 262144) :
    (m.zeroBanks l).byte (.bank b y) = if b ∈ l then 0#8 else m.byte (.bank b y) := by
  have hbank : (b * bankBytes + y) / bankBytes = b := by unfold bankBytes; omega
  have h := Memory.read_filter (fun a => !l.contains (a / bankBytes)) m.bank (b * bankBytes + y)
  rw [hbank] at h
  refine h.trans ?_
  by_cases hb : b ∈ l
  · simp [hb]
  · simp [hb, Mems.byte, Mems.list, Place.key]

theorem Mems.gst_zeroBanks (m : Mems) (l : List Nat) (b y : Nat) (hy : y < 262144) :
    (m.zeroBanks l).gst (.bank b y) = if b ∈ l then .empty else m.gst (.bank b y) := by
  have hbank : (b * bankBytes + y) / 64 * 64 / bankBytes = b := by unfold bankBytes; omega
  have h := Table.find?_filter_key m.gstBank (fun a => !l.contains (a * 64 / bankBytes)) ((b * bankBytes + y) / 64)
  rw [hbank] at h
  show Table.get _ _ _ = _
  rw [Table.get]
  refine (congrArg (Option.getD · Gst.empty) h).trans ?_
  by_cases hb : b ∈ l
  · simp [hb]
  · simp [hb, Mems.gst, Table.get]

/-- The banks that are handed over (R133, R141). -/
theorem banksHanded_handBanks {s t : State} (asid : Nat) (psa : Bool) (bs : List Nat)
    (h : t.mem = (s.handBanks asid psa bs).mem) : Claims.BanksHanded s t asid psa bs := by
  have hz (b : Nat) : b ∈ bs.filter (fun b => psa || Table.find? s.disp.bankAsid b != some asid) ↔
      b ∈ bs ∧ (psa = true ∨ Table.find? s.disp.bankAsid b ≠ some asid) := by simp
  refine ⟨fun q hq => ?_, fun b y hy => ⟨fun hb hgive => ?_, fun hb => ?_⟩⟩
  · rw [h]
    cases q with
    | bank b y => exact absurd rfl (hq b y)
    | hbm a => rfl
    | tile x t o => rfl
    | sram a => rfl
    | host p o => cases p <;> rfl
  · rw [h]
    have hin := (hz b).mpr ⟨hb, hgive⟩
    exact ⟨(Mems.byte_zeroBanks _ _ _ _ hy).trans (if_pos hin), (Mems.gst_zeroBanks _ _ _ _ hy).trans (if_pos hin)⟩
  · rw [h]
    have hout := fun hin => hb ((hz b).mp hin).1
    exact ⟨(Mems.byte_zeroBanks _ _ _ _ hy).trans (if_neg hout), (Mems.gst_zeroBanks _ _ _ _ hy).trans (if_neg hout)⟩

/-! ## The measurement log (R127) -/

/-- A log after events of one kind. -/
def Aspace.extendAll (a : Aspace) (l : List (Nat × BitVec 384)) : Aspace := l.foldl (fun a c => a.extend 2 c.1 c.2) a

theorem Aspace.extended_extendAll (a : Aspace) (l : List (Nat × BitVec 384)) :
    Claims.Extended a (l.map (fun e => (2, e.1, e.2))) (a.extendAll l) := by
  induction l generalizing a with
  | nil => exact .done a
  | cons e l ih => exact .one a (a.extend 2 e.1 e.2) _ 2 e.1 e.2 _ rfl (ih _)

theorem Aspace.logged_extend (a : Aspace) (kind id : Nat) (d : BitVec 384) : (a.extend kind id d).logged = a.logged := by
  unfold Aspace.extend
  rfl

theorem Aspace.logged_extendAll (a : Aspace) (l : List (Nat × BitVec 384)) : (a.extendAll l).logged = a.logged := by
  induction l generalizing a with
  | nil => rfl
  | cons e l ih => exact (ih (a.extend 2 e.1 e.2)).trans (a.logged_extend 2 e.1 e.2)

theorem State.setAspace_eq (s : State) (asid : Nat) (a : Aspace) : ∃ l,
    s.setAspace asid a = { s with disp := { s.disp with aspaces := l } } := ⟨_, rfl⟩

/-- The logging of an image changes address spaces alone (R127). -/
theorem State.logImage_eq (s : State) (asid : Nat) (h : Header) (l : List (Nat × BitVec 384)) : ∃ a,
    s.logImage asid h l = { s with disp := { s.disp with aspaces := a } } := by
  unfold State.logImage
  split
  · exact ⟨s.disp.aspaces, rfl⟩
  · split
    · exact ⟨s.disp.aspaces, rfl⟩
    · exact State.setAspace_eq _ _ _

theorem State.aspace?_logImage {s : State} {asid : Nat} {a : Aspace} (h : Header) (l : List (Nat × BitVec 384))
    (ha : s.aspace? asid = some a) : (s.logImage asid h l).aspace? asid = some (if a.logged.contains h.digest then a
      else { (a.extend 1 0 h.digest).extendAll l with logged := a.logged ++ [h.digest] }) := by
  unfold State.logImage
  rw [ha]
  dsimp only
  split
  · exact ha
  · rw [State.aspace?_setAspace_self, ← Aspace.extendAll, Aspace.logged_extendAll, Aspace.logged_extend]

/-- The image of a head that is placed is logged (R127). -/
theorem imageLogged_logImage {s u t : State} {c : Nat} (h : Header)
    (hu : u.disp.aspaces = s.disp.aspaces)
    (ht : t.disp.aspaces = (u.logImage (s.caravan c).asid h (s.caravan c).configs).disp.aspaces) :
    Claims.ImageLogged s t c h := by
  intro a ha
  have hlog := State.aspace?_logImage (s := u) h (s.caravan c).configs (by rw [State.aspace?, hu]; exact ha)
  have ht' : t.aspace? (s.caravan c).asid = (u.logImage (s.caravan c).asid h (s.caravan c).configs).aspace? (s.caravan c).asid := by
    rw [State.aspace?, ht]; rfl
  rw [ht', hlog]
  refine ⟨fun hin => by rw [if_pos hin], fun hout => ⟨(a.extend 1 0 h.digest).extendAll (s.caravan c).configs, ?_, ?_⟩⟩
  · rw [if_neg (by simpa using hout)]
  · exact .one a _ _ 1 0 h.digest _ rfl (Aspace.extended_extendAll _ _)

end Sys2Proof.Machine
end

section
/-! SUPPORT. A round that places a new launch (R115, R136). -/

namespace Sys2Proof.Machine

/-! ## A caravan that goes on -/

/-- What a caravan that goes on leaves: all but the ports, the counter of free values, the caravans and the notices. -/
theorem State.advanceCaravan_eq (s : State) (c : Nat) (next : W64) : ∃ n pt cs ns, s.advanceCaravan c next =
    { s with free := n, ports := pt, disp := { s.disp with caravans := cs, notices := ns } } := by
  obtain ⟨-, h⟩ | ⟨-, h⟩ | ⟨-, -, h⟩ := s.advanceCaravan_cases c next
  · exact ⟨s.free, _, _, s.disp.notices, h⟩
  · exact ⟨s.free, _, _, _, h⟩
  · have heq := (s.dropCaravanReads c).askHead_eq c (s.caravan c).asid next.toNat
    cases hask : (s.dropCaravanReads c).askHead c (s.caravan c).asid next.toNat with
    | mk v b =>
      rw [hask] at heq
      obtain ⟨tlb, n, l, rfl, -⟩ := heq
      rw [h _ b hask]
      cases b with
      | true => exact ⟨n, _, _, s.disp.notices, rfl⟩
      | false => exact ⟨n, _, _, _, rfl⟩

/-- A caravan that goes on has no head read. -/
theorem State.caravan_advanceCaravan_recd (s : State) (c : Nat) (next : W64) :
    ((s.advanceCaravan c next).caravan c).recd = none := by
  obtain ⟨hend, hstall, hgo⟩ := Claims.caravanGoes_advance s c next
  by_cases h0 : next = 0#64
  · exact (hend h0).2.1
  · by_cases h1 : next.toNat % 128 ≠ 0
    · exact (hstall h1).2.1
    · obtain ⟨hwait, hfail⟩ := hgo h0 (by simpa using h1) _ _ rfl
      cases hb : ((s.dropCaravanReads c).askHead c (s.caravan c).asid next.toNat).2 with
      | true => exact (hwait hb).2.1
      | false => exact (hfail hb).2.1

/-! ## Heads that are ready -/

theorem State.headOf?_congr {s t : State} {m : Nat} (hsaved : t.disp.saved = s.disp.saved) (hcar : t.caravan m = s.caravan m) :
    t.headOf? m = s.headOf? m := by
  rw [State.headOf?, State.headOf?, hsaved, hcar]

/-- A caravan whose head is a record has no saved cluster. -/
theorem State.saved_of_fresh {s : State} {c : Nat} {l : LaunchRec} {h : Header} (hh : s.headOf? c = some (.fresh l h)) :
    s.disp.saved.find? (fun x => x.cluster.caravan == c) = none := by
  unfold State.headOf? at hh
  split at hh
  · simp at hh
  · assumption

theorem State.headOf?_of_no_record {s : State} {c : Nat} (hsaved : s.disp.saved.find? (fun x => x.cluster.caravan == c) = none)
    (hrecd : (s.caravan c).recd = none) : s.headOf? c = none := by
  rw [State.headOf?, hsaved]
  dsimp only
  rw [hrecd]
  split <;> simp_all

/-! ## A new launch is placed (R136) -/

/-- The cluster of a new launch. -/
def State.newCluster (s : State) (c : Nat) (l : LaunchRec) (h : Header) (rs bs : List Nat) : Cluster :=
  { caravan := c, asid := (s.caravan c).asid, recd := l, header := h, regions := rs, banks := bs, dx := 0, dy := 0
    barArrived := 0#128, barGen := 0#32, snapCount := 0#32, energy := 0#64, placedTick := s.pow.tick, order := s.disp.nextCluster
    abort := none, snap := none, checkpoint := none }

/-- The state in which the cluster of a new launch stands, its regions not yet started. -/
def State.boundNew (s : State) (c : Nat) (l : LaunchRec) (h : Header) (rs bs : List Nat) : State :=
  let s1 := (s.handBanks (s.caravan c).asid l.psa bs).logImage (s.caravan c).asid h (s.caravan c).configs
  let s2 := s1.setCluster s.disp.nextCluster (s.newCluster c l h rs bs)
  { s2 with disp := { s2.disp with nextCluster := s.disp.nextCluster + 1 } }

/-- The state in which a new launch stands placed, before its caravan goes on. -/
def State.placedNew (s : State) (c : Nat) (l : LaunchRec) (h : Header) (rs bs : List Nat) : State :=
  rs.foldl (fun s' r => s'.mapRegion r (fun y => y.start s.disp.nextCluster)) (s.boundNew c l h rs bs)

theorem State.placeNew_eq (s : State) (c : Nat) (l : LaunchRec) (h : Header) (rs bs : List Nat) :
    s.placeNew c l h rs bs = (s.placedNew c l h rs bs).advanceCaravan c l.next := rfl

section
variable (s : State) (c : Nat) (l : LaunchRec) (h : Header) (rs bs : List Nat)

/-- What a placement changes: memory, regions, and of the dispatcher the clusters, the banks' owners and the address spaces. -/
theorem State.placedNew_eq : ∃ rg ba asp, s.placedNew c l h rs bs =
    { s with
      mem := (s.handBanks (s.caravan c).asid l.psa bs).mem, regions := rg
      disp := { s.disp with
        bankAsid := ba, aspaces := asp, nextCluster := s.disp.nextCluster + 1
        clusters := Table.put s.disp.clusters s.disp.nextCluster (s.newCluster c l h rs bs) } } ∧
    asp = ((s.handBanks (s.caravan c).asid l.psa bs).logImage (s.caravan c).asid h (s.caravan c).configs).disp.aspaces := by
  obtain ⟨asp, hlog⟩ := (s.handBanks (s.caravan c).asid l.psa bs).logImage_eq (s.caravan c).asid h (s.caravan c).configs
  obtain ⟨rg, hrg⟩ := State.foldl_mapRegion_eq (fun y => y.start s.disp.nextCluster) rs (s.boundNew c l h rs bs)
  rw [State.placedNew, hrg, State.boundNew, hlog]
  exact ⟨rg, _, asp, rfl, rfl⟩

theorem State.region_placedNew (q : Nat) : (s.placedNew c l h rs bs).region q =
    if q ∈ rs then (s.region q).start s.disp.nextCluster else s.region q := by
  obtain ⟨asp, hlog⟩ := (s.handBanks (s.caravan c).asid l.psa bs).logImage_eq (s.caravan c).asid h (s.caravan c).configs
  have hstart (x : Region) : (x.start s.disp.nextCluster).start s.disp.nextCluster = x.start s.disp.nextCluster := rfl
  have hbound : (s.boundNew c l h rs bs).region q = s.region q := by rw [State.boundNew, hlog]; rfl
  rw [State.placedNew, State.region_foldl_mapRegion hstart, hbound]

end

end Sys2Proof.Machine

namespace Sys2Proof.Claims

open Sys2Proof.Machine

/-- The caravan that has won a round at a priority is its last winner (R115). -/
theorem getD_lastWinner (v : Vector Nat 8) {p : Nat} (c : Nat) (hp : p < 8) : (v.setIfInBounds p c).toList.getD p 0 = c := by
  simp [List.getD_eq_getElem?_getD, hp]

section
variable {s : State} {c : Nat} {l : LaunchRec} {h : Header} {rs bs : List Nat}

/-- The state of a round that has placed a new launch. -/
def roundPlaced (s : State) (c : Nat) (l : LaunchRec) (h : Header) (rs bs : List Nat) : State :=
  { s.placeNew c l h rs bs with disp := { (s.placeNew c l h rs bs).disp with
      lastWinner := (s.placeNew c l h rs bs).disp.lastWinner.setIfInBounds l.prio.toNat c } }

theorem roundAt_fresh (hh : s.headOf? c = some (.fresh l h)) (hfit : s.fitHead c (.fresh l h) [] [] = some (rs, bs)) :
    roundAt l.prio.toNat c (s, false) = (roundPlaced s c l h rs bs, false) := by
  simp [roundAt, hh, hfit, Head.recd, roundPlaced]

/-- A round that finds a new launch that fits. -/
theorem round_places (hhead : OnlyHead s c (.fresh l h)) (hfit : s.fitHead c (.fresh l h) [] [] = some (rs, bs)) :
    exec .arbitrationRound s = .next (roundPlaced s c l h rs bs) := by
  have hhead' := hhead
  obtain ⟨hc, hprio, hh, hother⟩ := hhead'
  obtain ⟨rg, ba, asp, hplaced, -⟩ := s.placedNew_eq c l h rs bs
  obtain ⟨n, pt, cs, ns, hadv⟩ := (s.placedNew c l h rs bs).advanceCaravan_eq c l.next
  obtain ⟨-, hcar, -⟩ := (s.placedNew c l h rs bs).advanceCaravan_keeps c l.next
  have hsaved : (roundPlaced s c l h rs bs).disp.saved = s.disp.saved := by
    rw [roundPlaced, State.placeNew_eq, hadv, hplaced]
  refine exec_arbitrationRound hhead (roundAt_fresh hh hfit) (fun m hm hmc => ?_) (.inr (.inl ?_)) (fun h => absurd h (by simp))
  · refine (State.headOf?_congr hsaved ((hcar m hmc).trans ?_)).trans (hother m hm hmc)
    rw [hplaced]; rfl
  · refine State.headOf?_of_no_record ?_ (State.caravan_advanceCaravan_recd (s.placedNew c l h rs bs) c l.next)
    exact (congrArg (List.find? _) hsaved).trans (State.saved_of_fresh hh)

theorem placed_completes (hhead : OnlyHead s c (.fresh l h)) (hfit : s.fitHead c (.fresh l h) [] [] = some (rs, bs)) :
    Completes .arbitrationRound s fun t =>
      (∃ u, u.mem = t.mem ∧ u.disp.aspaces = t.disp.aspaces ∧ u.ports = s.ports ∧ u.free = s.free ∧
        (u.caravan c).asid = (s.caravan c).asid ∧ CaravanGoes u t c l.next) ∧
      OtherCaravans s t c ∧ ImageLogged s t c h ∧ BanksHanded s t (s.caravan c).asid l.psa bs ∧
      t.disp.nextCluster = s.disp.nextCluster + 1 ∧ t.disp.lastWinner.toList.getD l.prio.toNat 0 = c ∧
      (∀ m, m ≠ s.disp.nextCluster → t.cluster? m = s.cluster? m) ∧
      (∃ k, t.cluster? s.disp.nextCluster = some k ∧ k.caravan = c ∧ k.asid = (s.caravan c).asid ∧ k.recd = l ∧ k.header = h ∧
        k.regions = rs ∧ k.banks = bs ∧ k.dx = 0 ∧ k.dy = 0 ∧ k.abort = none ∧ k.snap = none ∧ k.placedTick = s.pow.tick) ∧
      (∀ r ∈ rs, (t.region r).cluster = some s.disp.nextCluster ∧ (t.region r).core.run = .running ∧
        (t.region r).core.pc = 0#64 ∧ (t.region r).core.priv = .graph) ∧
      ∀ r, r ∉ rs → t.region r = s.region r := by
  obtain ⟨rg, ba, asp, hplaced, hasp⟩ := s.placedNew_eq c l h rs bs
  obtain ⟨n, pt, cs, ns, hadv⟩ := (s.placedNew c l h rs bs).advanceCaravan_eq c l.next
  obtain ⟨hmem, hcar, -⟩ := (s.placedNew c l h rs bs).advanceCaravan_keeps c l.next
  have hgoes := caravanGoes_advance (s.placedNew c l h rs bs) c l.next
  have hregion (r : Nat) : (roundPlaced s c l h rs bs).region r = (s.placedNew c l h rs bs).region r := by
    rw [roundPlaced, State.placeNew_eq, hadv]; rfl
  have hdisp (f : Disp → Prop) (hf : f { s.disp with
      bankAsid := ba, aspaces := asp, nextCluster := s.disp.nextCluster + 1, caravans := cs, notices := ns
      clusters := Table.put s.disp.clusters s.disp.nextCluster (s.newCluster c l h rs bs)
      lastWinner := s.disp.lastWinner.setIfInBounds l.prio.toNat c }) : f (roundPlaced s c l h rs bs).disp := by
    rw [roundPlaced, State.placeNew_eq, hadv, hplaced]; exact hf
  have hpmem : (s.placedNew c l h rs bs).mem = (s.handBanks (s.caravan c).asid l.psa bs).mem := by rw [hplaced]
  have hpcar (m : Nat) : (s.placedNew c l h rs bs).caravan m = s.caravan m := by rw [hplaced]; rfl
  refine ⟨_, round_places hhead hfit, ⟨s.placedNew c l h rs bs, hmem.symm, ?_, ?_, ?_, ?_, hgoes⟩,
    fun m hm => (hcar m hm).trans (hpcar m), ?_, ?_, ?_, ?_, fun m hm => ?_, ⟨s.newCluster c l h rs bs, ?_, rfl, rfl, rfl, rfl,
      rfl, rfl, rfl, rfl, rfl, rfl, rfl⟩, fun r hr => ?_, fun r hr => ?_⟩
  · exact hdisp (fun d => _ = d.aspaces) (by rw [hplaced])
  · rw [hplaced]
  · rw [hplaced]
  · rw [hpcar]
  · exact imageLogged_logImage (u := s.handBanks (s.caravan c).asid l.psa bs) h rfl (hdisp (fun d => d.aspaces = _) hasp)
  · exact banksHanded_handBanks _ _ _ (hmem.trans hpmem)
  · exact hdisp (fun d => d.nextCluster = _) rfl
  · exact hdisp (fun d => d.lastWinner.toList.getD l.prio.toNat 0 = c) (getD_lastWinner _ _ hhead.2.1)
  · exact hdisp (fun d => Table.find? d.clusters m = _) (Table.find?_put_ne _ _ hm)
  · exact hdisp (fun d => Table.find? d.clusters _ = _) (Table.find?_put_self _ _ _)
  · rw [hregion, State.region_placedNew, if_pos hr]
    exact ⟨rfl, rfl, rfl, rfl⟩
  · rw [hregion, State.region_placedNew, if_neg hr]

/-- A head that neither fits nor pre-empts changes nothing. -/
theorem blocked_completes {h : Head} (hhead : OnlyHead s c h) (hfit : s.fitHead c h [] [] = none)
    (hpre : h.recd.preempts = false) (hlive : ∀ k ∈ s.disp.clusters, k.2.abort = none) :
    exec .arbitrationRound s = .next s := by
  have hhead' := hhead
  obtain ⟨hc, hprio, hh, hother⟩ := hhead'
  have hy : roundAt h.recd.prio.toNat c (s, false) = (s, true) := by simp [roundAt, hh, hfit, hpre]
  exact exec_arbitrationRound hhead hy hother (.inl rfl) (fun _ => hlive)

end

end Sys2Proof.Claims
end

section
/-! SUPPORT. A round whose head pre-empts (R116, R420): its victims in their order, and the snapshots that begin. -/

namespace Sys2Proof.Machine

/-! ## Tables -/

/-- An entry of a table of distinct keys is the one its key finds. -/
theorem Table.find?_of_mem {α : Type} {t : Table α} {e : Nat × α} (ht : t.Pairwise (fun x y => x.1 ≠ y.1)) (he : e ∈ t) :
    Table.find? t e.1 = some e.2 := by
  induction t with
  | nil => simp at he
  | cons f t ih =>
    obtain ⟨hf, ht'⟩ := List.pairwise_cons.mp ht
    rw [Table.find?_cons]
    obtain rfl | he := List.mem_cons.mp he
    · rw [if_pos rfl]
    · rw [if_neg (hf e he), ih ht' he]

theorem Table.mem_put {α : Type} {t : Table α} {k : Nat} {v : α} {e : Nat × α} (h : e ∈ Table.put t k v) :
    e = (k, v) ∨ e ∈ t := by
  induction t with
  | nil => simpa [Table.put] using h
  | cons f t ih =>
    unfold Table.put at h
    split at h
    · simpa using h
    · split at h
      · obtain h | h := List.mem_cons.mp h
        · exact .inl h
        · exact .inr (List.mem_cons_of_mem _ h)
      · obtain h | h := List.mem_cons.mp h
        · exact .inr (by simp [h])
        · exact (ih h).imp id (List.mem_cons_of_mem _)

/-! ## A snapshot begins (R162, R209, R420) -/

/-- `t` differs from `s` at most in the regions of a list, the ports and the semaphores. -/
structure InRegions (l : List Nat) (s t : State) : Prop where
  mem : t.mem = s.mem
  disp : ∃ sems, t.disp = { s.disp with sems := sems }
  region : ∀ q, q ∉ l → t.region q = s.region q

theorem InRegions.refl (l : List Nat) (s : State) : InRegions l s s := ⟨rfl, ⟨_, rfl⟩, fun _ _ => rfl⟩

theorem InRegions.trans {l : List Nat} {s t u : State} (h : InRegions l s t) (g : InRegions l t u) : InRegions l s u := by
  obtain ⟨hm, ⟨a, ha⟩, hr⟩ := h
  obtain ⟨gm, ⟨b, hb⟩, gr⟩ := g
  exact ⟨gm.trans hm, ⟨b, by rw [hb, ha]⟩, fun q hq => (gr q hq).trans (hr q hq)⟩

theorem InRegions.mono {l l' : List Nat} {s t : State} (h : InRegions l s t) (hl : ∀ q ∈ l, q ∈ l') : InRegions l' s t :=
  ⟨h.mem, h.disp, fun q hq => h.region q fun hin => hq (hl q hin)⟩

theorem State.setRegion_inRegions (s : State) (r : Nat) (x : Region) : InRegions [r] s (s.setRegion r x) :=
  ⟨rfl, ⟨_, rfl⟩, fun q hq => s.region_setRegion_ne x (by simpa using hq)⟩

/-- A sequencer that freezes. -/
theorem State.freezeCore_inRegions (s : State) (r : Nat) : InRegions [r] s (s.freezeCore r) := by
  have hcore (x : Core) : InRegions [r] s ((s.dropCoreReads (.seq r)).setCore (.seq r) x) :=
    (⟨rfl, ⟨_, rfl⟩, fun _ _ => rfl⟩ : InRegions [r] s (s.dropCoreReads (.seq r))).trans (State.setRegion_inRegions _ r _)
  unfold State.freezeCore
  dsimp only
  split
  · exact .refl _ s
  · split
    · exact (hcore _).trans ⟨rfl, ⟨_, rfl⟩, fun _ _ => rfl⟩
    · exact (hcore _).trans ⟨rfl, ⟨_, rfl⟩, fun _ _ => rfl⟩
    · exact hcore _
    · exact hcore _

theorem State.foldl_snapRegion_inRegions (payload : W32) (l : List Nat) (s : State) :
    InRegions l s (l.foldl (fun s r => s.snapRegion payload r) s) := by
  induction l generalizing s with
  | nil => exact .refl _ s
  | cons r l ih =>
    have hsnap : InRegions [r] s (s.snapRegion payload r) :=
      (State.setRegion_inRegions s r _).trans (State.freezeCore_inRegions _ r)
    exact (hsnap.mono (by simp)).trans ((ih _).mono fun q hq => by simp [hq])

/-- The snapshot of a victim begins, or the one under way is joined. -/
theorem State.beginSnapshot_preempt {s : State} {n : Nat} {k : Cluster} (c : Nat) (hk : s.cluster? n = some k) :
    InRegions k.regions (s.setCluster n (Claims.snapFor c k)) (s.beginSnapshot n (some c) (k.snapCount + 1#32)) := by
  unfold State.beginSnapshot
  rw [hk]
  dsimp only
  cases hsnap : k.snap with
  | some p =>
    have hfor : Claims.snapFor c k = { k with snap := some { p with preempt := some c } } := by
      simp [Claims.snapFor, hsnap]
    rw [hfor]
    exact .refl _ _
  | none =>
    have hfor : Claims.snapFor c k = { k with snap := some { preempt := some c, number := k.snapCount + 1#32 } } := by
      simp [Claims.snapFor, hsnap]
    rw [hfor]
    exact (State.foldl_snapRegion_inRegions _ _ _).mono fun q hq => (List.mem_filter.mp hq).1

/-- The snapshots of distinct victims begin (R116): their clusters, and the regions that these hold, are all that changes. -/
theorem State.foldl_beginSnapshot (c : Nat) (vs : List (Nat × Cluster)) (s : State) (hd : vs.Pairwise (fun x y => x.1 ≠ y.1))
    (hvs : ∀ x ∈ vs, s.cluster? x.1 = some x.2) :
    let t := vs.foldl (fun s k => s.beginSnapshot k.1 (some c) (k.2.snapCount + 1#32)) s
    t.mem = s.mem ∧ (∃ sems cl, t.disp = { s.disp with sems := sems, clusters := cl }) ∧
    (∀ x ∈ vs, t.cluster? x.1 = some (Claims.snapFor c x.2)) ∧ (∀ n, (∀ x ∈ vs, x.1 ≠ n) → t.cluster? n = s.cluster? n) ∧
    (∀ r, (∀ x ∈ vs, r ∉ x.2.regions) → t.region r = s.region r) ∧
    ((∀ e ∈ s.disp.clusters, e.2.abort = none) → ∀ e ∈ t.disp.clusters, e.2.abort = none) := by
  induction vs generalizing s with
  | nil => exact ⟨rfl, ⟨_, _, rfl⟩, by simp, fun _ _ => rfl, fun _ _ => rfl, id⟩
  | cons x vs ih =>
    obtain ⟨hx, hd'⟩ := List.pairwise_cons.mp hd
    have hfirst := State.beginSnapshot_preempt c (hvs x (by simp))
    set u := s.beginSnapshot x.1 (some c) (x.2.snapCount + 1#32) with hu
    obtain ⟨umem, ⟨usems, udisp⟩, ureg⟩ := hfirst
    have uclusters : u.disp.clusters = Table.put s.disp.clusters x.1 (Claims.snapFor c x.2) := by rw [udisp]; rfl
    have uself : u.cluster? x.1 = some (Claims.snapFor c x.2) := by
      rw [State.cluster?, uclusters]; exact Table.find?_put_self _ _ _
    have uother (n : Nat) (hn : n ≠ x.1) : u.cluster? n = s.cluster? n := by
      rw [State.cluster?, uclusters]; exact Table.find?_put_ne _ _ hn
    obtain ⟨tmem, ⟨tsems, tcl, tdisp⟩, tself, tother, treg, tlive⟩ := ih u hd'
      fun y hy => (uother y.1 (Ne.symm (hx y hy))).trans (hvs y (by simp [hy]))
    refine ⟨tmem.trans umem, ⟨tsems, tcl, by rw [List.foldl_cons, tdisp, udisp]; rfl⟩, fun y hy => ?_, fun n hn => ?_, fun r hr => ?_,
      fun hlive => tlive fun e he => ?_⟩
    · obtain rfl | hy := List.mem_cons.mp hy
      · exact (tother y.1 fun z hz => Ne.symm (hx z hz)).trans uself
      · exact tself y hy
    · exact (tother n fun y hy => hn y (by simp [hy])).trans (uother n (Ne.symm (hn x (by simp))))
    · exact (treg r fun y hy => hr y (by simp [hy])).trans (ureg r (hr x (by simp)))
    · rw [uclusters] at he
      obtain rfl | he := Table.mem_put he
      · have hin : x ∈ s.disp.clusters := Table.mem_of_find? (hvs x (by simp))
        exact hlive x hin
      · exact hlive e he

/-! ## The victims (R116) -/

/-- The shortest run of candidates, behind those already taken, with whose room the head fits. -/
theorem State.enough_spec (s : State) (c : Nat) (h : Head) (l got : List (Nat × Cluster)) :
    let fits (v : List (Nat × Cluster)) : Bool :=
      (s.fitHead c h (v.flatMap (fun x => x.2.regions)) (v.flatMap (fun x => x.2.banks))).isSome
    (∃ n, 0 < n ∧ n ≤ l.length ∧ s.enough c h l got = some (got ++ l.take n) ∧ fits (got ++ l.take n) = true ∧
      ∀ m, 0 < m → m < n → fits (got ++ l.take m) = false) ∨
    (s.enough c h l got = none ∧ ∀ m, 0 < m → m ≤ l.length → fits (got ++ l.take m) = false) := by
  intro fits
  induction l generalizing got with
  | nil => exact .inr ⟨rfl, fun m h0 hm => absurd hm (by simp; omega)⟩
  | cons k l ih =>
    have hstep : s.enough c h (k :: l) got = if fits (got ++ [k]) then some (got ++ [k]) else s.enough c h l (got ++ [k]) := rfl
    have happ (m : Nat) : got ++ [k] ++ l.take m = got ++ (k :: l).take (m + 1) := by simp
    cases hfits : fits (got ++ [k]) with
    | true =>
      refine .inl ⟨1, by omega, by simp, ?_, by simpa using hfits, fun m h0 h1 => by omega⟩
      rw [hstep, hfits]
      simp
    | false =>
      rw [hstep, hfits, if_neg (by simp)]
      obtain ⟨n, hn, hle, heq, hfit, hmin⟩ | ⟨heq, hnone⟩ := ih (got ++ [k])
      · refine .inl ⟨n + 1, by omega, by simp [hle], by rw [heq, happ], by rw [← happ]; exact hfit, fun m h0 hm => ?_⟩
        obtain _ | m := m
        · omega
        · obtain _ | m := m
          · simpa using hfits
          · rw [← happ]
            exact hmin (m + 1) (by omega) (by omega)
      · refine .inr ⟨heq, fun m h0 hm => ?_⟩
        obtain _ | m := m
        · omega
        · obtain _ | m := m
          · simpa using hfits
          · rw [← happ]
            exact hnone (m + 1) (by omega) (by simpa using hm)

theorem State.canYield_iff (s : State) (prio : Nat) (x : Nat × Cluster) :
    (x ∈ s.disp.clusters ∧ s.canYield prio x = true) ↔ Claims.MayYield s prio x := by
  unfold State.canYield Claims.MayYield
  cases hsnap : x.2.snap <;> simp [and_assoc]

/-- The candidates in the order in which they are taken. -/
def State.yieldOrder (s : State) (prio : Nat) : List (Nat × Cluster) :=
  (sortBy (fun k => k.2.recd.prio.toNat * 2 ^ 64 + k.2.order) (s.disp.clusters.filter (s.canYield prio))).reverse

theorem State.mem_yieldOrder (s : State) (prio : Nat) (x : Nat × Cluster) :
    x ∈ s.yieldOrder prio ↔ Claims.MayYield s prio x := by
  rw [State.yieldOrder, List.mem_reverse, (sortBy_perm _ _).mem_iff, List.mem_filter, State.canYield_iff]

theorem State.yieldOrder_pairwise {s : State} (prio : Nat) (hd : s.disp.clusters.Pairwise (fun x y => x.1 ≠ y.1))
    (horder : ∀ x ∈ s.disp.clusters, x.2.order < 2 ^ 64) :
    (s.yieldOrder prio).Pairwise (fun x y => x.1 ≠ y.1 ∧ Claims.YieldsBefore x y) := by
  set l := s.disp.clusters.filter (s.canYield prio) with hl
  have hperm := sortBy_perm (fun k : Nat × Cluster => k.2.recd.prio.toNat * 2 ^ 64 + k.2.order) l
  have hdistinct : (sortBy (fun k : Nat × Cluster => k.2.recd.prio.toNat * 2 ^ 64 + k.2.order) l).Pairwise
      (fun x y => x.1 ≠ y.1) := (List.Perm.pairwise_iff (fun h => Ne.symm h) hperm).mpr (hd.filter _)
  have hsorted := sortBy_pairwise (fun k : Nat × Cluster => k.2.recd.prio.toNat * 2 ^ 64 + k.2.order) l
  rw [State.yieldOrder, List.pairwise_reverse]
  refine (hdistinct.and hsorted).imp_of_mem fun {x y} hx hy h => ?_
  obtain ⟨hne, hle⟩ := h
  have hox := horder x (List.mem_filter.mp (hperm.mem_iff.mp hx)).1
  have hoy := horder y (List.mem_filter.mp (hperm.mem_iff.mp hy)).1
  refine ⟨Ne.symm hne, ?_⟩
  unfold Claims.YieldsBefore
  omega

theorem State.victims_eq (s : State) (c : Nat) (h : Head) :
    s.victims c h = (s.enough c h (s.yieldOrder h.recd.prio.toNat) []).getD [] := rfl

/-- The victims are the shortest run of the candidates that is enough. -/
theorem State.victims_spec {s : State} (c : Nat) (h : Head) (hd : s.disp.clusters.Pairwise (fun x y => x.1 ≠ y.1))
    (horder : ∀ x ∈ s.disp.clusters, x.2.order < 2 ^ 64) : Claims.VictimsOf s c h (s.victims c h) := by
  refine ⟨s.yieldOrder h.recd.prio.toNat, State.yieldOrder_pairwise _ hd horder, State.mem_yieldOrder s _, ?_⟩
  rw [State.victims_eq]
  obtain ⟨n, hn, hle, heq, hfit, hmin⟩ | ⟨heq, hnone⟩ := s.enough_spec c h (s.yieldOrder h.recd.prio.toNat) []
  · exact .inl ⟨n, hn, hle, by rw [heq]; rfl, by rw [heq]; exact hfit, hmin⟩
  · exact .inr ⟨by rw [heq]; rfl, hnone⟩

end Sys2Proof.Machine

namespace Sys2Proof.Claims

open Sys2Proof.Machine

/-- A head that pre-empts begins the snapshots of its victims (R116). -/
theorem preempts_completes {s : State} {c : Nat} {h : Head} (hhead : OnlyHead s c h) (hfit : s.fitHead c h [] [] = none)
    (hpre : h.recd.preempts = true) (hunder : s.preempting c = false)
    (hsorted : s.disp.clusters.Pairwise (fun x y => x.1 < y.1))
    (hlive : ∀ x ∈ s.disp.clusters, x.2.abort = none ∧ x.2.order < 2 ^ 64) :
    Completes .arbitrationRound s fun t => t.mem = s.mem ∧ t.disp.caravans = s.disp.caravans ∧
      ∃ vs, VictimsOf s c h vs ∧ (∀ x ∈ vs, t.cluster? x.1 = some (snapFor c x.2)) ∧
        (∀ n, (∀ x ∈ vs, x.1 ≠ n) → t.cluster? n = s.cluster? n) ∧
        ∀ r, (∀ x ∈ vs, r ∉ x.2.regions) → t.region r = s.region r := by
  have hhead' := hhead
  obtain ⟨hc, hprio, hh, hother⟩ := hhead'
  have hdistinct : s.disp.clusters.Pairwise (fun x y => x.1 ≠ y.1) := hsorted.imp Nat.ne_of_lt
  have hvs := State.victims_spec c h hdistinct (fun x hx => (hlive x hx).2)
  have hvs' := hvs
  obtain ⟨order, horder, hmem, hrun⟩ := hvs'
  have hprefix : ∃ n, s.victims c h = order.take n := by
    obtain ⟨n, -, -, hn, -⟩ | ⟨hnil, -⟩ := hrun
    · exact ⟨n, hn⟩
    · exact ⟨0, by simpa using hnil⟩
  obtain ⟨n, hn⟩ := hprefix
  have hpair : (s.victims c h).Pairwise (fun x y => x.1 ≠ y.1) := by
    rw [hn]; exact (horder.imp And.left).take
  have hstand (x : Nat × Cluster) (hx : x ∈ s.victims c h) : s.cluster? x.1 = some x.2 := by
    rw [hn] at hx
    obtain ⟨hin, -⟩ := (hmem x).mp (List.mem_of_mem_take hx)
    exact Table.find?_of_mem hdistinct hin
  obtain ⟨tmem, ⟨sems, cl, tdisp⟩, tself, tother, treg, tlive⟩ := State.foldl_beginSnapshot c (s.victims c h) s hpair hstand
  set t := (s.victims c h).foldl (fun s k => s.beginSnapshot k.1 (some c) (k.2.snapCount + 1#32)) s with ht
  have hy : roundAt h.recd.prio.toNat c (s, false) = (t, true) := by
    simp [roundAt, hh, hfit, hpre, hunder, ht]
  have hround := exec_arbitrationRound hhead hy
    (fun m hm hmc => (State.headOf?_congr (by rw [tdisp]) (by rw [State.caravan, tdisp]; rfl)).trans (hother m hm hmc))
    (.inl rfl) (fun _ => tlive fun e he => (hlive e he).1)
  exact ⟨t, hround, tmem, by rw [tdisp], _, hvs, tself, tother, treg⟩

end Sys2Proof.Claims
end

section
/-! SUPPORT. What the reading and checking of images leaves of the dispatcher (R194, R213, R460): nothing differs but the energy
of clusters. -/

namespace Sys2Proof.Machine

/-- A cluster but for its energy. -/
def Cluster.sansEnergy (k : Cluster) : Cluster := { k with energy := 0#64 }

/-- The dispatcher of `t` differs from that of `s` at most in the energy of its clusters. -/
structure EnergyOnly (s t : State) : Prop where
  disp : ∃ cl, t.disp = { s.disp with clusters := cl }
  cluster : ∀ n, (t.cluster? n).map Cluster.sansEnergy = (s.cluster? n).map Cluster.sansEnergy

theorem EnergyOnly.of_disp {s t : State} (h : t.disp = s.disp) : EnergyOnly s t :=
  ⟨⟨s.disp.clusters, h⟩, fun n => by rw [State.cluster?_congr h]⟩

theorem EnergyOnly.refl (s : State) : EnergyOnly s s := .of_disp rfl

theorem EnergyOnly.trans {s t u : State} (h : EnergyOnly s t) (g : EnergyOnly t u) : EnergyOnly s u := by
  obtain ⟨⟨a, ha⟩, hc⟩ := h
  obtain ⟨⟨b, hb⟩, gc⟩ := g
  exact ⟨⟨b, by rw [hb, ha]⟩, fun n => (gc n).trans (hc n)⟩

theorem SameButTlb.energyOnly {s t : State} (h : SameButTlb s t) : EnergyOnly s t := .of_disp h.disp

theorem Cluster.sansEnergy_paid (k : Cluster) (n : Nat) : (k.paid n).sansEnergy = k.sansEnergy := by
  unfold Cluster.paid
  split <;> rfl

theorem State.pay_energyOnly (s : State) (k : Option Nat) (n : Nat) : EnergyOnly s (s.pay k n) := by
  unfold State.pay
  split
  · exact .refl s
  next k =>
    split
    · exact .refl s
    next c hc =>
      refine ⟨⟨_, rfl⟩, fun m => ?_⟩
      by_cases hm : m = k
      · subst hm
        rw [hc, State.cluster?, State.setCluster, Table.find?_put_self, Option.map_some, Option.map_some,
          Cluster.sansEnergy_paid]
      · rw [State.cluster?, State.setCluster, Table.find?_put_ne _ _ hm]
        rfl

theorem State.charge_energyOnly (s : State) (k : Option Nat) (p : Place) : EnergyOnly s (s.charge k p) := by
  unfold State.charge
  split
  · exact .refl s
  · obtain ⟨x, g, h⟩ := s.frames_same p
    exact (EnergyOnly.of_disp (by rw [h])).trans (State.pay_energyOnly _ _ _)

theorem State.loadAt_energyOnly (s : State) (rd : Reader) (asid : Nat) (p : Place) (sa : Bool) (n : Nat) (virt : Option Nat) :
    EnergyOnly s (s.loadAt rd asid p sa n virt).1 := by
  refine .of_disp ?_
  obtain h | h := s.loadAt_same rd asid p sa n virt
  · rw [h]
  · rw [h]
    unfold State.postRead
    split <;> rfl

section
variable (rd : Reader) (kn : Nat) (k : Cluster) (r : Nat)

theorem State.resolveIn_energyOnly (s : State) (sp : Space) (a : Nat) (acc : Acc) (o : Option Reader) :
    EnergyOnly s (s.resolveIn k r sp a acc o).1 := by
  unfold State.resolveIn
  split
  · split
    · exact (s.translateRead_same _ _ _ _).energyOnly
    · exact (s.translate_same _ _ _).energyOnly
  · exact .refl s
  · exact .refl s

theorem State.readGranules_energyOnly (sp : Space) (n : Nat) (s : State) (a : Nat) (acc : List Byte) :
    EnergyOnly s (s.readGranules rd kn k r sp n a acc).1 := by
  induction n generalizing s a acc with
  | zero => exact .refl s
  | succ n ih =>
    have hres := s.resolveIn_energyOnly k r sp a .read (some rd)
    unfold State.readGranules
    split
    next h => rw [h] at hres; exact hres
    next h => rw [h] at hres; exact hres
    next s1 p sa h =>
      rw [h] at hres
      split
      · exact hres
      · have hload := s1.loadAt_energyOnly rd k.asid p sa 64 (sp.virt? a)
        split
        next h => rw [h] at hload; exact hres.trans hload
        next h => rw [h] at hload; exact hres.trans hload
        next s2 _ h =>
          rw [h] at hload
          exact ((hres.trans hload).trans (s2.charge_energyOnly _ _)).trans (ih _ _ _)

theorem State.readRange_energyOnly (s : State) (sp : Space) (a n : Nat) :
    EnergyOnly s (s.readRange rd kn k r sp a n).1 := by
  have h := State.readGranules_energyOnly rd kn k r sp ((a % 64 + n + 63) / 64) s (a - a % 64) []
  unfold State.readRange
  split
  next hr => rw [hr] at h; exact h
  next => exact h

theorem State.findEntry_energyOnly (id n : Nat) (s : State) (a : Nat) : EnergyOnly s (s.findEntry rd kn k r id n a).1 := by
  induction n generalizing s a with
  | zero => exact .refl s
  | succ n ih =>
    have h := State.readRange_energyOnly rd kn k r s .virt a 64
    unfold State.findEntry
    split
    next s1 bs hr =>
      rw [hr] at h
      split
      · exact h
      · exact h.trans (ih _ _)
    next => exact h

theorem State.checkTables_energyOnly (l : List (At Rec × Desc)) (s : State) (acc : List Reject) :
    EnergyOnly s (s.checkTables rd kn k r l acc).1 := by
  induction l generalizing s acc with
  | nil => exact .refl s
  | cons e l ih =>
    obtain ⟨q, d⟩ := e
    unfold State.checkTables
    dsimp only
    split
    · exact ih _ _
    · have h := State.readRange_energyOnly rd kn k r s (d.spaceUnder k.dx k.dy) (((d.base : Int) + d.start).toNat)
        (64 * d.counts.getD 0 0)
      split
      next hr => rw [hr] at h; exact h.trans (ih _ _)
      next hr => rw [hr] at h; exact h

theorem State.checkImage_energyOnly (s : State) (words exits : List W32) :
    EnergyOnly s (s.checkImage rd kn k r words exits).1 := by
  unfold State.checkImage
  split
  · exact .refl s
  next p _ =>
    split
    · exact .refl s
    · have h := State.checkTables_energyOnly rd kn k r (p.shift k.dx k.dy).tableRecs s []
      dsimp only
      split
      next hr => rw [hr] at h; exact h
      next hr =>
        rw [hr] at h
        split <;> exact h

theorem State.readImage_energyOnly (s : State) (entry : List Byte) : EnergyOnly s (s.readImage rd kn k r entry).1 := by
  have h1 := State.readRange_energyOnly rd kn k r s .virt (k.recd.image + BitVec.ofNat 64 (fieldLe entry 8 8)).toNat 32
  unfold State.readImage
  dsimp only
  split
  next s1 hd hr =>
    have hun : EnergyOnly s (s1.uncharged s) := .of_disp rfl
    have h2 := hun.trans (State.readRange_energyOnly rd kn k r (s1.uncharged s) .virt
      (k.recd.image + BitVec.ofNat 64 (fieldLe entry 8 8)).toNat (4 * max 8 (fieldLe hd 28 4)))
    split
    next hr2 => rw [hr2] at h2; exact h2.trans (State.checkImage_energyOnly rd kn k r _ _ _)
    next hr2 => rw [hr2] at h2; exact h2
  next hr => rw [hr] at h1; exact h1

theorem State.fetchImage_energyOnly (s : State) (id : Nat) : EnergyOnly s (s.fetchImage rd kn k r id).1 := by
  have h : EnergyOnly s (s.dirEntry rd kn k r id).1 := State.findEntry_energyOnly rd kn k r id _ s _
  unfold State.fetchImage
  split
  next hr => rw [hr] at h; exact h
  next hr => rw [hr] at h; exact h.trans (State.readImage_energyOnly rd kn k r _ _)
  next hr => rw [hr] at h; exact h

end

/-- The images of a region are checked again (R213). -/
theorem State.recheck_energyOnly (n : Nat) (k : Cluster) (r : Nat) (l : List Entry) (s : State) :
    EnergyOnly s (s.recheck n k r l).1 := by
  induction l generalizing s with
  | nil => exact .refl s
  | cons e l ih =>
    have h := State.fetchImage_energyOnly (.core (.seq r)) n k r s e.cfgid
    unfold State.recheck
    split
    next s1 _ _ hr =>
      rw [hr] at h
      have hrest := ih s1
      split
      next hr2 => rw [hr2] at hrest; exact h.trans hrest
      next hr2 => rw [hr2] at hrest; exact h.trans hrest
    next hr => rw [hr] at h; exact h
    next hr => rw [hr] at h; exact h

/-- Those of every region of a cluster. -/
theorem State.recheckAll_energyOnly (n : Nat) (k : Cluster) (l : List (Nat × Region)) (s : State) :
    EnergyOnly s (s.recheckAll n k l).1 := by
  induction l generalizing s with
  | nil => exact .refl s
  | cons e l ih =>
    obtain ⟨r, x⟩ := e
    have h := State.recheck_energyOnly n k r x.committed s
    unfold State.recheckAll
    split
    next hr => rw [hr] at h; exact h
    next hr => rw [hr] at h; exact h
    next s1 _ hr =>
      rw [hr] at h
      have hrest := ih s1
      split
      next hr2 => rw [hr2] at hrest; exact h.trans hrest
      next hr2 => rw [hr2] at hrest; exact h.trans hrest

end Sys2Proof.Machine
end

section
/-! SUPPORT. The restoring of a saved cluster (R144, R213, R412, R430, R431): what each step changes, and the regions that run
again. -/

namespace Sys2Proof.Machine

/-! ## Regions that are written one after another -/

/-- The writing of regions changes regions alone. -/
theorem State.foldl_mapRegions_eq {β : Type} (f : Nat × β → Region → Region) (l : List (Nat × β)) (s : State) : ∃ rg,
    l.foldl (fun s x => s.mapRegion x.1 (f x)) s = { s with regions := rg } := by
  induction l generalizing s with
  | nil => exact ⟨s.regions, rfl⟩
  | cons x l ih =>
    obtain ⟨rg, h⟩ := ih (s.mapRegion x.1 (f x))
    exact ⟨rg, by rw [List.foldl_cons, h]; rfl⟩

theorem State.region_foldl_mapRegions_of_notMem {β : Type} (f : Nat × β → Region → Region) (l : List (Nat × β)) (s : State)
    {q : Nat} (h : ∀ x ∈ l, x.1 ≠ q) : (l.foldl (fun s x => s.mapRegion x.1 (f x)) s).region q = s.region q := by
  induction l generalizing s with
  | nil => rfl
  | cons x l ih =>
    rw [List.foldl_cons, ih _ fun y hy => h y (by simp [hy])]
    exact s.region_setRegion_ne _ (Ne.symm (h x (by simp)))

/-- Each of distinct regions is written once. -/
theorem State.region_foldl_mapRegions {β : Type} (f : Nat × β → Region → Region) {l : List (Nat × β)}
    (hd : l.Pairwise (fun x y => x.1 ≠ y.1)) (s : State) {e : Nat × β} (he : e ∈ l) :
    (l.foldl (fun s x => s.mapRegion x.1 (f x)) s).region e.1 = f e (s.region e.1) := by
  induction l generalizing s with
  | nil => simp at he
  | cons x l ih =>
    obtain ⟨hx, hd'⟩ := List.pairwise_cons.mp hd
    rw [List.foldl_cons]
    obtain rfl | he := List.mem_cons.mp he
    · rw [State.region_foldl_mapRegions_of_notMem f l _ fun y hy => Ne.symm (hx y hy)]
      simp [State.mapRegion]
    · rw [ih hd' _ he]
      exact congrArg (f e) (s.region_setRegion_ne _ (Ne.symm (hx e he)))

/-- A region that has thawed has no more to do. -/
theorem Region.thaw_thaw (x : Region) : x.thaw.thaw = x.thaw := by
  have hcore : x.thaw.core.run ≠ .frozen := by
    unfold Region.thaw
    dsimp only
    split
    · simp
    · assumption
  have hsites : x.thaw.thaw.sites = x.thaw.sites := by simp [Region.thaw]
  have hrun : x.thaw.thaw.core = x.thaw.core := if_neg hcore
  calc x.thaw.thaw = { x.thaw with core := x.thaw.thaw.core, sites := x.thaw.thaw.sites } := rfl
    _ = x.thaw := by rw [hsites, hrun]

/-! ## The steps of a restore -/

section
variable (s : State) (sv : Saved) (k : Cluster) (d : Int)

theorem State.restoreMem_eq : ∃ m ba, s.restoreMem sv k d =
    { s with mem := m, disp := { s.disp with bankAsid := ba } } := ⟨_, _, rfl⟩

theorem State.restoreRegions_eq (cfgs : List (List (Nat × Cfg))) : ∃ rg,
    s.restoreRegions sv k d cfgs = { s with regions := rg } :=
  State.foldl_mapRegions_eq (fun x : Nat × (Region × List (Nat × Cfg)) => restoreRegion sv.number x.1 d x.2.2 x.2.1) _ s

/-- No reply recorded in an address space is owed. -/
def State.NothingOwed (s : State) (asid : Nat) : Prop := ∀ a, s.aspace? asid = some a → ∀ x ∈ a.cells, x.reply = none

/-- The commands of a saved cluster stand at the engines again. -/
theorem State.foldl_enqueueCmd_eq (f : Nat × Cmd → Cmd) (l : List (Nat × Cmd)) (s : State) : ∃ e,
    l.foldl (fun s c => s.enqueueCmd c.1 (f c)) s = { s with engines := e } := by
  induction l generalizing s with
  | nil => exact ⟨s.engines, rfl⟩
  | cons c l ih =>
    obtain ⟨e, h⟩ := ih (s.enqueueCmd c.1 (f c))
    exact ⟨e, by rw [List.foldl_cons, h]; rfl⟩

/-- What follows a saved cluster: its engine commands, its fault records, its fatal faults and its semaphores. -/
theorem State.restoreRest_eq : ∃ e asp fat sems, s.restoreRest sv k d =
    { s with engines := e, disp := { s.disp with aspaces := asp, fatal := fat, sems := sems } } := by
  obtain ⟨e, he⟩ := State.foldl_enqueueCmd_eq (fun c => { c.2 with issuer := moveIssuer sv k d c.2.issuer }) sv.cmds s
  unfold State.restoreRest
  rw [he]
  dsimp only
  split
  · exact ⟨e, s.disp.aspaces, _, _, rfl⟩
  · exact ⟨e, _, _, _, rfl⟩

theorem State.nothingOwed_restoreRest {s : State} (h : s.NothingOwed k.asid) :
    (s.restoreRest sv k d).NothingOwed k.asid := by
  obtain ⟨e, he⟩ := State.foldl_enqueueCmd_eq (fun c => { c.2 with issuer := moveIssuer sv k d c.2.issuer }) sv.cmds s
  intro a ha x hx
  unfold State.restoreRest at ha
  rw [he] at ha
  dsimp only at ha
  cases hold : s.aspace? k.asid with
  | none =>
    have hnone : ({ s with engines := e } : State).aspace? k.asid = none := hold
    rw [hnone] at ha
    exact absurd (hold.symm.trans ha) (by simp)
  | some o =>
    have hsome : ({ s with engines := e } : State).aspace? k.asid = some o := hold
    rw [hsome] at ha
    have hset := (Table.find?_put_self _ _ _).symm.trans ha
    cases hset
    obtain ⟨y, hy, rfl⟩ := List.mem_map.mp hx
    exact h o hold y hy

/-- Replies are acted on only where one is recorded (R412). -/
theorem State.actCells_of_none (asid : Nat) (mine : FqCell → Reply → Bool) (l : List FqCell) (s : State)
    (h : ∀ x ∈ l, x.reply = none) : State.actCells asid mine l s = (s, true) := by
  induction l with
  | nil => rfl
  | cons x l ih =>
    unfold State.actCells
    rw [h x (by simp)]
    exact ih fun y hy => h y (by simp [hy])

theorem State.actTaken_of_nothingOwed {s : State} {asid : Nat} (n : Nat) (h : s.NothingOwed asid) : s.actTaken asid n = s := by
  have hcells : ∀ x ∈ ((s.aspace? asid).map Aspace.cells).getD [], x.reply = none := by
    cases ha : s.aspace? asid with
    | none => simp
    | some a => exact h a ha
  rw [State.actTaken, State.actOwed, State.actCells_of_none _ _ _ _ hcells]

end

/-! ## The dispatcher once a cluster has left the save store -/

/-- The save store of `t` no longer holds a cluster that that of `s` holds; the caravans and the last winners are as before. -/
structure LeftStore (sv : Saved) (s t : State) : Prop where
  saved : t.disp.saved = s.disp.saved.filter (fun x => x.number != sv.number)
  caravans : t.disp.caravans = s.disp.caravans
  lastWinner : t.disp.lastWinner = s.disp.lastWinner

theorem LeftStore.headOf?_none {sv : Saved} {s t : State} {m : Nat} (h : LeftStore sv s t) (hm : s.headOf? m = none) :
    t.headOf? m = none := by
  have hcar : t.caravan m = s.caravan m := by rw [State.caravan, h.caravans]; rfl
  have hold : s.disp.saved.find? (fun x => x.cluster.caravan == m) = none := by
    unfold State.headOf? at hm
    split at hm
    · simp at hm
    · assumption
  have hnew : t.disp.saved.find? (fun x => x.cluster.caravan == m) = none := by
    rw [h.saved]
    rw [List.find?_eq_none] at hold ⊢
    exact fun x hx => hold x (List.mem_filter.mp hx).1
  rw [State.headOf?, hold] at hm
  rw [State.headOf?, hnew, hcar]
  exact hm

theorem LeftStore.headOf?_own {sv : Saved} {s t : State} {c : Nat} (h : LeftStore sv s t)
    (honly : ∀ x ∈ s.disp.saved, x.cluster.caravan = c → x.number = sv.number) (hstate : (s.caravan c).state ≠ .ready) :
    t.headOf? c = none := by
  have hcar : t.caravan c = s.caravan c := by rw [State.caravan, h.caravans]; rfl
  have hnew : t.disp.saved.find? (fun x => x.cluster.caravan == c) = none := by
    rw [h.saved, List.find?_eq_none]
    intro x hx
    obtain ⟨hin, hne⟩ := List.mem_filter.mp hx
    simp only [bne_iff_ne, ne_eq] at hne
    simpa using fun hc => hne (honly x hin hc)
  rw [State.headOf?, hnew]
  dsimp only
  split
  next hr _ _ => exact absurd (hcar ▸ hr) hstate
  next => rfl

theorem LeftStore.notMem {sv : Saved} {s t : State} (h : LeftStore sv s t) : ∀ x ∈ t.disp.saved, x.number ≠ sv.number := by
  rw [h.saved]
  intro x hx
  simpa using (List.mem_filter.mp hx).2

end Sys2Proof.Machine
end

section
/-! SUPPORT. A round that restores a saved cluster (R430, R431): the state its checks leave, and the three ways it ends. -/

namespace Sys2Proof.Machine

theorem State.nothingOwed_congr {s t : State} {asid : Nat} (h : t.disp.aspaces = s.disp.aspaces) (hs : s.NothingOwed asid) :
    t.NothingOwed asid := by
  intro a ha
  refine hs a ?_
  rw [State.aspace?, h] at ha
  exact ha

/-- The entry of a key in a table whose values are mapped. -/
theorem Table.find?_map {α β : Type} (f : Nat → α → β) (t : Table α) (k : Nat) :
    Table.find? (t.map (fun e => (e.1, f e.1 e.2))) k = (Table.find? t k).map (f k) := by
  induction t with
  | nil => rfl
  | cons e t ih =>
    by_cases he : e.1 = k
    · simp [Table.find?_cons, he]
    · simp [Table.find?_cons, he, ih]

/-- Pairs of what is pairwise related, by their first part. -/
theorem pairwise_zip {α β : Type} {R : α → α → Prop} {l : List α} (h : l.Pairwise R) (l' : List β) :
    (l.zip l').Pairwise (fun x y => R x.1 y.1) := by
  induction l generalizing l' with
  | nil => simp
  | cons a l ih =>
    obtain ⟨ha, hl⟩ := List.pairwise_cons.mp h
    cases l' with
    | nil => simp
    | cons b l' =>
      rw [List.zip_cons_cons, List.pairwise_cons]
      exact ⟨fun y hy => ha y.1 (List.of_mem_zip hy).1, ih hl l'⟩

/-! ## The checks have passed -/

/-- What a restore whose images pass their checks leaves: after the checks, regions, memory and the rest are written. -/
theorem State.restoreAt_ok {s t : State} {sv : Saved} {k : Cluster} (h : s.restoreAt sv k = .ok t) : ∃ u cfgs,
    EnergyOnly ((s.setCluster sv.number k).restoreMem sv k (tileDelta k sv.cluster)) u ∧
    t = (u.restoreRegions sv k (tileDelta k sv.cluster) cfgs).restoreRest sv k (tileDelta k sv.cluster) := by
  have hcheck := State.recheckAll_energyOnly sv.number k (k.regions.zip sv.regions)
    ((s.setCluster sv.number k).restoreMem sv k (tileDelta k sv.cluster))
  unfold State.restoreAt at h
  dsimp only at h
  split at h
  · simp at h
  · simp at h
  next u cfgs hr =>
    rw [hr] at hcheck
    exact ⟨u, cfgs, hcheck, (Recheck.ok.inj h).symm⟩

/-- What a restore writes, on a state that its checks have left. -/
theorem State.written_disp {s u : State} {sv : Saved} {k : Cluster} {d : Int}
    (hu : EnergyOnly ((s.setCluster sv.number k).restoreMem sv k d) u) (cfgs : List (List (Nat × Cfg))) :
    ∃ ba cl asp fat sems, ((u.restoreRegions sv k d cfgs).restoreRest sv k d).disp =
      { s.disp with bankAsid := ba, clusters := cl, aspaces := asp, fatal := fat, sems := sems } := by
  obtain ⟨⟨cl, hcl⟩, -⟩ := hu
  obtain ⟨m, ba, hm⟩ := (s.setCluster sv.number k).restoreMem_eq sv k d
  obtain ⟨rg, hrg⟩ := u.restoreRegions_eq sv k d cfgs
  obtain ⟨e, asp, fat, sems, hrest⟩ := (u.restoreRegions sv k d cfgs).restoreRest_eq sv k d
  refine ⟨ba, cl, asp, fat, sems, ?_⟩
  rw [hrest, hrg]
  dsimp only
  rw [hcl, hm]
  rfl

section
variable {s t : State} {sv : Saved} {rs bs : List Nat} {off : Int × Int}

/-- A restore keeps the caravans and takes its cluster from the save store. -/
theorem State.leftStore_written {u : State} {d : Int} (cfgs : List (List (Nat × Cfg)))
    (hu : EnergyOnly (((Claims.restoring s sv rs bs off).1.setCluster sv.number (Claims.restoring s sv rs bs off).2).restoreMem sv
      (Claims.restoring s sv rs bs off).2 d) u) :
    LeftStore sv s ((u.restoreRegions sv (Claims.restoring s sv rs bs off).2 d cfgs).restoreRest sv
      (Claims.restoring s sv rs bs off).2 d) := by
  obtain ⟨ba, cl, asp, fat, sems, h⟩ := State.written_disp hu cfgs
  exact ⟨by rw [h]; rfl, by rw [h]; rfl, by rw [h]; rfl⟩

/-- The cluster stands again where it asked to (R430, R431). -/
theorem State.cluster?_restored (h : (Claims.restoring s sv rs bs off).1.restoreAt sv (Claims.restoring s sv rs bs off).2 = .ok t) :
    ∃ k, t.cluster? sv.number = some k ∧ k.sansEnergy = (Claims.restoring s sv rs bs off).2.sansEnergy := by
  obtain ⟨u, cfgs, hu, rfl⟩ := State.restoreAt_ok h
  set k := (Claims.restoring s sv rs bs off).2
  set d := tileDelta k sv.cluster
  obtain ⟨m, ba, hm⟩ := ((Claims.restoring s sv rs bs off).1.setCluster sv.number k).restoreMem_eq sv k d
  obtain ⟨rg, hrg⟩ := u.restoreRegions_eq sv k d cfgs
  obtain ⟨e, asp, fat, sems, hrest⟩ := (u.restoreRegions sv k d cfgs).restoreRest_eq sv k d
  have hcluster : ((u.restoreRegions sv k d cfgs).restoreRest sv k d).cluster? sv.number = u.cluster? sv.number := by
    rw [hrest, hrg]; rfl
  have hbase : (((Claims.restoring s sv rs bs off).1.setCluster sv.number k).restoreMem sv k d).cluster? sv.number = some k := by
    rw [hm]; exact Table.find?_put_self _ _ _
  have henergy := hu.cluster sv.number
  rw [hbase, Option.map_some] at henergy
  rw [hcluster]
  exact Option.map_eq_some_iff.mp henergy

/-- No reply is owed where none was. -/
theorem State.nothingOwed_restored (howed : s.NothingOwed sv.cluster.asid)
    (h : (Claims.restoring s sv rs bs off).1.restoreAt sv (Claims.restoring s sv rs bs off).2 = .ok t) :
    t.NothingOwed sv.cluster.asid := by
  obtain ⟨u, cfgs, hu, rfl⟩ := State.restoreAt_ok h
  set k := (Claims.restoring s sv rs bs off).2
  obtain ⟨⟨cl, hcl⟩, -⟩ := hu
  obtain ⟨rg, hrg⟩ := u.restoreRegions_eq sv k (tileDelta k sv.cluster) cfgs
  refine State.nothingOwed_restoreRest sv k (tileDelta k sv.cluster) (State.nothingOwed_congr ?_ howed)
  rw [hrg]
  dsimp only
  rw [hcl]
  rfl

/-! ## The regions run again (R144, R430) -/

/-- A tile moved by nothing stays. -/
theorem moveSite_zero (n : Nat) : moveSite 0 n = n := by simp [moveSite]

/-- A site of a saved cluster under its new place and words, once it has thawed. -/
def Site.back (r : Nat) (d : Int) (cfgs : List (Nat × Cfg)) (n : Nat) (t : Site) : Site :=
  let g : Agent := { t.agent with replay := t.agent.replay.map (fun a => a.moved d r) }
  { t with
    active := t.active.map (fun l => l.under (moveSite d n) cfgs), next := t.next.map (fun l => l.under (moveSite d n) cfgs)
    op := t.op.moved d, frozen := false
    agent := if t.frozen && g.park == .running && !g.replay.isEmpty then { g with park := .replaying } else g }

theorem Region.sites_thaw_restoreRegion (n r : Nat) (d : Int) (cfgs : List (Nat × Cfg)) (old cur : Region) :
    (restoreRegion n r d cfgs old cur).thaw.sites = old.sites.map (fun e => (moveSite d e.1, e.2.back r d cfgs e.1)) := by
  show List.map _ (List.map _ _) = _
  rw [List.map_map]
  rfl

/-- A region that a restore has written and that has thawed. -/
theorem Claims.regionBack_of_eq {r : Nat} {x cur : Region} {cfgs : List (Nat × Cfg)}
    (h : t.region r = (restoreRegion sv.number r (tileDelta (Claims.restoring s sv rs bs off).2 sv.cluster) cfgs x cur).thaw) :
    Claims.RegionBack t sv off r x := by
  unfold Claims.RegionBack
  rw [h]
  refine ⟨rfl, rfl, rfl, rfl, ?_, fun hoff n => ?_⟩
  · show List.map _ (List.map _ _) = _
    rw [List.map_map]
    refine List.map_congr_left fun e _ => ?_
    dsimp only [Function.comp_apply]
    split <;> rfl
  · have hd : tileDelta (Claims.restoring s sv rs bs off).2 sv.cluster = 0 := by
      simp [tileDelta, Claims.restoring, hoff]
    have hsites := Region.sites_thaw_restoreRegion sv.number r 0 cfgs x cur
    simp only [moveSite_zero] at hsites
    rw [hd, Region.site, hsites, Table.get, Table.find?_map (Site.back r 0 cfgs), Region.site, Table.get]
    cases Table.find? x.sites n with
    | none => exact ⟨rfl, rfl, rfl, rfl⟩
    | some t => exact ⟨rfl, rfl, rfl, rfl⟩

/-- The regions of a restored cluster, thawed. -/
theorem State.regionBack_thawed (hd : rs.Pairwise (fun x y => x ≠ y))
    (h : (Claims.restoring s sv rs bs off).1.restoreAt sv (Claims.restoring s sv rs bs off).2 = .ok t) {i r : Nat} {x : Region}
    (hr : rs[i]? = some r) (hx : sv.regions[i]? = some x) {v : State}
    (hv : ∀ q, v.region q = (rs.foldl (fun s r => s.mapRegion r Region.thaw) t).region q) :
    Claims.RegionBack v sv off r x := by
  obtain ⟨u, cfgs, -, rfl⟩ := State.restoreAt_ok h
  set k := (Claims.restoring s sv rs bs off).2 with hk
  set d := tileDelta k sv.cluster with hdelta
  set more := cfgs ++ List.replicate (sv.regions.length - cfgs.length) [] with hmore
  obtain ⟨e, asp, fat, sems, hrest⟩ := (u.restoreRegions sv k d cfgs).restoreRest_eq sv k d
  obtain ⟨hi, -⟩ := List.getElem?_eq_some_iff.mp hx
  have hlen : i < more.length := by simp [hmore]; omega
  have hmem : (r, (x, more[i])) ∈ rs.zip (sv.regions.zip more) := by
    refine List.mem_iff_getElem?.mpr ⟨i, List.getElem?_zip_eq_some.mpr ⟨hr, List.getElem?_zip_eq_some.mpr ⟨hx, ?_⟩⟩⟩
    simp [hlen]
  have hdistinct : (rs.zip (sv.regions.zip more)).Pairwise (fun x y => x.1 ≠ y.1) := pairwise_zip hd _
  have hwritten := State.region_foldl_mapRegions
    (fun x : Nat × (Region × List (Nat × Cfg)) => restoreRegion sv.number x.1 d x.2.2 x.2.1) hdistinct u hmem
  refine Claims.regionBack_of_eq (rs := rs) (bs := bs) (s := s) (cfgs := more[i]) (cur := u.region r) ?_
  rw [hv, State.region_foldl_mapRegion Region.thaw_thaw, if_pos (List.mem_of_getElem? hr), hrest]
  exact congrArg Region.thaw hwritten

end

end Sys2Proof.Machine

namespace Sys2Proof.Claims

open Sys2Proof.Machine

section
variable {s : State} {c : Nat} {sv : Saved} {rs bs : List Nat}

/-- The checks of a restore at an offset. -/
def restoreOutcome (s : State) (sv : Saved) (rs bs : List Nat) (off : Int × Int) : Recheck State :=
  (restoring s sv rs bs off).1.restoreAt sv (restoring s sv rs bs off).2

/-- A cluster whose images have passed their checks, thawed. -/
def thawed (sv : Saved) (rs : List Nat) (t : State) : State :=
  (rs.foldl (fun s r => s.mapRegion r Region.thaw) t).actTaken sv.cluster.asid sv.number

/-- A cluster whose images are refused at both offsets (R431). -/
def refusedRestore (s : State) (sv : Saved) (rs bs : List Nat) : State :=
  let k := (restoring s sv rs bs (0, 0)).2
  let d := tileDelta k sv.cluster
  (((((restoring s sv rs bs (0, 0)).1.setCluster sv.number k).restoreMem sv k d).restoreRegions sv k d []).restoreRest sv k
    d).fatalFault sv.number 0x16 (rs.getD 0 0) noSite

/-- How a restore ends (R430, R431). -/
theorem restore_eq (s : State) (sv : Saved) (rs bs : List Nat) : s.restore sv rs bs =
    match restoreOutcome s sv rs bs (s.restoreOffset sv.cluster.caravan sv.cluster) with
    | .ok t => some (thawed sv rs t)
    | .waits => none
    | .rejected =>
      match restoreOutcome s sv rs bs (0, 0) with
      | .ok t => some (thawed sv rs t)
      | .waits => none
      | .rejected => some (refusedRestore s sv rs bs) := rfl

theorem State.saved_of_head (hh : s.headOf? c = some (.saved sv)) : sv.cluster.caravan = c ∧ sv ∈ s.disp.saved := by
  unfold State.headOf? at hh
  split at hh
  next x hx =>
    cases hh
    exact ⟨by simpa using List.find?_some hx, List.mem_of_find?_eq_some hx⟩
  next =>
    dsimp only at hh
    split at hh <;> simp at hh

/-- The state of a round whose restore has left `u`. -/
def roundRestored (c : Nat) (sv : Saved) (u : State) : State :=
  { u with disp := { u.disp with lastWinner := u.disp.lastWinner.setIfInBounds sv.cluster.recd.prio.toNat c } }

/-- A round that restores the one head that is ready, or meets its failure. -/
theorem round_restores {u : State} (hhead : OnlyHead s c (.saved sv)) (hstate : (s.caravan c).state ≠ .ready)
    (honly : ∀ x ∈ s.disp.saved, x.cluster.caravan = c → x.number = sv.number)
    (hfit : s.fitHead c (.saved sv) [] [] = some (rs, bs)) (hrestore : s.restore sv rs bs = some u) (hleft : LeftStore sv s u) :
    exec .arbitrationRound s = .next (roundRestored c sv u) := by
  have hhead' := hhead
  obtain ⟨hc, hprio, hh, hother⟩ := hhead'
  have hy : roundAt (Head.saved sv).recd.prio.toNat c (s, false) = (roundRestored c sv u, false) := by
    simp [roundAt, hh, hfit, hrestore, Head.recd, roundRestored]
  have hsame (m : Nat) : (roundRestored c sv u).headOf? m = u.headOf? m := State.headOf?_congr rfl rfl
  exact exec_arbitrationRound hhead hy (fun m hm hmc => (hsame m).trans (hleft.headOf?_none (hother m hm hmc)))
    (.inr (.inl ((hsame c).trans (hleft.headOf?_own honly hstate)))) (fun h => absurd h (by simp))

/-- A round whose one ready head waits for its images changes nothing (log entry 49). -/
theorem round_waits (hhead : OnlyHead s c (.saved sv)) (hfit : s.fitHead c (.saved sv) [] [] = some (rs, bs))
    (hrestore : s.restore sv rs bs = none) : exec .arbitrationRound s = .next s := by
  have hhead' := hhead
  obtain ⟨hc, hprio, hh, hother⟩ := hhead'
  have hy : roundAt (Head.saved sv).recd.prio.toNat c (s, false) = (s, false) := by
    simp [roundAt, hh, hfit, hrestore]
  exact exec_arbitrationRound hhead hy hother (.inr (.inr rfl)) (fun h => absurd h (by simp))

/-- A restore whose images pass their checks at an offset. -/
theorem restored_completes {off : Int × Int} {t : State} (hhead : OnlyHead s c (.saved sv)) (hstate : (s.caravan c).state ≠ .ready)
    (honly : ∀ x ∈ s.disp.saved, x.cluster.caravan = c → x.number = sv.number)
    (hfit : s.fitHead c (.saved sv) [] [] = some (rs, bs)) (howed : s.NothingOwed sv.cluster.asid)
    (hrestore : s.restore sv rs bs = some (thawed sv rs t)) (hok : restoreOutcome s sv rs bs off = .ok t)
    (hd : rs.Pairwise (fun x y => x ≠ y)) :
    Completes .arbitrationRound s fun t =>
      (∃ k, t.cluster? sv.number = some k ∧ k.regions = rs ∧ k.banks = bs ∧ (k.dx, k.dy) = off ∧ k.recd = sv.cluster.recd ∧
        k.asid = sv.cluster.asid ∧ k.caravan = sv.cluster.caravan ∧ k.snapCount = sv.cluster.snapCount ∧
        k.barArrived = sv.cluster.barArrived ∧ k.barGen = sv.cluster.barGen) ∧
      (∀ x ∈ t.disp.saved, x.number ≠ sv.number) ∧ t.disp.lastWinner.toList.getD sv.cluster.recd.prio.toNat 0 = c ∧
      ∀ (i r : Nat) (x : Region), rs[i]? = some r → sv.regions[i]? = some x → RegionBack t sv off r x := by
  obtain ⟨rg, hrg⟩ := State.foldl_mapRegion_eq Region.thaw rs t
  have hthawed : thawed sv rs t = rs.foldl (fun s r => s.mapRegion r Region.thaw) t := by
    refine State.actTaken_of_nothingOwed _ (State.nothingOwed_congr (s := t) (by rw [hrg]) ?_)
    exact State.nothingOwed_restored howed hok
  have hleft : LeftStore sv s t := by
    obtain ⟨u, cfgs, hu, rfl⟩ := State.restoreAt_ok hok
    exact State.leftStore_written cfgs hu
  have hleft' : LeftStore sv s (thawed sv rs t) := by
    obtain ⟨h1, h2, h3⟩ := hleft
    rw [hthawed, hrg]
    exact ⟨h1, h2, h3⟩
  obtain ⟨k, hk, henergy⟩ := State.cluster?_restored hok
  have hcluster : (roundRestored c sv (thawed sv rs t)).cluster? sv.number = some k := by
    rw [← hk, roundRestored, hthawed, hrg]; rfl
  have hfield {α : Type} (f : Cluster → α) (hf : ∀ k, f k = f k.sansEnergy) : f k = f (restoring s sv rs bs off).2 := by
    rw [hf, henergy, ← hf]
  refine ⟨_, round_restores hhead hstate honly hfit hrestore hleft', ⟨k, hcluster, ?_, ?_, ?_, ?_, ?_, ?_, ?_, ?_, ?_⟩,
    hleft'.notMem, getD_lastWinner _ _ hhead.2.1, fun i r x hr hx => ?_⟩
  · exact hfield Cluster.regions fun _ => rfl
  · exact hfield Cluster.banks fun _ => rfl
  · exact hfield (fun k => (k.dx, k.dy)) fun _ => rfl
  · exact hfield Cluster.recd fun _ => rfl
  · exact hfield Cluster.asid fun _ => rfl
  · exact hfield Cluster.caravan fun _ => rfl
  · exact hfield Cluster.snapCount fun _ => rfl
  · exact hfield Cluster.barArrived fun _ => rfl
  · exact hfield Cluster.barGen fun _ => rfl
  · exact State.regionBack_thawed hd hok hr hx fun q => by rw [← hthawed]; rfl

/-- A restore whose images are refused at both offsets meets RESTORE_FAILED (R431). -/
theorem refused_completes (hhead : OnlyHead s c (.saved sv)) (hstate : (s.caravan c).state ≠ .ready)
    (honly : ∀ x ∈ s.disp.saved, x.cluster.caravan = c → x.number = sv.number)
    (hfit : s.fitHead c (.saved sv) [] [] = some (rs, bs)) (hrestore : s.restore sv rs bs = some (refusedRestore s sv rs bs)) :
    Completes .arbitrationRound s fun t => ∃ f ∈ t.disp.fatal, f.cluster = sv.number ∧ f.cls = 0x16#8 := by
  obtain ⟨h1, h2, h3⟩ := State.leftStore_written (s := s) (sv := sv) (rs := rs) (bs := bs) (off := (0, 0))
    (d := tileDelta (restoring s sv rs bs (0, 0)).2 sv.cluster) [] (EnergyOnly.refl _)
  have hleft : LeftStore sv s (refusedRestore s sv rs bs) := ⟨h1, h2, h3⟩
  exact ⟨_, round_restores hhead hstate honly hfit hrestore hleft, _, List.mem_append_right _ (List.mem_singleton.mpr rfl),
    rfl, rfl⟩

end

end Sys2Proof.Claims

namespace Sys2Proof.Proofs

open Sys2Proof.Machine Sys2Proof.Claims

/-- Settles O44: a round whose one ready head is a new launch that fits, a head that does not fit, one that pre-empts, or a saved
cluster, each by what its turn leaves. -/
theorem arbitrationPlaces : Obligations.ArbitrationPlaces := by
  refine ⟨fun s c l h hhead => ⟨fun rs bs hfit => placed_completes hhead hfit, fun hfit hpre hlive => ?_⟩,
    fun s c h hhead hfit hpre hunder hsorted hlive => preempts_completes hhead hfit hpre hunder hsorted hlive, ?_⟩
  · exact ⟨s, blocked_completes hhead hfit hpre hlive, rfl⟩
  · intro s c sv rs bs hhead hstate honly hfit howed at' asked
    have hcar : sv.cluster.caravan = c := (State.saved_of_head hhead.2.2.1).1
    have hrestore := restore_eq s sv rs bs
    rw [hcar] at hrestore
    refine ⟨fun off t hoff hok hd => ?_, fun hasked hzero => ?_, fun hasked => ?_⟩
    · refine restored_completes hhead hstate honly hfit howed ?_ hok hd
      obtain rfl | ⟨rfl, hasked⟩ := hoff
      · exact hrestore.trans (by rw [show restoreOutcome s sv rs bs (s.restoreOffset c sv.cluster) = .ok t from hok])
      · rw [show restoreOutcome s sv rs bs (s.restoreOffset c sv.cluster) = .rejected from hasked,
          show restoreOutcome s sv rs bs (0, 0) = .ok t from hok] at hrestore
        exact hrestore
    · rw [show restoreOutcome s sv rs bs (s.restoreOffset c sv.cluster) = .rejected from hasked,
        show restoreOutcome s sv rs bs (0, 0) = .rejected from hzero] at hrestore
      exact refused_completes hhead hstate honly hfit hrestore
    · rw [show restoreOutcome s sv rs bs (s.restoreOffset c sv.cluster) = .waits from hasked] at hrestore
      exact ⟨s, round_waits hhead hfit hrestore, rfl⟩

end Sys2Proof.Proofs
end

section
/-! SUPPORT. Lotar links (R132, R447, R454): the frame that a link sends, the training of a link, and its loss. -/

namespace Sys2Proof.Machine

/-! ## Tables in ascending order -/

theorem Table.pairwise_put {α : Type} {t : Table α} (h : t.Pairwise (fun a b => a.1 < b.1)) (k : Nat) (v : α) :
    (Table.put t k v).Pairwise (fun a b => a.1 < b.1) := by
  induction t with
  | nil => simp [Table.put]
  | cons e t ih =>
    obtain ⟨he, ht⟩ := List.pairwise_cons.mp h
    unfold Table.put
    split
    next hlt =>
      refine List.pairwise_cons.mpr ⟨fun x hx => ?_, h⟩
      obtain rfl | hx := List.mem_cons.mp hx
      · exact hlt
      · exact hlt.trans (he x hx)
    next hge =>
      split
      next heq => exact List.pairwise_cons.mpr ⟨fun x hx => heq ▸ he x hx, ht⟩
      next hne =>
        refine List.pairwise_cons.mpr ⟨fun x hx => ?_, ih ht⟩
        obtain rfl | hx := Table.mem_put hx
        · show e.1 < k
          omega
        · exact he x hx

/-- An entry of a table in order in which one has been written. -/
theorem Table.mem_put_sorted {α : Type} {t : Table α} (h : t.Pairwise (fun a b => a.1 < b.1)) {k : Nat} {v : α} {e : Nat × α}
    (he : e ∈ Table.put t k v) : e = (k, v) ∨ (e ∈ t ∧ e.1 ≠ k) := by
  have hput := Table.find?_of_mem ((Table.pairwise_put h k v).imp Nat.ne_of_lt) he
  by_cases hk : e.1 = k
  · rw [hk, Table.find?_put_self] at hput
    exact .inl (Prod.ext hk (Option.some.inj hput).symm)
  · exact .inr ⟨(Table.mem_put he).resolve_left fun h => hk (by rw [h]), hk⟩

/-! ## A frame that is sent (R132) -/

/-- A link that has sent one frame more; one whose counter wraps carries nothing more. -/
def Link.sent (l : Link) : Link := { l with ivOut := l.ivOut + 1#96, trained := l.ivOut + 1#96 != 0#96 }

/-- The links of `t` once a frame has gone to a member over those of `s`: over the first that leads there, if any. -/
def SendsOver (m : Nat) (s t : Table Link) : Prop :=
  ((∀ e ∈ s, e.2.leadsTo m = false) ∧ t = s) ∨
  ∃ k l, Table.find? s k = some l ∧ l.leadsTo m = true ∧ t = Table.put s k l.sent

theorem State.stepIv_sent (s : State) (m : Nat) (h : s.sec.links.Pairwise (fun a b => a.1 < b.1)) : ∃ links g,
    s.stepIv m true = { s with sec := { s.sec with links := links }, agenda := g } ∧ SendsOver m s.sec.links links := by
  unfold State.stepIv
  split
  next hnone =>
    refine ⟨s.sec.links, s.agenda, rfl, .inl ⟨fun e he => ?_, rfl⟩⟩
    simpa using List.find?_eq_none.mp hnone e he
  next n l hsome =>
    have hfind := Table.find?_of_mem (h.imp Nat.ne_of_lt) (List.mem_of_find?_eq_some hsome)
    exact ⟨_, _, rfl, .inr ⟨n, l, hfind, by simpa using List.find?_some hsome, rfl⟩⟩

section
variable {m : Nat} {s t : Table Link}

theorem SendsOver.pairwise (h : SendsOver m s t) (hs : s.Pairwise (fun a b => a.1 < b.1)) :
    t.Pairwise (fun a b => a.1 < b.1) := by
  obtain ⟨-, rfl⟩ | ⟨k, l, -, -, rfl⟩ := h
  · exact hs
  · exact Table.pairwise_put hs _ _

/-- A link that leads elsewhere is as it was. -/
theorem SendsOver.find?_eq (h : SendsOver m s t) {k : Nat} (hk : ∀ x, Table.find? s k = some x → x.leadsTo m = false) :
    Table.find? t k = Table.find? s k := by
  obtain ⟨-, rfl⟩ | ⟨k', l, hl, hlead, rfl⟩ := h
  · rfl
  · refine Table.find?_put_ne _ _ fun hkk => ?_
    subst hkk
    rw [hk l hl] at hlead
    exact absurd hlead (by simp)

/-- A link has sent a frame, or not. -/
theorem SendsOver.find?_sent (h : SendsOver m s t) {k : Nat} {l : Link} (hl : Table.find? s k = some l) :
    Table.find? t k = some l ∨ Table.find? t k = some l.sent := by
  obtain ⟨-, rfl⟩ | ⟨k', l', hl', -, rfl⟩ := h
  · exact .inl hl
  · by_cases hk : k = k'
    · subst hk
      rw [hl] at hl'
      cases hl'
      exact .inr (Table.find?_put_self _ _ _)
    · exact .inl ((Table.find?_put_ne _ _ hk).trans hl)

end

/-! ## Alerts -/

/-- An alert changes ALERT_PEND and the management core's pending events (R447). -/
theorem State.raiseAlert_eq (s : State) (b : Nat) : ∃ e, s.raiseAlert b =
    { s with mcr := { s.mcr with alertPend := s.mcr.alertPend ||| (1#4 <<< b) }, mc := { s.mc with evtPend := e } } := by
  unfold State.raiseAlert
  dsimp only
  split
  · exact ⟨s.mc.evtPend, rfl⟩
  · exact ⟨_, rfl⟩

/-! ## A link trains (R132, R454) -/

/-- The link that an exchange of fresh keys with a peer gives. -/
def State.freshLink (s : State) (p : LotarPeer) : Link :=
  let e := (Config.freshScalar s.free).toNat % (n384 - 1) + 1
  let qe := pointBytes (scalarMul e (some g384))
  let z := beNat ((pointBytes (scalarMul e (some (p.freshX.toNat, p.freshY.toNat)))).take 48)
  { trained := true, member := p.member, beyond := p.beyond
    keyHash := vec384 (sha384 (pointBytes (some (p.keyX.toNat, p.keyY.toNat)))), offered := qe ++ (s.nextFree.sign qe).2
    keyOut := Config.linkKey z s.member p.member, keyIn := Config.linkKey z p.member s.member, ivOut := 0#96, ivIn := 0#96 }

theorem State.exchange_eq (s : State) (n : Nat) (p : LotarPeer) : s.exchange n p =
    { s with free := s.free + 1 + 1, sec := { s.sec with links := Table.put s.sec.links n (s.freshLink p) } } := rfl

/-- What the peer has not been credited with (R454). -/
def State.uncredited (s : State) (p : LotarPeer) : Nat := (Table.get s.pow.sent p.member 0#64 - BitVec.ofNat 64 p.cred).toNat

/-- What a link's training leaves (R132, R447, R454). -/
theorem State.train_good {s : State} {n : Nat} {p : LotarPeer} (hn : n < 36) (hgood : peerGood p = true)
    (h : s.sec.links.Pairwise (fun a b => a.1 < b.1)) : ∃ links g e,
    s.train n p = { s with
      free := s.free + 1 + 1, agenda := g, sec := { s.sec with links := links }, mc := { s.mc with evtPend := e }
      mcr := { s.mcr with
        budget := s.mcr.budget + min (s.uncredited p) (560 - s.mcr.budget), alertPend := s.mcr.alertPend ||| 8#4 }
      pow := { s.pow with
        sent := Table.put s.pow.sent p.member
          (BitVec.ofNat 64 (p.cred + (s.uncredited p - min (s.uncredited p) (560 - s.mcr.budget))))
        sideband := (p.member, [Table.get s.pow.cred p.member 0#64]) :: s.pow.sideband } } ∧
    SendsOver p.member (Table.put s.sec.links n (s.freshLink p)) links := by
  have htrain : s.train n p = ((s.exchange n p).reconcile p.member p.cred).raiseAlert 3 := by
    rw [State.train, if_neg (by omega), if_pos hgood]
  rw [htrain, State.exchange_eq, State.reconcile, State.sideSend]
  obtain ⟨links, g, hstep, hsend⟩ := State.stepIv_sent
    { s with
      free := s.free + 1 + 1, sec := { s.sec with links := Table.put s.sec.links n (s.freshLink p) }
      mcr := { s.mcr with budget := s.mcr.budget + min (s.uncredited p) (560 - s.mcr.budget) }
      pow := { s.pow with
        sent := Table.put s.pow.sent p.member
          (BitVec.ofNat 64 (p.cred + (s.uncredited p - min (s.uncredited p) (560 - s.mcr.budget)))) } } p.member
    (Table.pairwise_put h _ _)
  obtain ⟨e, he⟩ := State.raiseAlert_eq
    { s with
      free := s.free + 1 + 1, agenda := g, sec := { s.sec with links := links }
      mcr := { s.mcr with budget := s.mcr.budget + min (s.uncredited p) (560 - s.mcr.budget) }
      pow := { s.pow with
        sent := Table.put s.pow.sent p.member
          (BitVec.ofNat 64 (p.cred + (s.uncredited p - min (s.uncredited p) (560 - s.mcr.budget))))
        sideband := (p.member, [Table.get s.pow.cred p.member 0#64]) :: s.pow.sideband } } 3
  refine ⟨links, g, e, ?_, hsend⟩
  refine Eq.trans ?_ he
  exact congrArg (fun u : State => State.raiseAlert { u with pow := { u.pow with
    sideband := (p.member, [Table.get s.pow.cred p.member 0#64]) :: u.pow.sideband } } 3) hstep

end Sys2Proof.Machine
end

section
/-! SUPPORT. The SRAM as numbers (R449), the loss of a Lotar link (R447, R452), and the links of the control ports (R103, R109). -/

namespace Sys2Proof.Machine

/-! ## Numbers in the SRAM -/

theorem Memory.readAll_congr {m m' : List Host.Cell} {a n : Nat}
    (h : ∀ x, a ≤ x → x < a + n → Memory.read m' x = Memory.read m x) : Memory.readAll m' a n = Memory.readAll m a n := by
  induction n generalizing a with
  | zero => rfl
  | succ n ih =>
    rw [Memory.readAll, Memory.readAll, h a (by omega) (by omega), ih fun x hx hx' => h x (by omega) (by omega)]

theorem State.sramNat_congr {s t : State} {a n : Nat}
    (h : ∀ x, a ≤ x → x < a + n → t.mem.byte (.sram x) = s.mem.byte (.sram x)) : t.sramNat a n = s.sramNat a n :=
  congrArg leNat (Memory.readAll_congr h)

section
variable (s : State) (a n v : Nat) (h : Memory.wf s.mem.sram = true)
include h

theorem State.wf_sram_setSram : Memory.wf (s.setSram a n v).mem.sram = true := Memory.wf_writeAll _ _ h

theorem State.byte_setSram {x : Nat} (hx : x < a ∨ a + n ≤ x) :
    (s.setSram a n v).mem.byte (.sram x) = s.mem.byte (.sram x) := by
  refine (Memory.read_writeAll a x _ h).trans (if_neg ?_)
  rw [length_leBytes]
  omega

theorem State.sramNat_setSram_self : (s.setSram a n v).sramNat a n = v % 256 ^ n := by
  have hread := Memory.readAll_writeAll a (leBytes n v) h
  rw [length_leBytes] at hread
  exact (congrArg leNat hread).trans (leNat_leBytes n v)

theorem State.sramNat_setSram_ne {b k : Nat} (hb : b + k ≤ a ∨ a + n ≤ b) : (s.setSram a n v).sramNat b k = s.sramNat b k :=
  State.sramNat_congr fun x hx hx' => s.byte_setSram a n v h (by omega)

end

/-! ## A give that ends, and a link that is lost (R447, R452) -/

/-- The power block once a give has a result (R451): GRES holds it and GO is clear. -/
def State.gaveResult (s : State) (res : Nat) : State :=
  (s.setSram (powerBlock + 24) 8 res).setSram (powerBlock + 16) 8
    (s.sramNat (powerBlock + 16) 8 - s.sramNat (powerBlock + 16) 8 % 2)

theorem State.gaveResult_eq (s : State) (res : Nat) : ∃ m, s.gaveResult res = { s with mem := m } := ⟨_, rfl⟩

/-- What the end of a give leaves. -/
theorem State.endGive_eq (s : State) (res : Nat) : ∃ e, s.endGive res = { s with
    mem := (s.gaveResult res).mem, pow := { s.pow with giving := none }
    mcr := { s.mcr with alertPend := s.mcr.alertPend ||| 4#4 }, mc := { s.mc with evtPend := e } } := by
  obtain ⟨m, hm⟩ := s.gaveResult_eq res
  obtain ⟨e, he⟩ := State.raiseAlert_eq { s with mem := m, pow := { s.pow with giving := none } } 2
  have hend : s.endGive res =
      State.raiseAlert { s.gaveResult res with pow := { (s.gaveResult res).pow with giving := none } } 2 := rfl
  rw [hm] at hend
  rw [hm]
  exact ⟨e, hend.trans he⟩

theorem State.loseGive_of_none {s : State} (h : s.pow.giving = none) : s.loseGive = s := by simp [State.loseGive, h]

/-- A link that is lost (R447), before a give that waited on it is. -/
theorem State.dropLink_eq {s : State} {n : Nat} {l : Link} (hl : Table.find? s.sec.links n = some l) (ht : l.trained = true) :
    ∃ e, s.dropLink n = ({ s with
      sec := { s.sec with links := Table.put s.sec.links n { l with trained := false } }
      mcr := { s.mcr with alertPend := s.mcr.alertPend ||| 8#4 }, mc := { s.mc with evtPend := e } } : State).loseGive := by
  obtain ⟨e, he⟩ := (s.setLink n { l with trained := false }).raiseAlert_eq 3
  refine ⟨e, ?_⟩
  rw [State.dropLink, hl]
  dsimp only
  rw [if_pos ht, he]
  rfl

/-- The link of a peer that is not trained, where nothing waits on it. -/
theorem State.dropLink_links {s : State} (n : Nat) (hg : s.pow.giving = none) : (s.dropLink n).mem = s.mem ∧
    Table.find? (s.dropLink n).sec.links n = (Table.find? s.sec.links n).map (fun l => { l with trained := false }) ∧
    ∀ k, k ≠ n → Table.find? (s.dropLink n).sec.links k = Table.find? s.sec.links k := by
  cases hl : Table.find? s.sec.links n with
  | none => rw [State.dropLink, hl]; exact ⟨rfl, hl, fun _ _ => rfl⟩
  | some l =>
    cases ht : l.trained with
    | true =>
      obtain ⟨e, he⟩ := State.dropLink_eq hl ht
      rw [he.trans (State.loseGive_of_none hg)]
      exact ⟨rfl, Table.find?_put_self _ _ _, fun k hk => Table.find?_put_ne _ _ hk⟩
    | false =>
      have hsame : s.dropLink n = s := by rw [State.dropLink, hl]; exact if_neg (by simp [ht])
      have hl' : ({ l with trained := false } : Link) = l := by rw [← ht]
      rw [hsame, hl, Option.map_some, hl']
      exact ⟨rfl, rfl, fun _ _ => rfl⟩

end Sys2Proof.Machine

namespace Sys2Proof.Claims

open Sys2Proof.Machine

section
variable {s : State} {n : Nat} {peer : LotarPeer}

/-- Training links the two members (R132, R447, R454). -/
theorem linkTrained_train (hn : n < 36) (hgood : peerGood peer = true) (h : s.sec.links.Pairwise (fun a b => a.1 < b.1))
    (hbudget : s.mcr.budget ≤ 560) : LinkTrained s (s.train n peer) n peer := by
  obtain ⟨links, g, e, heq, hsend⟩ := State.train_good hn hgood h
  have hdue : s.uncredited peer = (Table.get s.pow.sent peer.member 0#64 - BitVec.ofNat 64 peer.cred).toNat := rfl
  have hown : Table.find? links n = some (s.freshLink peer) ∨ Table.find? links n = some (s.freshLink peer).sent :=
    hsend.find?_sent (Table.find?_put_self _ _ _)
  have hback : s.uncredited peer - min (s.uncredited peer) (560 - s.mcr.budget) = s.mcr.budget + s.uncredited peer - 560 := by
    omega
  unfold LinkTrained
  dsimp only
  rw [heq, ← hdue]
  refine ⟨rfl, rfl, ?_, fun k hk hlead => ?_, rfl, ?_, ?_⟩
  · obtain hl | hl := hown
    · exact ⟨_, _, hl, rfl, rfl, rfl, rfl, rfl, rfl, rfl, .inl rfl⟩
    · exact ⟨_, _, hl, rfl, rfl, rfl, rfl, rfl, rfl, rfl, .inr rfl⟩
  · have hput := Table.find?_put_ne s.sec.links (s.freshLink peer) hk
    exact (hsend.find?_eq fun x hx => hlead x (hput.symm.trans hx)).trans hput
  · show s.mcr.budget + _ = _
    omega
  · rw [← hback]
    exact Table.get_put_self _ _ _ _

/-- The loss of a link on which a give waits (R452). -/
theorem linkDown_losesGive {l : Link} {m count : Nat} (hl : Table.find? s.sec.links n = some l) (ht : l.trained = true)
    (hg : s.pow.giving = some (m, count)) (hother : ¬OtherLink s n m)
    (h : s.sec.links.Pairwise (fun a b => a.1 < b.1)) (hwf : s.mem.wf = true) :
    (s.dropLink n).pow.giving = none ∧ (s.dropLink n).sramNat 0x1FFB18 8 = 6 ∧ (s.dropLink n).mcr.budget = s.mcr.budget := by
  obtain ⟨e, he⟩ := State.dropLink_eq hl ht
  set u : State := { s with
    sec := { s.sec with links := Table.put s.sec.links n { l with trained := false } }
    mcr := { s.mcr with alertPend := s.mcr.alertPend ||| 8#4 }, mc := { s.mc with evtPend := e } } with hu
  have hlost : u.reachable m = false := by
    refine List.any_eq_false.mpr fun x hx hlead => ?_
    obtain rfl | ⟨hin, hne⟩ := Table.mem_put_sorted h hx
    · simp [Link.leadsTo] at hlead
    · exact hother ⟨x, hne, hin, hlead⟩
  have hlose : u.loseGive = u.endGive 6 := by
    have hgiving : u.pow.giving = some (m, count) := hg
    rw [State.loseGive, hgiving]
    exact if_neg (by simp [hlost])
  have hsram : Memory.wf u.mem.sram = true := Mems.wf_list hwf (.sram 0)
  obtain ⟨e', he'⟩ := u.endGive_eq 6
  rw [he, hlose, he']
  refine ⟨rfl, ?_, rfl⟩
  have hwf1 := u.wf_sram_setSram (powerBlock + 24) 8 6 hsram
  refine ((u.setSram (powerBlock + 24) 8 6).sramNat_setSram_ne (powerBlock + 16) 8 _ hwf1 (b := 0x1FFB18) (k := 8) ?_).trans ?_
  · exact .inr (by decide)
  · exact u.sramNat_setSram_self (powerBlock + 24) 8 6 hsram

end

end Sys2Proof.Claims
end

section
/-! SUPPORT. The links of the control ports and their chains (R103, R109, R121, R433), and GROUP_SET (R360): LinksAndGroupSet. -/

namespace Sys2Proof.Machine

/-! ## The chains' reads -/

/-- Two states that differ in the dispatcher and in the reads that are posted. -/
def ChainsMoved (s t : State) : Prop := ∃ d l, t = { s with disp := d, ports := { s.ports with reads := l } }

theorem ChainsMoved.trans {s t u : State} (h : ChainsMoved s t) (h' : ChainsMoved t u) : ChainsMoved s u := by
  obtain ⟨d, l, rfl⟩ := h
  obtain ⟨d', l', rfl⟩ := h'
  exact ⟨d', l', rfl⟩

theorem ChainsMoved.mem_eq {s t : State} (h : ChainsMoved s t) : t.mem = s.mem := by
  obtain ⟨d, l, rfl⟩ := h
  rfl

theorem State.askGranules_disp (s : State) (rd : Reader) (va g : Nat) : (s.askGranules rd va g).disp = s.disp := by
  obtain ⟨l, h⟩ := State.askGranules_eq g s rd va
  rw [h]

section
variable (s : State) (p q : PortId) (c : ChainId) (cell : W64)

theorem State.chainsMoved_postCommand : ChainsMoved s (s.postCommand p cell) := by
  obtain ⟨l, h⟩ := State.askGranules_eq 1 (s.setPort p { s.port p with cmd := some cell }) (.command p) cell.toNat
  exact ⟨_, l, h⟩

theorem State.chainsMoved_postSecurity : ChainsMoved s (s.postSecurity p cell) := by
  obtain ⟨l, h⟩ := State.askGranules_eq 2 (s.setPort p { s.port p with sec := some cell }) (.security p) cell.toNat
  exact ⟨_, l, h⟩

theorem State.chainsMoved_postReadback : ChainsMoved s (s.postReadback c cell) := by
  obtain ⟨l, h⟩ := State.askGranules_eq 1 (s.setChain c { s.disp.chain c with cell := some cell }) (.readback c) cell.toNat
  exact ⟨_, l, h⟩

theorem State.port_setPort_self (x : Port) : (s.setPort p x).port p = x := Disp.port_setPort_self _ _ _

theorem State.port_postCommand_self : (s.postCommand p cell).port p = { s.port p with cmd := some cell } := by
  rw [State.port, State.postCommand, State.askGranules_disp]
  exact State.port_setPort_self _ _ _

theorem State.port_postCommand_ne (h : q ≠ p) : (s.postCommand p cell).port q = s.port q := by
  rw [State.port, State.postCommand, State.askGranules_disp]
  exact Disp.port_setPort_ne _ _ h

theorem State.port_postSecurity_self : (s.postSecurity p cell).port p = { s.port p with sec := some cell } := by
  rw [State.port, State.postSecurity, State.askGranules_disp]
  exact State.port_setPort_self _ _ _

theorem State.port_postSecurity_ne (h : q ≠ p) : (s.postSecurity p cell).port q = s.port q := by
  rw [State.port, State.postSecurity, State.askGranules_disp]
  exact Disp.port_setPort_ne _ _ h

theorem State.port_postReadback : (s.postReadback c cell).port p = s.port p := by
  rw [State.port, State.postReadback, State.askGranules_disp]
  cases c <;> rfl

end

theorem State.cellEmpty_congr {s t : State} (hmcr : t.mcr = s.mcr) (hmem : t.mem = s.mem) (va : W64) :
    t.cellEmpty va = s.cellEmpty va := by
  rw [State.cellEmpty, State.cellEmpty, State.as0Place_congr hmcr, hmem]

end Sys2Proof.Machine

namespace Sys2Proof.Claims

open Sys2Proof.Machine

/-! ## Events of the management core -/

theorem exec_linkDown (p : PortId) (s : State) : exec (.linkDown p) s = execLinkDown p s := rfl

theorem exec_linkUp (p : PortId) (s : State) : exec (.linkUp p) s = execLinkUp p s := rfl

theorem exec_groupSetWrite (bits : BitVec 576) (s : State) : exec (.groupSetWrite bits) s = execGroupSetWrite bits s := rfl

/-! ## The links of the control ports (R103, R109) -/

/-- A port's semaphores are free once its link is down. -/
theorem linkDown_completes (s : State) (p : PortId) (hrun : s.mc.run ≠ .stopped) (hw : ∀ e ∈ s.disp.sems, e.2.waiters = []) :
    Completes (.linkDown p) s fun t => t.mem = s.mem ∧ (t.port p).up = false ∧
      (∀ m, (t.sem m).heldBy (portHolder p) = false) ∧
      ∀ m, (∀ e ∈ s.disp.sems, e.1 = m → e.2.heldBy (portHolder p) = false) → t.sem m = s.sem m := by
  obtain ⟨sems, heq, hfree, hkept⟩ := State.releaseAll_eq (portHolder p) hw
  have hsem (x : Port) (m : Nat) : ((s.releaseAll (portHolder p)).setPort p x).sem m = (s.releaseAll (portHolder p)).sem m := by
    cases p <;> rfl
  refine ⟨_, (exec_linkDown p s).trans (byMc_not_stopped hrun), ?_, ?_, fun m => ?_, fun m hm => ?_⟩
  · rw [heq]; rfl
  · exact congrArg Port.up (State.port_setPort_self _ _ _)
  · rw [hsem]
    by_cases hheld : s.Holds (portHolder p) m
    · rw [hfree m hheld]
      simp [Sem.heldBy, Sem.free, Ne.symm (portHolder_ne_free p)]
    · rw [hkept m hheld]
      exact State.sem_heldBy_of_not_holds (portHolder_ne_free p) hheld
  · rw [hsem]
    refine hkept m fun ⟨e, he, hem, hheld⟩ => ?_
    rw [hm e he hem] at hheld
    exact absurd hheld (by simp)

/-- A stopped command chain goes on at its first cell if that is EMPTY; the other chains leave it as it is. -/
theorem linkUp_completes (s : State) (p : PortId) (hrun : s.mc.run ≠ .stopped) :
    Completes (.linkUp p) s fun t => t.mem = s.mem ∧ (t.port p).up = true ∧
      (t.port p).cmd = (if (s.port p).cmd = none ∧ s.cellEmpty (firstCommand p) = true then some (firstCommand p)
        else (s.port p).cmd) := by
  set s0 := s.setPort p { s.port p with up := true } with hs0
  have hport0 : s0.port p = { s.port p with up := true } := State.port_setPort_self _ _ _
  have hempty : s0.cellEmpty (firstCommand p) = s.cellEmpty (firstCommand p) := State.cellEmpty_congr rfl rfl _
  set s1 := if (s0.port p).cmd.isNone && s0.cellEmpty (firstCommand p) then s0.postCommand p (firstCommand p) else s0 with hs1
  set s2 := if (s1.port p).sec.isNone && s1.cellEmpty (firstSecurity p) then s1.postSecurity p (firstSecurity p) else s1 with hs2
  set s3 := if (s2.disp.chain (portChain p)).cell.isNone && s2.cellEmpty (firstReadback (portChain p)) then
    s2.postReadback (portChain p) (firstReadback (portChain p)) else s2 with hs3
  have h1 : s1.mem = s.mem ∧ (s1.port p).up = true ∧
      (s1.port p).cmd = (if (s.port p).cmd = none ∧ s.cellEmpty (firstCommand p) = true then some (firstCommand p)
        else (s.port p).cmd) := by
    rw [hs1, hempty, hport0]
    by_cases hgo : (s.port p).cmd = none ∧ s.cellEmpty (firstCommand p) = true
    · rw [if_pos (by simp [hgo]), if_pos hgo, State.port_postCommand_self, hport0]
      exact ⟨(State.chainsMoved_postCommand _ _ _).mem_eq, rfl, rfl⟩
    · rw [if_neg (by simpa using hgo), if_neg hgo, hport0]
      exact ⟨rfl, rfl, rfl⟩
  have h2 : s2.mem = s1.mem ∧ (s2.port p).up = (s1.port p).up ∧ (s2.port p).cmd = (s1.port p).cmd := by
    rw [hs2]
    split
    · rw [State.port_postSecurity_self]
      exact ⟨(State.chainsMoved_postSecurity _ _ _).mem_eq, rfl, rfl⟩
    · exact ⟨rfl, rfl, rfl⟩
  have h3 : s3.mem = s2.mem ∧ s3.port p = s2.port p := by
    rw [hs3]
    split
    · exact ⟨(State.chainsMoved_postReadback _ _ _).mem_eq, State.port_postReadback _ _ _ _⟩
    · exact ⟨rfl, rfl⟩
  obtain ⟨hmem1, hup1, hcmd1⟩ := h1
  obtain ⟨hmem2, hup2, hcmd2⟩ := h2
  obtain ⟨hmem3, hport3⟩ := h3
  refine ⟨s3, (exec_linkUp p s).trans (byMc_not_stopped hrun), hmem3.trans (hmem2.trans hmem1), ?_, ?_⟩
  · rw [hport3, hup2, hup1]
  · rw [hport3, hcmd2, hcmd1]

/-! ## Lotar links (R132, R447, R452, R454) -/

theorem linkTrain_completes (s : State) (n : Nat) (peer : LotarPeer) (hn : n < 36)
    (h : s.sec.links.Pairwise (fun a b => a.1 < b.1)) (hbudget : s.mcr.budget ≤ 560) :
    (peerGood peer = true → Completes (.linkTrain n peer) s fun t => LinkTrained s t n peer) ∧
    (peerGood peer = true → ∀ l, Table.find? s.sec.links n = some l → l.trained = true →
      Table.find? s.lotar n = some peer → Completes (.linkRekey n) s fun t => LinkTrained s t n peer) ∧
    (peerGood peer = false → s.pow.giving = none → Completes (.linkTrain n peer) s fun t => t.mem = s.mem ∧
      Table.find? t.sec.links n = (Table.find? s.sec.links n).map (fun l => { l with trained := false }) ∧
      ∀ k, k ≠ n → Table.find? t.sec.links k = Table.find? s.sec.links k) := by
  refine ⟨fun hgood => ⟨_, rfl, linkTrained_train hn hgood h hbudget⟩, fun hgood l hl ht hpeer => ?_, fun hbad hg => ?_⟩
  · refine ⟨_, ?_, linkTrained_train hn hgood h hbudget⟩
    show execLinkRekey n s = _
    rw [execLinkRekey, hl, hpeer]
    exact congrArg Host.Outcome.next (if_pos ht)
  · have htrain : s.train n peer = s.dropLink n := by
      rw [State.train, if_neg (by omega), if_neg (by simp [hbad])]
    exact ⟨s.dropLink n, congrArg Host.Outcome.next htrain, State.dropLink_links n hg⟩

theorem lotarLinkDown_completes (s : State) (n : Nat) (l : Link) (hl : Table.find? s.sec.links n = some l)
    (ht : l.trained = true) :
    (s.pow.giving = none → Completes (.lotarLinkDown n) s fun t => t.mem = s.mem ∧
      Table.find? t.sec.links n = some { l with trained := false } ∧ t.mcr.alertPend = s.mcr.alertPend ||| 8#4) ∧
    ∀ m count, s.pow.giving = some (m, count) → l.leadsTo m = true → ¬OtherLink s n m →
      s.sec.links.Pairwise (fun a b => a.1 < b.1) → s.mem.wf = true →
      Completes (.lotarLinkDown n) s fun t => t.pow.giving = none ∧ t.sramNat 0x1FFB18 8 = 6 ∧ t.mcr.budget = s.mcr.budget := by
  refine ⟨fun hg => ⟨s.dropLink n, rfl, ?_⟩, fun m count hg _ hother h hwf =>
    ⟨s.dropLink n, rfl, linkDown_losesGive hl ht hg hother h hwf⟩⟩
  obtain ⟨e, he⟩ := State.dropLink_eq hl ht
  rw [he.trans (State.loseGive_of_none hg)]
  exact ⟨rfl, Table.find?_put_self _ _ _, rfl⟩

theorem linksAndGroupSet : LinksAndGroupSet :=
  ⟨linkTrain_completes, lotarLinkDown_completes,
    fun s p hrun => ⟨linkDown_completes s p hrun, linkUp_completes s p hrun⟩,
    fun s bits hrun => (exec_groupSetWrite bits s).trans (byMc_not_stopped hrun),
    fun s p bits hrun => ⟨(exec_linkDown p s).trans (byMc_stopped hrun), (exec_linkUp p s).trans (byMc_stopped hrun),
      (exec_groupSetWrite bits s).trans (byMc_stopped hrun)⟩⟩

end Sys2Proof.Claims
end

section
/-! SUPPORT. What start-up writes in the SRAM (R119, R158, R401, R449): the firmware's image and the power block's fields. -/

namespace Sys2Proof.Machine

/-! ## Writes of the SRAM outside a set of addresses -/

/-- Two states that differ in memory and in the power controller, whose give is the same; of the SRAM only bytes at which `A`
holds have changed. -/
def SramMoved (A : Nat → Prop) (s t : State) : Prop :=
  ∃ m w, t = { s with mem := m, pow := w } ∧ w.giving = s.pow.giving ∧ Memory.wf m.sram = true ∧
    ∀ a, ¬A a → m.byte (.sram a) = s.mem.byte (.sram a)

theorem SramMoved.wf {A : Nat → Prop} {s t : State} (h : SramMoved A s t) : Memory.wf t.mem.sram = true := by
  obtain ⟨m, w, rfl, -, hwf, -⟩ := h
  exact hwf

theorem SramMoved.byte_eq {A : Nat → Prop} {s t : State} (h : SramMoved A s t) {a : Nat} (ha : ¬A a) :
    t.mem.byte (.sram a) = s.mem.byte (.sram a) := by
  obtain ⟨m, w, rfl, -, -, hbyte⟩ := h
  exact hbyte a ha

theorem SramMoved.sec_eq {A : Nat → Prop} {s t : State} (h : SramMoved A s t) : t.sec = s.sec := by
  obtain ⟨m, w, rfl, -, -, -⟩ := h
  rfl

theorem SramMoved.links_nil {A : Nat → Prop} {s t : State} (h : SramMoved A s t) (hs : s.sec.links = []) :
    t.sec.links = [] := by
  rw [h.sec_eq, hs]

theorem SramMoved.trans {A : Nat → Prop} {s t u : State} (h : SramMoved A s t) (h' : SramMoved A t u) : SramMoved A s u := by
  obtain ⟨m, w, rfl, hg, -, hbyte⟩ := h
  obtain ⟨m', w', rfl, hg', hwf', hbyte'⟩ := h'
  exact ⟨m', w', rfl, hg'.trans hg, hwf', fun a ha => (hbyte' a ha).trans (hbyte a ha)⟩

theorem SramMoved.mono {A B : Nat → Prop} {s t : State} (h : SramMoved A s t) (hAB : ∀ a, A a → B a) : SramMoved B s t := by
  obtain ⟨m, w, rfl, hg, hwf, hbyte⟩ := h
  exact ⟨m, w, rfl, hg, hwf, fun a ha => hbyte a fun hA => ha (hAB a hA)⟩

section
variable {s : State} (hwf : Memory.wf s.mem.sram = true)
include hwf

theorem SramMoved.of_pow {A : Nat → Prop} (w : Power) (hw : w.giving = s.pow.giving) : SramMoved A s { s with pow := w } :=
  ⟨s.mem, w, rfl, hw, hwf, fun _ _ => rfl⟩

theorem State.sramMoved_setSram {A : Nat → Prop} (a n v : Nat) (hA : ∀ x, a ≤ x → x < a + n → A x) :
    SramMoved A s (s.setSram a n v) :=
  ⟨_, s.pow, rfl, rfl, s.wf_sram_setSram a n v hwf, fun x hx => s.byte_setSram a n v hwf (by
    by_contra hin
    exact hx (hA x (by omega) (by omega)))⟩

end

/-! ## Phases that are cleared, where no link stands (R401) -/

/-- Where no link stands a message counts no frame. -/
theorem State.sideSend_of_no_links {s : State} (h : s.sec.links = []) (m : Nat) (words : List W64) :
    s.sideSend m words = { s with pow := { s.pow with sideband := (m, words) :: s.pow.sideband } } := by
  rw [State.sideSend, State.stepIv, h]
  rfl

theorem State.sramMoved_sendPhase {A : Nat → Prop} {s : State} (h : s.sec.links = []) (hwf : Memory.wf s.mem.sram = true)
    (i n : Nat) : SramMoved A s (s.sendPhase i n) := by
  have hfold (l : List Nat) : ∀ s : State, s.sec.links = [] → Memory.wf s.mem.sram = true →
      SramMoved A s (l.foldl (fun s m => s.sideSend m [BitVec.ofNat 64 (s.paceTag i), BitVec.ofNat 64 n]) s) := by
    induction l with
    | nil => exact fun s _ hwf => .of_pow hwf s.pow rfl
    | cons m l ih =>
      intro s h hwf
      have hsend := State.sideSend_of_no_links h m [BitVec.ofNat 64 (s.paceTag i), BitVec.ofNat 64 n]
      have hmoved : SramMoved A s (s.sideSend m [BitVec.ofNat 64 (s.paceTag i), BitVec.ofNat 64 n]) :=
        hsend ▸ .of_pow hwf _ rfl
      exact hmoved.trans (ih _ (hmoved.links_nil h) hmoved.wf)
  exact hfold _ s h hwf

/-- The phases of the pacing descriptors (R401). -/
def PhaseAddress (a : Nat) : Prop := 0x1FF000 ≤ a ∧ a < 0x1FF800 ∧ 8 ≤ a % 128 ∧ a % 128 < 24

theorem State.sramMoved_clearPhases {s : State} {i : Nat} (hi : i < 16) (h : s.sec.links = [])
    (hwf : Memory.wf s.mem.sram = true) : SramMoved PhaseAddress s (s.clearPhases i) := by
  have haddr : paceAt i = 0x1FF000 + 128 * i := rfl
  have h1 : SramMoved PhaseAddress s (s.setSram (paceAt i + 8) 8 0) :=
    State.sramMoved_setSram hwf _ _ _ fun x hx hx' => by unfold PhaseAddress; omega
  have h2 := h1.trans (State.sramMoved_setSram h1.wf (paceAt i + 16) 8 0 fun x hx hx' => by unfold PhaseAddress; omega)
  unfold State.clearPhases
  generalize (s.setSram (paceAt i + 8) 8 0).setSram (paceAt i + 16) 8 0 = u at h2 ⊢
  have h3 : SramMoved PhaseAddress s { u with
      pow := { u.pow with heard := u.pow.heard.filter (fun e => e.1 / 1024 != i) } } :=
    h2.trans (.of_pow h2.wf _ rfl)
  dsimp only
  split
  · exact h3.trans (State.sramMoved_sendPhase (h3.links_nil h) h3.wf i 0)
  · exact h3

theorem State.sramMoved_foldl_clearPhases (l : List Nat) (s : State) (hl : ∀ i ∈ l, i < 16) (h : s.sec.links = [])
    (hwf : Memory.wf s.mem.sram = true) : SramMoved PhaseAddress s (l.foldl State.clearPhases s) := by
  induction l generalizing s with
  | nil => exact .of_pow hwf s.pow rfl
  | cons i l ih =>
    have hmoved := State.sramMoved_clearPhases (hl i (by simp)) h hwf
    rw [List.foldl_cons]
    exact hmoved.trans (ih (s.clearPhases i) (fun j hj => hl j (by simp [hj])) (hmoved.links_nil h) hmoved.wf)

theorem lt_of_mem_vRaised {old new : List Host.Cell} {i : Nat} (h : i ∈ vRaised old new) : i < 16 := by
  rw [vRaised, List.mem_filter, List.mem_range] at h
  exact h.1

/-! ## The firmware's image and the power block (R119, R449) -/

/-- The SRAM, which held nothing, once bytes have been stored from its first address on. -/
theorem State.storeSram_moved {s : State} (hsram : s.mem.sram = []) (h : s.sec.links = []) (bs : List Byte) : ∃ t,
    SramMoved PhaseAddress t (s.storeSram 0 bs) ∧ (∃ m w, t = { s with mem := m, pow := w } ∧ w.giving = s.pow.giving) ∧
    ∀ a, t.mem.byte (.sram a) = bs.getD a 0#8 := by
  have hnil : Memory.wf s.mem.sram = true := by rw [hsram]; rfl
  unfold State.storeSram
  dsimp only
  generalize State.talertNow _ = v
  obtain ⟨m, hm⟩ : ∃ m, m = s.mem.setBytes (.sram 0) bs := ⟨_, rfl⟩
  have hread : m.sram = Memory.writeAll s.mem.sram 0 bs := by rw [hm]; rfl
  rw [← hm]
  have hwf : Memory.wf m.sram = true := by rw [hread]; exact Memory.wf_writeAll _ _ hnil
  refine ⟨_, State.sramMoved_foldl_clearPhases _ _ (fun i => lt_of_mem_vRaised) h hwf, ⟨m, _, rfl, rfl⟩, fun a => ?_⟩
  show Memory.read m.sram a = _
  rw [hread, Memory.read_writeAll 0 a bs hnil]
  by_cases ha : a < bs.length
  · rw [if_pos (by omega), Nat.sub_zero]
  · rw [if_neg (by omega), hsram, List.getD_eq_default _ _ (by omega)]
    rfl

/-- The fields of start-up of the power block. -/
def State.startBlock (s : State) : State :=
  ((s.setSram powerBlock 2 1360).setSram (powerBlock + 4) 5 0).setSram (powerBlock + 24) 12 0

/-- Bytes within a field that has been written with zero. -/
theorem State.sramNat_setSram_zero {s : State} {a n b k : Nat} (hwf : Memory.wf s.mem.sram = true) (hab : a ≤ b)
    (hbn : b + k ≤ a + n) : (s.setSram a n 0).sramNat b k = 0 := by
  have hzero (n : Nat) : leBytes n 0 = List.replicate n 0#8 := by
    induction n with
    | zero => rfl
    | succ n ih => rw [leBytes, Nat.zero_div, ih]; rfl
  have hread (x : Nat) (hx : a ≤ x) (hx' : x < a + n) : Memory.read (s.setSram a n 0).mem.sram x = 0#8 := by
    refine (Memory.read_writeAll a x _ hwf).trans ?_
    rw [hzero, List.length_replicate, if_pos ⟨hx, hx'⟩]
    simp
  have hall (k : Nat) : ∀ b, a ≤ b → b + k ≤ a + n →
      Memory.readAll (s.setSram a n 0).mem.sram b k = List.replicate k 0#8 := by
    induction k with
    | zero => exact fun _ _ _ => rfl
    | succ k ih =>
      intro b hb hb'
      rw [Memory.readAll, hread b hb (by omega), ih (b + 1) (by omega) (by omega)]
      rfl
  exact (congrArg leNat (hall k b hab hbn)).trans (leNat_append_zeros [] k)

/-- What the power block holds at start-up. -/
theorem State.startBlock_fields {s : State} (hwf : Memory.wf s.mem.sram = true) :
    s.startBlock.sramNat 0x1FFB00 2 = 1360 ∧ s.startBlock.sramNat 0x1FFB04 4 = 0 ∧ s.startBlock.sramNat 0x1FFB08 1 = 0 ∧
    s.startBlock.sramNat 0x1FFB18 8 = 0 ∧ s.startBlock.sramNat 0x1FFB20 4 = 0 := by
  have haddr : powerBlock = 0x1FFB00 := rfl
  have hwf1 := s.wf_sram_setSram powerBlock 2 1360 hwf
  have hwf2 := (s.setSram powerBlock 2 1360).wf_sram_setSram (powerBlock + 4) 5 0 hwf1
  have hbelow {b k : Nat} (hb : b + k ≤ powerBlock + 24) : s.startBlock.sramNat b k =
      ((s.setSram powerBlock 2 1360).setSram (powerBlock + 4) 5 0).sramNat b k :=
    State.sramNat_setSram_ne _ _ _ _ hwf2 (.inl hb)
  refine ⟨?_, ?_, ?_, ?_, ?_⟩
  · rw [hbelow (by omega), State.sramNat_setSram_ne _ _ _ _ hwf1 (.inl (by omega)), ← haddr]
    exact s.sramNat_setSram_self powerBlock 2 1360 hwf
  · rw [hbelow (by omega)]
    exact State.sramNat_setSram_zero hwf1 (by omega) (by omega)
  · rw [hbelow (by omega)]
    exact State.sramNat_setSram_zero hwf1 (by omega) (by omega)
  · exact State.sramNat_setSram_zero hwf2 (by omega) (by omega)
  · exact State.sramNat_setSram_zero hwf2 (by omega) (by omega)

/-- The power block's fields that start-up and a give write (R449). -/
def BlockAddress (a : Nat) : Prop := 0x1FFB00 ≤ a ∧ a < 0x1FFB28

theorem State.startBlock_moved {s : State} (hwf : Memory.wf s.mem.sram = true) : SramMoved BlockAddress s s.startBlock := by
  have haddr : powerBlock = 0x1FFB00 := rfl
  have h1 : SramMoved BlockAddress s (s.setSram powerBlock 2 1360) :=
    State.sramMoved_setSram hwf _ _ _ fun x hx hx' => by unfold BlockAddress; omega
  have h2 := h1.trans (State.sramMoved_setSram h1.wf (powerBlock + 4) 5 0 fun x hx hx' => by unfold BlockAddress; omega)
  exact h2.trans (State.sramMoved_setSram h2.wf (powerBlock + 24) 12 0 fun x hx hx' => by unfold BlockAddress; omega)

end Sys2Proof.Machine
end

section
/-! SUPPORT. The Lotar links that train at start-up (R119, R132, R447, R452, R454): what their training
leaves, and which stay trained. -/

namespace Sys2Proof.Machine

/-! ## What the training of links changes -/

/-- The result of a give and its request in the power block (R451). -/
def GiveAddress (a : Nat) : Prop := 0x1FFB10 ≤ a ∧ a < 0x1FFB20

/-- What the training or the loss of links may change: memory only where a give is lost, and no more of it than the give's
result. -/
def LinksMoved (s t : State) : Prop :=
  ∃ m w e r links g f, t = { s with
    mem := m, pow := w, mc := { s.mc with evtPend := e }, mcr := r, sec := { s.sec with links := links }, agenda := g
    free := f } ∧ w.talert = s.pow.talert ∧ (s.pow.giving = none → w.giving = none ∧ m = s.mem) ∧
    (Memory.wf s.mem.sram = true → Memory.wf m.sram = true ∧ ∀ a, ¬GiveAddress a → m.byte (.sram a) = s.mem.byte (.sram a))

theorem LinksMoved.refl (s : State) : LinksMoved s s :=
  ⟨s.mem, s.pow, s.mc.evtPend, s.mcr, s.sec.links, s.agenda, s.free, rfl, rfl, fun h => ⟨h, rfl⟩,
    fun h => ⟨h, fun _ _ => rfl⟩⟩

theorem LinksMoved.trans {s t u : State} (h : LinksMoved s t) (h' : LinksMoved t u) : LinksMoved s u := by
  obtain ⟨m, w, e, r, links, g, f, rfl, htalert, hgiving, hbyte⟩ := h
  obtain ⟨m', w', e', r', links', g', f', rfl, htalert', hgiving', hbyte'⟩ := h'
  refine ⟨m', w', e', r', links', g', f', rfl, htalert'.trans htalert, fun hg => ?_, fun hwf => ?_⟩
  · obtain ⟨hw, hm⟩ := hgiving hg
    obtain ⟨hw', hm'⟩ := hgiving' hw
    exact ⟨hw', hm'.trans hm⟩
  · obtain ⟨hwf1, hb⟩ := hbyte hwf
    obtain ⟨hwf2, hb'⟩ := hbyte' hwf1
    exact ⟨hwf2, fun a ha => (hb' a ha).trans (hb a ha)⟩

/-- A give that is lost. -/
theorem State.linksMoved_loseGive (s : State) : LinksMoved s s.loseGive := by
  unfold State.loseGive
  split
  next m count hg =>
    split
    next => exact .refl s
    next =>
      obtain ⟨e, he⟩ := s.endGive_eq 6
      rw [he]
      refine ⟨_, _, e, _, s.sec.links, s.agenda, s.free, rfl, rfl, fun hnone => ?_, fun hwf => ?_⟩
      · rw [hg] at hnone
        exact absurd hnone (by simp)
      · have haddr : powerBlock = 0x1FFB00 := rfl
        have h1 : SramMoved GiveAddress s (s.setSram (powerBlock + 24) 8 6) :=
          State.sramMoved_setSram hwf _ _ _ fun x hx hx' => by unfold GiveAddress; omega
        have h2 : SramMoved GiveAddress s (s.gaveResult 6) :=
          h1.trans (State.sramMoved_setSram h1.wf _ _ _ fun x hx hx' => by unfold GiveAddress; omega)
        exact ⟨h2.wf, fun a ha => h2.byte_eq ha⟩
  next => exact .refl s

theorem State.links_loseGive (s : State) : s.loseGive.sec.links = s.sec.links := by
  unfold State.loseGive
  split
  · split
    · rfl
    · obtain ⟨e, he⟩ := s.endGive_eq 6
      rw [he]
  · rfl

/-- The links once the training of one has failed: that link is not trained. -/
def DropsLink (n : Nat) (s t : Table Link) : Prop :=
  t = s ∨ ∃ l, Table.find? s n = some l ∧ t = Table.put s n { l with trained := false }

theorem State.dropLink_moved (s : State) (n : Nat) : LinksMoved s (s.dropLink n) ∧
    DropsLink n s.sec.links (s.dropLink n).sec.links := by
  cases hl : Table.find? s.sec.links n with
  | none => rw [State.dropLink, hl]; exact ⟨.refl s, .inl rfl⟩
  | some l =>
    cases ht : l.trained with
    | true =>
      obtain ⟨e, he⟩ := State.dropLink_eq hl ht
      have hmoved := State.linksMoved_loseGive { s with
        sec := { s.sec with links := Table.put s.sec.links n { l with trained := false } }
        mcr := { s.mcr with alertPend := s.mcr.alertPend ||| 8#4 }, mc := { s.mc with evtPend := e } }
      have hlinks := State.links_loseGive { s with
        sec := { s.sec with links := Table.put s.sec.links n { l with trained := false } }
        mcr := { s.mcr with alertPend := s.mcr.alertPend ||| 8#4 }, mc := { s.mc with evtPend := e } }
      rw [he]
      refine ⟨.trans ?_ hmoved, .inr ⟨l, hl, hlinks⟩⟩
      exact ⟨s.mem, s.pow, e, _, _, s.agenda, s.free, rfl, rfl, fun h => ⟨h, rfl⟩, fun h => ⟨h, fun _ _ => rfl⟩⟩
    | false =>
      have hsame : s.dropLink n = s := by rw [State.dropLink, hl]; exact if_neg (by simp [ht])
      rw [hsame]
      exact ⟨.refl s, .inl rfl⟩

/-- The links once one has been trained with a peer, or its training has failed (R132). -/
def TrainsLink (n : Nat) (p : LotarPeer) (s t : Table Link) : Prop :=
  (n < 36 ∧ peerGood p = true ∧ ∃ l, l.trained = true ∧ l.member = p.member ∧ l.ivOut = 0#96 ∧
    SendsOver p.member (Table.put s n l) t) ∨
  (¬(n < 36 ∧ peerGood p = true) ∧ DropsLink n s t)

theorem State.train_moved {s : State} (n : Nat) (p : LotarPeer) (h : s.sec.links.Pairwise (fun a b => a.1 < b.1)) :
    LinksMoved s (s.train n p) ∧ TrainsLink n p s.sec.links (s.train n p).sec.links := by
  by_cases hn : n < 36
  · cases hgood : peerGood p with
    | true =>
      obtain ⟨links, g, e, heq, hsend⟩ := State.train_good hn hgood h
      rw [heq]
      exact ⟨⟨s.mem, _, e, _, links, g, _, rfl, rfl, fun h => ⟨h, rfl⟩, fun h => ⟨h, fun _ _ => rfl⟩⟩,
        .inl ⟨hn, hgood, s.freshLink p, rfl, rfl, rfl, hsend⟩⟩
    | false =>
      have htrain : s.train n p = s.dropLink n := by rw [State.train, if_neg (by omega), if_neg (by simp [hgood])]
      obtain ⟨hmoved, hdrops⟩ := s.dropLink_moved n
      rw [htrain]
      exact ⟨hmoved, .inr ⟨by simp [hgood], hdrops⟩⟩
  · have htrain : s.train n p = s := by rw [State.train, if_pos (by omega)]
    rw [htrain]
    exact ⟨.refl s, .inr ⟨fun hboth => hn hboth.1, .inl rfl⟩⟩

/-! ## Links that stay trained -/

/-- The links of a table in order have sent at most `j` frames each. -/
def SentAtMost (j : Nat) (t : Table Link) : Prop :=
  t.Pairwise (fun a b => a.1 < b.1) ∧ ∀ k l, Table.find? t k = some l → l.ivOut.toNat ≤ j

/-- A trained link leads to a member. -/
def TrainedAt (t : Table Link) (k m : Nat) : Prop := ∃ l, Table.find? t k = some l ∧ l.trained = true ∧ l.member = m

theorem Link.sent_ivOut_le {l : Link} {j : Nat} (h : l.ivOut.toNat ≤ j) : l.sent.ivOut.toNat ≤ j + 1 := by
  show (l.ivOut + 1#96).toNat ≤ j + 1
  rw [BitVec.toNat_add]
  exact (Nat.mod_le _ _).trans (Nat.add_le_add_right h 1)

theorem Link.sent_trained {l : Link} {j : Nat} (h : l.ivOut.toNat ≤ j) (hj : j < 1000) : l.sent.trained = true := by
  have hne : l.ivOut + 1#96 ≠ 0#96 := by
    intro heq
    have htoNat := congrArg BitVec.toNat heq
    simp [BitVec.toNat_add] at htoNat
    omega
  simpa [Link.sent] using hne

section
variable {s t : Table Link} {j n k m : Nat}

theorem Table.find?_put_cases {α : Type} {t : Table α} {k n : Nat} {v x : α} (h : Table.find? (Table.put t n v) k = some x) :
    (k = n ∧ x = v) ∨ (k ≠ n ∧ Table.find? t k = some x) := by
  by_cases hk : k = n
  · subst hk
    rw [Table.find?_put_self] at h
    exact .inl ⟨rfl, (Option.some.inj h).symm⟩
  · rw [Table.find?_put_ne _ _ hk] at h
    exact .inr ⟨hk, h⟩

theorem SentAtMost.put (h : SentAtMost j s) {l : Link} (hl : l.ivOut.toNat ≤ j) (n : Nat) :
    SentAtMost j (Table.put s n l) := by
  obtain ⟨hsorted, hsent⟩ := h
  refine ⟨Table.pairwise_put hsorted n l, fun k x hx => ?_⟩
  obtain ⟨-, rfl⟩ | ⟨-, hx⟩ := Table.find?_put_cases hx
  · exact hl
  · exact hsent k x hx

theorem SentAtMost.succ (h : SentAtMost j s) : SentAtMost (j + 1) s := ⟨h.1, fun k l hl => (h.2 k l hl).trans (Nat.le_succ j)⟩

theorem SendsOver.sentAtMost (h : SendsOver m s t) (hs : SentAtMost j s) : SentAtMost (j + 1) t := by
  obtain ⟨-, rfl⟩ | ⟨k, l, hl, -, rfl⟩ := h
  · exact hs.succ
  · exact hs.succ.put (Link.sent_ivOut_le (hs.2 k l hl)) k

/-- A link that has sent few frames stays trained. -/
theorem SendsOver.trainedAt (h : SendsOver m s t) (hs : SentAtMost j s) (hj : j < 1000) {mem : Nat} (hk : TrainedAt s k mem) :
    TrainedAt t k mem := by
  obtain ⟨l, hl, ht, hm⟩ := hk
  obtain hsame | hsent := h.find?_sent hl
  · exact ⟨l, hsame, ht, hm⟩
  · exact ⟨l.sent, hsent, Link.sent_trained (hs.2 k l hl) hj, hm⟩

variable {p : LotarPeer}

theorem TrainsLink.sentAtMost (h : TrainsLink n p s t) (hs : SentAtMost j s) : SentAtMost (j + 1) t := by
  obtain ⟨-, -, l, -, -, hiv, hsend⟩ | ⟨-, rfl | ⟨l, hl, rfl⟩⟩ := h
  · exact hsend.sentAtMost (hs.put (by simp [hiv]) n)
  · exact hs.succ
  · exact (hs.put (l := { l with trained := false }) (hs.2 n l hl) n).succ

theorem TrainsLink.trainedAt_ne (h : TrainsLink n p s t) (hs : SentAtMost j s) (hj : j < 1000) (hkn : k ≠ n)
    (hk : TrainedAt s k m) : TrainedAt t k m := by
  have hput (l : Link) : TrainedAt (Table.put s n l) k m := by
    obtain ⟨x, hx, ht, hm⟩ := hk
    exact ⟨x, (Table.find?_put_ne _ _ hkn).trans hx, ht, hm⟩
  obtain ⟨-, -, l, -, -, hiv, hsend⟩ | ⟨-, rfl | ⟨l, -, rfl⟩⟩ := h
  · exact hsend.trainedAt (hs.put (by simp [hiv]) n) hj (hput l)
  · exact hk
  · exact hput _

theorem TrainsLink.trainedAt_self (h : TrainsLink n p s t) (hs : SentAtMost j s) (hj : j < 1000) (hn : n < 36)
    (hgood : peerGood p = true) : TrainedAt t n p.member := by
  obtain ⟨-, -, l, ht, hm, hiv, hsend⟩ | ⟨hnot, -⟩ := h
  · exact hsend.trainedAt (hs.put (by simp [hiv]) n) hj ⟨l, Table.find?_put_self _ _ _, ht, hm⟩
  · exact absurd ⟨hn, hgood⟩ hnot

end

/-! ## The peers that stand there at start-up -/

/-- The state once every link has been trained with its peer. -/
def State.trainAll (s : State) (l : List (Nat × LotarPeer)) : State := l.foldl (fun s p => s.train p.1 p.2) s

theorem State.trainAll_moved (l : List (Nat × LotarPeer)) (s : State) (j : Nat) (h : SentAtMost j s.sec.links) :
    LinksMoved s (s.trainAll l) := by
  induction l generalizing s j with
  | nil => exact .refl s
  | cons p l ih =>
    obtain ⟨hmoved, htrains⟩ := State.train_moved p.1 p.2 h.1
    exact hmoved.trans (ih (s.train p.1 p.2) (j + 1) (htrains.sentAtMost h))

/-- A link with which none of the peers is trained stays trained. -/
theorem State.trainAll_keeps (l : List (Nat × LotarPeer)) (s : State) (j k m : Nat) (h : SentAtMost j s.sec.links)
    (hj : j + l.length ≤ 1000) (hkey : ∀ p ∈ l, k ≠ p.1) (hk : TrainedAt s.sec.links k m) :
    TrainedAt (s.trainAll l).sec.links k m := by
  induction l generalizing s j with
  | nil => exact hk
  | cons p l ih =>
    rw [List.length_cons] at hj
    obtain ⟨-, htrains⟩ := State.train_moved p.1 p.2 h.1
    exact ih (s.train p.1 p.2) (j + 1) (htrains.sentAtMost h) (by omega) (fun q hq => hkey q (by simp [hq]))
      (htrains.trainedAt_ne h (by omega) (hkey p (by simp)) hk)

/-- Each link with a good peer is trained, where every peer stands at a link of its own (R132). -/
theorem State.trainAll_trains (l : List (Nat × LotarPeer)) (s : State) (j : Nat) (h : SentAtMost j s.sec.links)
    (hj : j + l.length ≤ 1000) (hkeys : l.Pairwise (fun a b => a.1 ≠ b.1)) : ∀ p ∈ l, p.1 < 36 → peerGood p.2 = true →
    TrainedAt (s.trainAll l).sec.links p.1 p.2.member := by
  induction l generalizing s j with
  | nil => simp
  | cons q l ih =>
    rw [List.length_cons] at hj
    obtain ⟨hq, hl⟩ := List.pairwise_cons.mp hkeys
    obtain ⟨-, htrains⟩ := State.train_moved q.1 q.2 h.1
    intro p hp hn hgood
    obtain rfl | hp := List.mem_cons.mp hp
    · exact State.trainAll_keeps l _ (j + 1) _ _ (htrains.sentAtMost h) (by omega) hq
        (htrains.trainedAt_self h (by omega) hn hgood)
    · exact ih (s.train q.1 q.2) (j + 1) (htrains.sentAtMost h) (by omega) hl p hp hn hgood

end Sys2Proof.Machine
end

section
/-! SUPPORT. Power applied and removed (R119 to R122, R433): PowerOnAndRemoval, and the obligation of start-up and links. -/

namespace Sys2Proof.Machine

/-! ## The chains at their first cells (R119, R121, R433) -/

theorem foldl_two {α β : Type} (f : α → β → α) (s : α) (x y : β) : [x, y].foldl f s = f (f s x) y := rfl

theorem foldl_three {α β : Type} (f : α → β → α) (s : α) (x y z : β) : [x, y, z].foldl f s = f (f (f s x) y) z := rfl

/-- The first reads, in their order. -/
theorem State.postChains_eq (s : State) : s.postChains =
    ((((((s.postCommand .a (firstCommand .a)).postCommand .b (firstCommand .b)).postSecurity .a (firstSecurity .a)).postSecurity
      .b (firstSecurity .b)).postReadback .a (firstReadback .a)).postReadback .b (firstReadback .b)).postReadback
      .mc (firstReadback .mc) := by
  unfold State.postChains
  dsimp only
  rw [foldl_two, foldl_two, foldl_three]

theorem State.chainsMoved_postChains (s : State) : ChainsMoved s s.postChains := by
  rw [State.postChains_eq]
  refine .trans ?_ (State.chainsMoved_postReadback _ _ _)
  refine .trans ?_ (State.chainsMoved_postReadback _ _ _)
  refine .trans ?_ (State.chainsMoved_postReadback _ _ _)
  refine .trans ?_ (State.chainsMoved_postSecurity _ _ _)
  refine .trans ?_ (State.chainsMoved_postSecurity _ _ _)
  exact (s.chainsMoved_postCommand .a _).trans (State.chainsMoved_postCommand _ _ _)

theorem State.port_postChains (s : State) (p : PortId) :
    s.postChains.port p = { s.port p with cmd := some (firstCommand p), sec := some (firstSecurity p) } := by
  rw [State.postChains_eq, State.port_postReadback, State.port_postReadback, State.port_postReadback]
  cases p with
  | a =>
    rw [State.port_postSecurity_ne _ _ _ _ (by decide), State.port_postSecurity_self, State.port_postCommand_ne _ _ _ _ (by decide),
      State.port_postCommand_self]
  | b =>
    rw [State.port_postSecurity_self, State.port_postSecurity_ne _ _ _ _ (by decide), State.port_postCommand_self,
      State.port_postCommand_ne _ _ _ _ (by decide)]

/-! ## Start-up, up to the training of the links (R119, R120, R449) -/

/-- The state in which genuine firmware is started, before its image stands in the SRAM. -/
def State.started (s : State) (sec : Sec) : State :=
  { s with
    sec := sec, power := .on, cur := .mc, mc := { Core.mcInit with run := .running }, mem := { s.mem with sram := [] }
    disp := { s.disp with portA := { s.disp.portA with up := true }, portB := { s.disp.portB with up := true } } }

/-- The state once the image and the power block's fields of start-up stand in the SRAM. -/
def State.loaded (s : State) (sec : Sec) : State :=
  let s4 := ((s.started sec).storeSram 0 (s.flash.image.take 0x200000)).startBlock
  { s4 with pow := { s4.pow with talert := 1360 } }

theorem State.powerUp_genuine {s : State} (h : s.flash.genuine = true) : ∃ sec : Sec,
    (sec.debug = Config.debugFuse ∧ sec.fwm = vec384 (sha384 s.flash.image) ∧ sec.links = []) ∧
    s.powerUp = { ((s.loaded sec).trainAll s.lotar).postChains with agenda := s.agenda } := by
  refine ⟨{ Sec.init with
    debug := Config.debugFuse, fwm := vec384 (sha384 s.flash.image), ident := identityKey Config.seed Config.debugFuse
    ksv := saveKey Config.seed Config.debugFuse }, ⟨rfl, rfl, rfl⟩, ?_⟩
  unfold State.powerUp
  dsimp only
  rw [if_neg (by simp [h])]
  rfl

/-- Firmware with a bad signature is not started. -/
theorem State.powerUp_forged {s : State} (h : s.flash.genuine = false) : ∃ sec,
    s.powerUp = { s with sec := sec, power := .failed } := by
  unfold State.powerUp
  dsimp only
  rw [if_pos (by simp [h])]
  exact ⟨_, rfl⟩

theorem State.sramNat_of_mem {s t : State} (h : t.mem = s.mem) (a n : Nat) : t.sramNat a n = s.sramNat a n :=
  congrArg (fun m => leNat (Mems.bytes m (.sram a) n)) h

/-- What stands once the image and the power block's fields have been loaded. -/
theorem State.loaded_moved {s : State} {sec : Sec} (hlinks : sec.links = []) : ∃ m w,
    s.loaded sec = { s.started sec with mem := m, pow := w } ∧ w.giving = s.pow.giving ∧ w.talert = 1360 ∧
    Memory.wf m.sram = true ∧
    (∀ a, a < 0x200000 → ¬BlockAddress a → ¬PhaseAddress a → m.byte (.sram a) = s.flash.image.getD a 0#8) ∧
    (s.loaded sec).sramNat 0x1FFB00 2 = 1360 ∧ (s.loaded sec).sramNat 0x1FFB04 4 = 0 ∧
    (s.loaded sec).sramNat 0x1FFB08 1 = 0 ∧ (s.loaded sec).sramNat 0x1FFB18 8 = 0 ∧
    (s.loaded sec).sramNat 0x1FFB20 4 = 0 := by
  obtain ⟨t, hmoved, ⟨m, w, ht, hw⟩, himage⟩ :=
    State.storeSram_moved (s := s.started sec) rfl hlinks (s.flash.image.take 0x200000)
  have hblock := State.startBlock_moved hmoved.wf
  have hfields := State.startBlock_fields hmoved.wf
  have hbyte (a : Nat) (ha : a < 0x200000) (hna : ¬BlockAddress a) (hnp : ¬PhaseAddress a) :
      (s.loaded sec).mem.byte (.sram a) = s.flash.image.getD a 0#8 := by
    refine (hblock.byte_eq hna).trans ((hmoved.byte_eq hnp).trans ((himage a).trans ?_))
    rw [List.getD_eq_getElem?_getD, List.getD_eq_getElem?_getD, List.getElem?_take_of_lt ha]
  obtain ⟨m1, w1, h1, hw1, -, -⟩ := hmoved
  obtain ⟨m2, w2, h2, hw2, hwf2, -⟩ := hblock
  have hloaded : s.loaded sec = { s.started sec with
      mem := m2, pow := { w2 with talert := 1360 } } := by
    unfold State.loaded
    dsimp only
    rw [h2, h1, ht]
  refine ⟨m2, { w2 with talert := 1360 }, hloaded, ?_, rfl, hwf2, fun a ha hna hnp => ?_, hfields⟩
  · rw [h1] at hw2
    rw [ht] at hw1
    exact hw2.trans (hw1.trans hw)
  · rw [← hbyte a ha hna hnp, hloaded]

end Sys2Proof.Machine

namespace Sys2Proof.Claims

open Sys2Proof.Machine

/-- Power applied to a device with genuine firmware (R119 to R122). -/
theorem powerOn_genuine {s : State} (hoff : s.power = .off) (hgenuine : s.flash.genuine = true) :
    Completes .powerOn s fun t => t.power = .on ∧ t.cur = .mc ∧ t.mc.run = .running ∧
      t.mc.priv = .management ∧ t.mc.pc = 0#64 ∧ t.agenda = s.agenda ∧ t.flash = s.flash ∧ t.lotar = s.lotar ∧
      t.sec.debug = Config.debugFuse ∧ t.sec.fwm = vec384 (sha384 s.flash.image) ∧
      (∀ a, a < 0x1FFB00 ∨ (0x1FFB28 ≤ a ∧ a < 0x200000) →
        ¬(0x1FF000 ≤ a ∧ a < 0x1FF800 ∧ 8 ≤ a % 128 ∧ a % 128 < 24) →
        t.mem.byte (.sram a) = s.flash.image.getD a 0#8) ∧
      (s.pow.giving = none → t.sramNat 0x1FFB00 2 = 1360 ∧ t.sramNat 0x1FFB04 4 = 0 ∧ t.sramNat 0x1FFB08 1 = 0 ∧
        t.sramNat 0x1FFB18 8 = 0 ∧ t.sramNat 0x1FFB20 4 = 0) ∧ t.pow.talert = 1360 ∧
      (s.lotar.length ≤ 36 → s.lotar.Pairwise (fun a b => a.1 ≠ b.1) →
        ∀ p ∈ s.lotar, p.1 < 36 → peerGood p.2 = true →
        ∃ l, Table.find? t.sec.links p.1 = some l ∧ l.trained = true ∧ l.member = p.2.member) ∧
      ∀ p, (t.port p).cmd = some (firstCommand p) ∧ (t.port p).sec = some (firstSecurity p) ∧ (t.port p).up = true := by
  obtain ⟨sec, ⟨hdebug, hfwm, hlinks⟩, hpower⟩ := State.powerUp_genuine hgenuine
  obtain ⟨m, w, hloaded, hgiving, htalert, hwf, himage, hfields⟩ := State.loaded_moved (s := s) hlinks
  have hsent : SentAtMost 0 (s.loaded sec).sec.links := by
    have hnil : (s.loaded sec).sec.links = [] := by rw [hloaded]; exact hlinks
    rw [hnil]
    exact ⟨.nil, fun k l hl => absurd hl (by simp)⟩
  have htrained := State.trainAll_trains s.lotar (s.loaded sec) 0 hsent
  obtain ⟨m', w', e, r, links, g, f, htrain, htalert', hgiving', hbyte'⟩ := State.trainAll_moved s.lotar (s.loaded sec) 0 hsent
  have hexec : exec .powerOn s = .next s.powerUp := congrArg Host.Outcome.next (if_neg (by simp [hoff]))
  obtain ⟨u, hu⟩ : ∃ u, u = (s.loaded sec).trainAll s.lotar := ⟨_, rfl⟩
  rw [← hu] at hpower htrained htrain
  have hport := State.port_postChains u
  obtain ⟨d, l, hchains⟩ := u.chainsMoved_postChains
  rw [hchains] at hpower hport
  rw [hloaded] at htalert' hgiving' hbyte'
  have hmem : u.mem = m' := by rw [htrain]
  have hup (p : PortId) : (u.port p).up = true := by
    rw [htrain, hloaded]
    cases p <;> rfl
  have hstarted : u = { s.started sec with
      mem := m', pow := w', mc := { (s.started sec).mc with evtPend := e }, mcr := r, sec := { sec with links := links }
      agenda := g, free := f } := by
    rw [htrain, hloaded]
    rfl
  refine ⟨s.powerUp, hexec, ?_⟩
  rw [hpower]
  refine ⟨?_, ?_, ?_, ?_, ?_, rfl, ?_, ?_, ?_, ?_, fun a ha hna => ?_, fun hg => ?_, ?_,
    fun hlen hkeys => htrained (by omega) hkeys, fun p => ?_⟩
  · rw [hstarted]; rfl
  · rw [hstarted]; rfl
  · rw [hstarted]; rfl
  · rw [hstarted]; rfl
  · rw [hstarted]; rfl
  · rw [hstarted]; rfl
  · rw [hstarted]; rfl
  · rw [hstarted]; exact hdebug
  · rw [hstarted]; exact hfwm
  · refine (congrArg (fun m => Mems.byte m (.sram a)) hmem).trans (((hbyte' hwf).2 a ?_).trans (himage a ?_ ?_ hna))
    · unfold GiveAddress; omega
    · omega
    · unfold BlockAddress; omega
  · obtain ⟨-, hm⟩ := hgiving' (hgiving.trans hg)
    have hkept : u.mem = (s.loaded sec).mem := by rw [hmem, hm, hloaded]
    obtain ⟨h1, h2, h3, h4, h5⟩ := hfields
    exact ⟨(State.sramNat_of_mem hkept _ _).trans h1, (State.sramNat_of_mem hkept _ _).trans h2,
      (State.sramNat_of_mem hkept _ _).trans h3, (State.sramNat_of_mem hkept _ _).trans h4,
      (State.sramNat_of_mem hkept _ _).trans h5⟩
  · rw [hstarted]
    exact htalert'.trans htalert
  · have hp := hport p
    exact ⟨congrArg Port.cmd hp, congrArg Port.sec hp, (congrArg Port.up hp).trans (hup p)⟩

/-- Power removed (R120). -/
theorem powerRemoval_completes (s : State) :
    Completes .powerRemoval s fun t => t.power = .off ∧ t.flash = s.flash ∧ t.lotar = s.lotar ∧
      (∀ p off, t.mem.byte (.host p off) = s.mem.byte (.host p off)) ∧
      (∀ q, (∀ p off, q ≠ .host p off) → t.mem.byte q = 0#8 ∧ t.mem.mark q = false) ∧
      (∀ a, t.mem.gst (.hbm a) = .empty) ∧ (∀ b y, t.mem.gst (.bank b y) = .empty) ∧
      t.mc = State.reset.mc ∧ t.mcr = State.reset.mcr ∧ t.regions = State.reset.regions ∧ t.engines = State.reset.engines ∧
      t.disp = State.reset.disp ∧ t.sec = State.reset.sec ∧ t.pow = State.reset.pow ∧ t.ports = State.reset.ports := by
  refine ⟨_, rfl, rfl, rfl, rfl, fun p off => ?_, fun q hq => ?_, fun _ => rfl, fun _ _ => rfl,
    rfl, rfl, rfl, rfl, rfl, rfl, rfl, rfl⟩
  · cases p <;> rfl
  · cases q with
    | host p off => exact absurd rfl (hq p off)
    | _ => exact ⟨rfl, rfl⟩

theorem powerOnAndRemoval : PowerOnAndRemoval := by
  refine ⟨fun s hoff => ⟨powerOn_genuine hoff, fun hforged => ⟨s.powerUp, ?_, ?_⟩⟩, powerRemoval_completes⟩
  · exact congrArg Host.Outcome.next (if_neg (by simp [hoff]))
  · obtain ⟨sec, hpower⟩ := State.powerUp_forged hforged
    rw [hpower]
    exact ⟨rfl, rfl, rfl⟩

end Sys2Proof.Claims

namespace Sys2Proof.Proofs

/-- Settles O39: what start-up leaves is followed through the image, the power block and the training of each peer's link; a link
carries a frame for each credit total that is sent, too few to end it. -/
theorem powerAndLinks : Obligations.PowerAndLinks := ⟨Claims.powerOnAndRemoval, Claims.linksAndGroupSet⟩

end Sys2Proof.Proofs
end

section
/-! SUPPORT. The requests of the security block (R124, R125, R129, R130, R134): the lengths of what is hashed and signed, a body
in its buffer, the answer of a request and its chain's next cell, and what each request is answered with. -/

namespace Sys2Proof.Machine

/-! ## Byte strings -/

/-- Zero bytes are the number 0. -/
theorem leNat_eq_zero {l : List Byte} (h : ∀ b ∈ l, b = 0#8) : leNat l = 0 := by
  rw [List.eq_replicate_of_mem h]
  exact leNat_append_zeros [] l.length

/-- A slice inside a byte string is made of its bytes alone. -/
theorem slice_eq {l : List Byte} {off n : Nat} (h : off + n ≤ l.length) : slice l off n = (l.drop off).take n := by
  have hlen : n - ((l.drop off).take n).length = 0 := by simp; omega
  rw [slice, hlen, List.replicate_zero, List.append_nil]

theorem length_slice (l : List Byte) (off n : Nat) : (slice l off n).length = n := by
  simp [slice]

@[simp] theorem length_beBytes (n x : Nat) : (beBytes n x).length = n := by simp [beBytes]

@[simp] theorem length_bytes384 (x : BitVec 384) : (bytes384 x).length = 48 := length_beBytes _ _

theorem length_sha384_le (l : List Byte) : (sha384 l).length ≤ 48 := by
  simp [sha384, List.length_flatMap]; omega

theorem length_ecdsaSign (d nonce : Nat) (digest : List Byte) : (ecdsaSign d nonce digest).length = 96 := by
  rw [ecdsaSign, List.length_append, length_beBytes, length_beBytes]

/-- The first bytes that are read are those of a shorter read. -/
theorem Memory.take_readAll (m : List Host.Cell) {a k n : Nat} (h : k ≤ n) :
    (Memory.readAll m a n).take k = Memory.readAll m a k := by
  induction k generalizing a n with
  | zero => rfl
  | succ k ih =>
    obtain ⟨n, rfl⟩ : ∃ j, n = j + 1 := ⟨n - 1, by omega⟩
    rw [Memory.readAll, Memory.readAll, List.take_succ_cons, ih (by omega)]

/-! ## The operands of a request (R124, R125) -/

theorem Request.unnamed_eq_false {q : Request} {off n : Nat} (h : ∀ b ∈ (q.args.drop off).take n, b = 0#8) :
    q.unnamed off n = false := by
  simp [Request.unnamed, fieldLe_eq, leNat_eq_zero h]

theorem Request.asid_eq (q : Request) (off : Nat) : q.asid off = leNat ((q.args.drop off).take 2) := fieldLe_eq _ _ _

/-! ## A body in its buffer (R122, R124, R125) -/

/-- The single-assignment pages of address space 0 lie below its ordinary ones (R122). -/
theorem State.as0Place_sa_lt {s : State} {va : Nat} {p : Place} (h : s.as0Place va = some (p, true)) : va < 0x200000 := by
  by_contra hva
  have hpage : ¬(0x10000 ≤ va ∧ va < 0x20000 ∨ 0x100000 ≤ va ∧ va < 0x200000) := by omega
  by_cases hlow : 0x200000 ≤ va ∧ va < 0x300000
  · rw [State.as0Place_of_leaf ((if_neg hpage).trans (if_pos hlow)) hlow.2 rfl rfl] at h
    simp at h
  · have hnone : as0Leaf va = .error clsTranslation := (if_neg hpage).trans (if_neg hlow)
    rw [State.as0Place, State.walkOf, hnone] at h
    simp at h

/-- The state with a request's body in its buffer; an empty one is not written. -/
def State.withBody (s : State) (va : Nat) (body : List Byte) : State := if body.isEmpty then s else s.writeBody va body

/-- A body changes bytes and key bits alone. -/
theorem State.withBody_eq (s : State) (va : Nat) (body : List Byte) : s.withBody va body = s ∨
    ∃ p l, s.withBody va body = { s with mem := { s.mem.setBytes p body with keyBits := l } } := by
  unfold State.withBody State.writeBody
  split
  · exact .inl rfl
  · split
    · exact .inr ⟨_, _, rfl⟩
    · exact .inl rfl

/-- A body reads back from its buffer. -/
theorem State.bytes_withBody {s : State} {va : Nat} {p : Place} {sa : Bool} (body : List Byte) (hwf : s.mem.wf = true)
    (hp : s.as0Place va = some (p, sa)) : (s.withBody va body).mem.bytes p body.length = body := by
  cases body with
  | nil => rfl
  | cons b bs =>
    rw [State.withBody, if_neg (by simp), State.writeBody, hp]
    have hread : (s.mem.setBytes p (b :: bs)).bytes p (b :: bs).length = b :: bs := by
      have hself : p.sameMemory p = true := by rcases p with _ | _ | _ | _ | ⟨_ | _, _⟩ <;> rfl
      rw [Mems.bytes, Mems.setBytes, Mems.list_setList_eq, hself, if_pos rfl]
      exact Memory.readAll_writeAll _ _ (Mems.wf_list hwf p)
    cases p <;> exact hread

section
variable (s : State) (va : Nat) (body : List Byte)

@[simp] theorem State.withBody_mcr : (s.withBody va body).mcr = s.mcr := by
  obtain h | ⟨_, _, h⟩ := s.withBody_eq va body <;> rw [h]
@[simp] theorem State.withBody_disp : (s.withBody va body).disp = s.disp := by
  obtain h | ⟨_, _, h⟩ := s.withBody_eq va body <;> rw [h]
@[simp] theorem State.gst_withBody (q : Place) : (s.withBody va body).mem.gst q = s.mem.gst q := by
  obtain h | ⟨p, _, h⟩ := s.withBody_eq va body
  · rw [h]
  · rw [h]
    refine Eq.trans ?_ (Mems.gst_setBytes s.mem p q body)
    cases q <;> rfl
theorem State.wf_withBody (hwf : s.mem.wf = true) : (s.withBody va body).mem.wf = true := by
  obtain h | ⟨p, _, h⟩ := s.withBody_eq va body
  · rw [h]; exact hwf
  · rw [h]; exact Mems.wf_setBytes hwf p body

end

/-! ## The answer of a request (R124, R125) -/

/-- The chain waits on its next cell, or has stopped with an alert (R124). -/
theorem State.advanceSecurity_eq (s : State) (p : PortId) (next : W64) : ∃ l n, s.advanceSecurity p next =
    { s with
      ports := { s.ports with reads := l }
      disp := { s.disp.setPort p { s.port p with
          sec := if next.toNat % 128 = 0 ∧ s.as0Cell next.toNat then some next else none } with notices := n } } := by
  have hcell : (s.dropReads (fun r => r == .security p)).as0Cell next.toNat = s.as0Cell next.toNat := State.as0Cell_congr rfl _
  unfold State.advanceSecurity
  simp only [hcell]
  split
  · obtain ⟨l, hl⟩ := State.askGranules_eq 2 ((s.dropReads (fun r => r == .security p)).setPort p
      { (s.dropReads (fun r => r == .security p)).port p with sec := some next }) (.security p) next.toNat
    refine ⟨l, s.disp.notices, ?_⟩
    rw [State.postSecurity, hl]
    cases p <;> rfl
  · exact ⟨_, _, rfl⟩

/-- A request is answered with a status and the length of its body: its status cell, the chain's next cell, and the other
chain's turn (R124, R125). -/
def State.serve (s : State) (p : PortId) (q : Request) (status len : Nat) : State :=
  let t := (s.fillCell q.status.toNat (leBytes 8 status ++ leBytes 8 len)).advanceSecurity p q.next
  { t with sec := { t.sec with turn := otherPort p } }

/-- The answer changes memory, posted reads, the port, notices and the chains' turn. -/
theorem State.serve_eq (s : State) (p : PortId) (q : Request) (status len : Nat) : ∃ l n, s.serve p q status len =
    { s with
      mem := (s.fillCell q.status.toNat (leBytes 8 status ++ leBytes 8 len)).mem
      ports := { s.ports with reads := l }
      sec := { s.sec with turn := otherPort p }
      disp := { s.disp.setPort p { s.port p with
          sec := if q.next.toNat % 128 = 0 ∧ s.as0Cell q.next.toNat then some q.next else none } with notices := n } } := by
  obtain ⟨u, hu⟩ : ∃ u, u = s.fillCell q.status.toNat (leBytes 8 status ++ leBytes 8 len) := ⟨_, rfl⟩
  obtain ⟨m, r, hr⟩ : ∃ m r, u = { s with mem := m, ports := { s.ports with reads := r } } := by
    obtain hf | ⟨a, r, -, -, -, hf⟩ := s.fillCell_cases q.status.toNat (leBytes 8 status ++ leBytes 8 len)
    · exact ⟨s.mem, s.ports.reads, hu.trans hf⟩
    · exact ⟨_, r, hu.trans hf⟩
  obtain ⟨l, n, h⟩ := u.advanceSecurity_eq p q.next
  have hcell : u.as0Cell q.next.toNat = s.as0Cell q.next.toNat := State.as0Cell_congr (by rw [hr]) _
  refine ⟨l, n, ?_⟩
  rw [State.serve, ← hu, h, hcell, hr]
  cases p <;> rfl

section
variable (s : State) (p : PortId) (q : Request) (status len : Nat)

theorem State.serve_mem :
    (s.serve p q status len).mem = (s.fillCell q.status.toNat (leBytes 8 status ++ leBytes 8 len)).mem := by
  obtain ⟨_, _, h⟩ := s.serve_eq p q status len; rw [h]
@[simp] theorem State.serve_aspaces : (s.serve p q status len).disp.aspaces = s.disp.aspaces := by
  obtain ⟨_, _, h⟩ := s.serve_eq p q status len; rw [h]; cases p <;> rfl
@[simp] theorem State.aspace?_serve (m : Nat) : (s.serve p q status len).aspace? m = s.aspace? m := by simp [State.aspace?]

end

/-- The answer changes no byte that lies behind the single-assignment pages (R122, R125). -/
theorem State.bytes_serve {s : State} (p : PortId) (q : Request) (status len n : Nat) {va : Nat} (hva : 0x200000 ≤ va)
    (hwf : s.mem.wf = true) (hkey : s.isKeyed 0 = false) :
    (s.serve p q status len).mem.bytes (.hbm (as0Base + va)) n = s.mem.bytes (.hbm (as0Base + va)) n := by
  rw [State.serve_mem]
  obtain h | ⟨b, l, halign, hp, -, h⟩ := s.fillCell_cases q.status.toNat (leBytes 8 status ++ leBytes 8 len)
  · rw [h]
  · have hlow := State.as0Place_sa_lt hp
    obtain rfl := Place.hbm.inj (State.as0Place_eq hp)
    rw [h]
    refine Memory.readAll_congr fun x hx _ => ?_
    have hbyte := State.byte_filledMem_clear 0 (as0Base + q.status.toNat) (padTo (leBytes 8 status ++ leBytes 8 len) 64) false
      hwf hkey (.hbm x)
    rw [length_padTo (by simp), if_neg] at hbyte
    · exact hbyte
    · have hbehind : ¬x < as0Base + q.status.toNat + 64 := by
        simp only [Place.key] at hx
        omega
      simp [within_eq, Place.key, hbehind]

/-- What a request that stands is answered with: a status, or its body over a state. -/
def ReqRes.served (s : State) (p : PortId) (q : Request) : ReqRes → State
  | .refuse st => s.serve p q st 0
  | .ok body u => (u.withBody q.body body).serve p q 0 body.length

end Sys2Proof.Machine

namespace Sys2Proof.Claims

open Sys2Proof.Machine

/-- A state in which a body may have been written and address spaces and captures changed: its cells are those of `s`, and no
cell that was free has been filled. -/
structure Serviceable (s u : State) : Prop where
  mcr : u.mcr = s.mcr
  wf : u.mem.wf = true
  clear : u.isKeyed 0 = false
  gst : ∀ a, u.mem.gst (.hbm a) = s.mem.gst (.hbm a)

theorem Serviceable.withBody {s u : State} (h : Serviceable s u) (va : Nat) (body : List Byte) :
    Serviceable s (u.withBody va body) where
  mcr := (u.withBody_mcr va body).trans h.mcr
  wf := u.wf_withBody va body h.wf
  clear := (State.isKeyed_congr (by rw [State.withBody_disp]) 0).trans h.clear
  gst a := (u.gst_withBody va body _).trans (h.gst a)

/-- The answer is the one R124 and R125 describe. -/
theorem served_serve {s u : State} (p : PortId) (q : Request) (status len : Nat) (h : Serviceable s u) :
    Served s (u.serve p q status len) p q status len := by
  obtain ⟨hmcr, hwf, hclear, hgst⟩ := h
  obtain ⟨l, n, heq⟩ := u.serve_eq p q status len
  refine ⟨fun a ha => ?_, ?_, ?_⟩
  · obtain ⟨hva, hp, hg⟩ := ha
    obtain ⟨l, hl⟩ := State.fillCell_of_free (leBytes 8 status ++ leBytes 8 len) hva
      ((State.as0Place_congr hmcr _).trans hp) ((hgst a).trans hg)
    have hbytes := State.bytes_filledMem_clear (a := a) (bs := padTo (leBytes 8 status ++ leBytes 8 len) 64) false hwf hclear
    rw [length_padTo (by simp)] at hbytes
    rw [FilledWith, State.serve_mem, hl]
    exact ⟨by rw [State.gst_filledMem, if_pos rfl], hbytes⟩
  · rw [heq]
  · rw [heq, ← State.as0Cell_congr hmcr]
    cases p <;> rfl

section
variable {s : State} {p : PortId} {q : Request} {opc : Nat}

theorem RequestStands.serviceable (h : RequestStands s p q opc) : Serviceable s s := by
  obtain ⟨-, -, -, hwf, hclear⟩ := h
  exact ⟨rfl, hwf, hclear, fun _ => rfl⟩

/-- A state with the same memory and control registers serves the request as well, if address space 0 is as it was. -/
theorem RequestStands.serviceable_of_same {u : State} (h : RequestStands s p q opc) (hmem : u.mem = s.mem)
    (hmcr : u.mcr = s.mcr) (hasp : u.aspace? 0 = s.aspace? 0) : Serviceable s u := by
  obtain ⟨-, -, -, hwf, hclear⟩ := h
  exact ⟨hmcr, by rw [hmem]; exact hwf, (State.isKeyed_of_aspace? hasp).trans hclear, fun a => by rw [hmem]⟩

/-- A request that stands is answered with what its event gives. -/
theorem onRequest_served {f : Request → ReqRes} {r : ReqRes} (h : RequestStands s p q opc) (hf : f q = r) :
    onRequest s p opc f = .next (r.served s p q) := by
  obtain ⟨hserve, hsound, hopc, -⟩ := h
  subst hf
  cases hr : f q <;> simp only [onRequest, hserve, hsound, hopc, hr] <;> rfl

/-- The operands of a cell's request have 96 bytes (R124). -/
theorem RequestStands.length_args (h : RequestStands s p q opc) : q.args.length = 96 := by
  obtain ⟨hserve, -⟩ := h
  unfold State.servable State.requestAt at hserve
  split at hserve
  · obtain ⟨va, -, hcell⟩ := Option.bind_eq_some_iff.mp hserve
    obtain ⟨b, -, rfl⟩ := Option.map_eq_some_iff.mp hcell
    exact length_slice b 32 96
  · simp at hserve

/-- An address space with a key is not address space 0. -/
theorem RequestStands.asid_ne_zero {m : Nat} {o : Aspace} (h : RequestStands s p q opc) (ho : s.aspace? m = some o)
    (hk : o.kbind ≠ 0#384) : m ≠ 0 := by
  obtain ⟨-, -, -, -, hclear⟩ := h
  rintro rfl
  simp [State.isKeyed, ho, hk] at hclear

/-- A refusal leaves every address space as it was (R125). -/
theorem refuse_served (status : Nat) (h : RequestStands s p q opc) :
    Served s (ReqRes.served s p q (.refuse status)) p q status 0 ∧
      ∀ m, (ReqRes.served s p q (.refuse status)).aspace? m = s.aspace? m :=
  ⟨served_serve p q status 0 h.serviceable, State.aspace?_serve s p q status 0⟩

theorem refuse_served_keeps {m : Nat} {o : Aspace} (status : Nat) (h : RequestStands s p q opc) (ho : s.aspace? m = some o) :
    Served s (ReqRes.served s p q (.refuse status)) p q status 0 ∧
      (ReqRes.served s p q (.refuse status)).aspace? m = some o :=
  (refuse_served status h).imp id fun hasp => (hasp m).trans ho

/-- A body stands in its buffer once the request is answered. -/
theorem bytes_body_served {u : State} {a : Nat} {sa : Bool} (body : List Byte) (hu : Serviceable s u)
    (hp : s.as0Place q.body = some (.hbm a, sa)) (hok : bodyOk q.body = true) :
    (ReqRes.served s p q (.ok body u)).mem.bytes (.hbm a) body.length = body := by
  have hbuffer : 0x200000 ≤ q.body := by
    simp only [bodyOk, Bool.and_eq_true, decide_eq_true_eq] at hok
    omega
  have hwritten := State.bytes_withBody body hu.wf ((State.as0Place_congr hu.mcr _).trans hp)
  obtain rfl := Place.hbm.inj (State.as0Place_eq hp)
  obtain ⟨-, hwf, hclear, -⟩ := hu.withBody q.body body
  exact (State.bytes_serve p q 0 body.length body.length hbuffer hwf hclear).trans hwritten

/-! ## Certificates and reports (R125, R129) -/

theorem getCert_completes {a : Nat} (hp : s.as0Place q.body = some (.hbm a, false)) (hok : bodyOk q.body = true)
    (hst : RequestStands s p q 1) (hz : ∀ b ∈ q.args, b = 0#8) :
    Completes (.getCert p) s fun t =>
      Served s t p q 0 (Config.certificateChain.take 4096).length ∧
        t.mem.bytes (.hbm a) (Config.certificateChain.take 4096).length = Config.certificateChain.take 4096 := by
  have hnamed : q.unnamed 0 96 = false := Request.unnamed_eq_false fun b hb => hz b (List.mem_of_mem_take hb)
  exact ⟨_, onRequest_served hst (if_neg (by simp [hnamed])), served_serve p q _ _ (hst.serviceable.withBody _ _),
    bytes_body_served _ hst.serviceable hp hok⟩

/-- The body that ATTEST gives: a report with its signature, padded, and the peer table (R129). -/
def attestation (s : State) (asid : Nat) (nonce : List Byte) : List Byte :=
  padTo (s.report asid nonce ++ (s.sign (s.report asid nonce)).2) 384 ++ s.peerTable

/-- Bytes 0 to 111 of a report: its magic, version, ASID, mode, nonce and firmware measurement (R129). -/
def reportHead (s : State) (asid : Nat) (nonce : List Byte) : List Byte :=
  leBytes 4 0x45524741 ++ leBytes 2 1 ++ leBytes 2 asid ++ leBytes 1 (if s.sec.debug then 1 else 0) ++
    List.replicate 7 0#8 ++ nonce ++ bytes384 s.sec.fwm

theorem report_begins (s : State) (asid : Nat) (nonce : List Byte) : ∃ l, s.report asid nonce = reportHead s asid nonce ++ l := by
  unfold State.report
  dsimp only
  simp only [List.append_assoc, reportHead]
  exact ⟨_, rfl⟩

/-- A report and its signature fill no more than their 384 bytes (R129). -/
theorem length_report_le (s : State) (asid : Nat) {nonce : List Byte} (hn : nonce.length = 48) :
    (s.report asid nonce ++ (s.sign (s.report asid nonce)).2).length ≤ 384 := by
  have hpeers := length_sha384_le s.peerTable
  have hsig : (s.sign (s.report asid nonce)).2.length = 96 := length_ecdsaSign _ _ _
  rw [List.length_append, hsig, State.report]
  simp [hn]
  omega

theorem attestation_drop (s : State) (asid : Nat) {nonce : List Byte} (hn : nonce.length = 48) :
    (attestation s asid nonce).drop 384 = s.peerTable :=
  List.drop_left' (length_padTo (length_report_le s asid hn))

theorem length_attestation (s : State) (asid : Nat) {nonce : List Byte} (hn : nonce.length = 48) :
    384 ≤ (attestation s asid nonce).length := by
  rw [attestation, List.length_append, length_padTo (length_report_le s asid hn)]
  omega

theorem attestation_begins (s : State) (asid : Nat) (nonce : List Byte) :
    ∃ l, attestation s asid nonce = reportHead s asid nonce ++ l := by
  obtain ⟨l, h⟩ := report_begins s asid nonce
  rw [attestation, padTo, h, List.append_assoc, List.append_assoc, List.append_assoc]
  exact ⟨_, rfl⟩

theorem attest_completes {a : Nat} (hp : s.as0Place q.body = some (.hbm a, false)) (hok : bodyOk q.body = true)
    (hst : RequestStands s p q 2) (hz : ∀ b ∈ q.args.drop 50, b = 0#8)
    (hset : leNat ((q.args.drop 48).take 2) = 0xFFFF ∨ (s.aspace? (leNat ((q.args.drop 48).take 2))).isSome = true) :
    Completes (.attest p) s fun t => ∃ n, Served s t p q 0 n ∧ 384 ≤ n ∧
      t.mem.bytes (.hbm a) (reportHead s (leNat ((q.args.drop 48).take 2)) (q.args.take 48)).length =
        reportHead s (leNat ((q.args.drop 48).take 2)) (q.args.take 48) ∧
      (t.mem.bytes (.hbm a) n).drop 384 = s.peerTable := by
  have hnamed : q.unnamed 50 46 = false := Request.unnamed_eq_false fun b hb => hz b (List.mem_of_mem_take hb)
  have hnonce : slice q.args 0 48 = q.args.take 48 := slice_eq (by simp [hst.length_args])
  have hlen : (q.args.take 48).length = 48 := by simp [hst.length_args]
  have hu : Serviceable s s.nextFree := hst.serviceable_of_same rfl rfl rfl
  rw [← Request.asid_eq] at hset ⊢
  obtain ⟨body, hbody⟩ : ∃ body, body = attestation s (q.asid 48) (q.args.take 48) := ⟨_, rfl⟩
  have hwritten := bytes_body_served (p := p) body hu hp hok
  obtain ⟨l, hhead⟩ := attestation_begins s (q.asid 48) (q.args.take 48)
  rw [← hbody] at hhead
  refine ⟨_, onRequest_served (r := .ok body s.nextFree) hst ((if_neg (by simp [hnamed])).trans ((if_neg ?_).trans ?_)),
    body.length, served_serve p q 0 _ (hu.withBody q.body body), ?_, ?_, ?_⟩
  · rintro ⟨hne, hnone⟩
    obtain h | h := hset
    · exact hne h
    · simp [Option.isNone_iff_eq_none.mp hnone] at h
  · rw [hbody, ← hnonce]
    rfl
  · exact hbody ▸ length_attestation s _ hlen
  · have hle : (reportHead s (q.asid 48) (q.args.take 48)).length ≤ body.length := by
      rw [hhead, List.length_append]
      omega
    refine (Memory.take_readAll _ hle).symm.trans ((congrArg (List.take _) hwritten).trans ?_)
    rw [hhead]
    exact List.take_left
  · refine (congrArg (List.drop 384) hwritten).trans ?_
    rw [hbody]
    exact attestation_drop s _ hlen

theorem attest_unset (hst : RequestStands s p q 2) (hz : ∀ b ∈ q.args.drop 50, b = 0#8)
    (hne : leNat ((q.args.drop 48).take 2) ≠ 0xFFFF) (hnone : s.aspace? (leNat ((q.args.drop 48).take 2)) = none) :
    Completes (.attest p) s fun t => Served s t p q 2 0 := by
  have hnamed : q.unnamed 50 46 = false := Request.unnamed_eq_false fun b hb => hz b (List.mem_of_mem_take hb)
  rw [← Request.asid_eq] at hne hnone
  exact ⟨_, onRequest_served hst ((if_neg (by simp [hnamed])).trans (if_pos ⟨hne, by simp [hnone]⟩)), (refuse_served 2 hst).1⟩

/-! ## Keys and sessions (R130, R134) -/

/-- The state in which an address space, but 0, has been written serves a request as well. -/
theorem RequestStands.serviceable_setAspace {u : State} {m : Nat} (b : Aspace) (h : RequestStands s p q opc)
    (hmem : u.mem = s.mem) (hmcr : u.mcr = s.mcr) (hasp : u.disp.aspaces = s.disp.aspaces) (hm : m ≠ 0) :
    Serviceable s (u.setAspace m b) :=
  h.serviceable_of_same hmem hmcr ((State.aspace?_setAspace_ne _ _ (Ne.symm hm)).trans (by simp [State.aspace?, hasp]))

/-- A request that binds or changes an address space is answered OK, and the address space is as it says. -/
theorem ok_served {u : State} {m : Nat} {b : Aspace} (body : List Byte) (hu : Serviceable s u) (hb : u.aspace? m = some b) :
    Served s (ReqRes.served s p q (.ok body u)) p q 0 body.length ∧
      (ReqRes.served s p q (.ok body u)).aspace? m = some b := by
  refine ⟨served_serve p q 0 _ (hu.withBody q.body body), ?_⟩
  rw [ReqRes.served, State.aspace?_serve, State.aspace?, State.withBody_disp]
  exact hb

/-- The bytes of a public key are its two coordinates (R130). -/
theorem slice_point (m : Mems) (p : Place) : slice (m.bytes p 96) 0 48 = (m.bytes p 96).take 48 ∧
    slice (m.bytes p 96) 48 48 = (m.bytes p 96).drop 48 := by
  have hlen : (m.bytes p 96).length = 96 := Memory.length_readAll _ _ _
  exact ⟨slice_eq (by omega), (slice_eq (by omega)).trans (List.take_of_length_le (by simp [hlen]))⟩

section
variable {m : Nat} {o : Aspace}

/-- What KEY_AGREE of an address space that is set answers, after its operands: a fresh key is bound to the tenant's public
key (R130). -/
theorem exec_keyAgree {a : Nat} (hst : RequestStands s p q 3) (hm : leNat (q.args.take 2) = m)
    (hz : ∀ b ∈ (q.args.drop 2).take 94, b = 0#8) (hp : s.as0Place q.body = some (.hbm a, false)) (ho : s.aspace? m = some o) :
    ∃ body b,
      exec (.keyAgree p) s = .next (ReqRes.served s p q
        (if o.kbind ≠ 0#384 then .refuse 3
         else if onCurve (beNat ((s.mem.bytes (.hbm a) 96).take 48)) (beNat ((s.mem.bytes (.hbm a) 96).drop 48)) = false
           then .refuse 6
         else .ok body (s.nextFree.nextFree.setAspace m b))) ∧
      b.kbind = vec384 (sha384 (s.mem.bytes (.hbm a) 96)) ∧ b.root = o.root ∧ b.logh = o.logh ∧ b.session = o.session := by
  have hnamed := Request.unnamed_eq_false hz
  have hasid : q.asid 0 = m := (Request.asid_eq q 0).trans hm
  obtain ⟨hx, hy⟩ := slice_point s.mem (.hbm a)
  have hexec : exec (.keyAgree p) s = _ := onRequest_served hst (if_neg (by simp [hnamed]))
  simp only [hasid, ho, hp, hx, hy] at hexec
  exact ⟨_, _, hexec, rfl, rfl, rfl, rfl⟩

theorem keyAgree_completes {a : Nat} (hst : RequestStands s p q 3) (hm : leNat (q.args.take 2) = m) (hne : m ≠ 0)
    (hz : ∀ b ∈ (q.args.drop 2).take 94, b = 0#8) (hp : s.as0Place q.body = some (.hbm a, false)) (ho : s.aspace? m = some o) :
    (o.kbind = 0#384 →
      onCurve (beNat ((s.mem.bytes (.hbm a) 96).take 48)) (beNat ((s.mem.bytes (.hbm a) 96).drop 48)) = true →
      Completes (.keyAgree p) s fun t => (∃ n, Served s t p q 0 n) ∧ ∃ b, t.aspace? m = some b ∧
        b.kbind = vec384 (sha384 (s.mem.bytes (.hbm a) 96)) ∧ b.root = o.root ∧ b.logh = o.logh ∧ b.session = o.session) ∧
    (o.kbind ≠ 0#384 → Completes (.keyAgree p) s fun t => Served s t p q 3 0 ∧ t.aspace? m = some o) ∧
    (o.kbind = 0#384 →
      onCurve (beNat ((s.mem.bytes (.hbm a) 96).take 48)) (beNat ((s.mem.bytes (.hbm a) 96).drop 48)) = false →
      Completes (.keyAgree p) s fun t => Served s t p q 6 0 ∧ t.aspace? m = some o) := by
  obtain ⟨body, b, hexec, hb⟩ := exec_keyAgree hst hm hz hp ho
  refine ⟨fun hk hcurve => ?_, fun hk => ?_, fun hk hcurve => ?_⟩
  · rw [if_neg (not_not.mpr hk), if_neg (by simp [hcurve])] at hexec
    obtain ⟨hserved, hasp⟩ := ok_served (p := p) (q := q) body
      (hst.serviceable_setAspace (u := s.nextFree.nextFree) b rfl rfl rfl hne) (State.aspace?_setAspace_self _ _ _)
    exact ⟨_, hexec, ⟨_, hserved⟩, b, hasp, hb⟩
  · rw [if_pos hk] at hexec
    exact ⟨_, hexec, refuse_served_keeps 3 hst ho⟩
  · rw [if_neg (not_not.mpr hk), if_pos hcurve] at hexec
    exact ⟨_, hexec, refuse_served_keeps 6 hst ho⟩

/-- The counter of a SESSION_OPEN is above the last that was accepted, and its tag is the address space's (R134). -/
def GoodOpen (p : PortId) (q : Request) (o : Aspace) : Prop :=
  (∀ k, o.counter = some k → k.toNat < leNat ((q.args.drop 8).take 8)) ∧
  (q.args.drop 16).take 48 =
    hmac384 (bytes384 o.ks) (asciiBytes "open" ++ beBytes 1 (portNum p) ++ beBytes 8 (leNat ((q.args.drop 8).take 8)))

/-- A counter is above the last one, if there is a last one. -/
def counterAbove (n : Nat) : Option W64 → Bool
  | none => true
  | some k => decide (k.toNat < n)

theorem counterAbove_iff (n : Nat) (c : Option W64) : counterAbove n c = true ↔ ∀ k, c = some k → k.toNat < n := by
  cases c <;> simp [counterAbove]

theorem goodOpen_iff (p : PortId) (q : Request) (o : Aspace) :
    ¬((!counterAbove (leNat ((q.args.drop 8).take 8)) o.counter ||
      hmac384 (bytes384 o.ks) (asciiBytes "open" ++ beBytes 1 (portNum p) ++ beBytes 8 (leNat ((q.args.drop 8).take 8))) !=
        (q.args.drop 16).take 48) = true) ↔ GoodOpen p q o := by
  rw [GoodOpen, ← counterAbove_iff, eq_comm (a := (q.args.drop 16).take 48), Bool.or_eq_true, not_or, Bool.not_eq_true',
    Bool.not_eq_false, bne_iff_ne, not_not]

/-- The address space whose session a SESSION_OPEN has given to a port (R134). -/
def opened (p : PortId) (q : Request) (o : Aspace) : Aspace :=
  { o with session := some p, counter := some (BitVec.ofNat 64 (leNat ((q.args.drop 8).take 8))), rbctr := 0#64 }

/-- What SESSION_OPEN of a keyed address space answers, after its operands: the captures of another session are discarded
(R134, R135). -/
theorem exec_sessionOpen (hst : RequestStands s p q 4) (hm : leNat (q.args.take 2) = m)
    (hz : ∀ b ∈ (q.args.drop 2).take 6, b = 0#8) (hz' : ∀ b ∈ (q.args.drop 64).take 32, b = 0#8) (ho : s.aspace? m = some o)
    (hk : o.kbind ≠ 0#384) :
    (GoodOpen p q o → exec (.sessionOpen p) s = .next (ReqRes.served s p q
      (.ok [] ((if o.session = some p then s else s.dropCaptures m).setAspace m (opened p q o))))) ∧
    (¬GoodOpen p q o → exec (.sessionOpen p) s = .next (ReqRes.served s p q (.refuse 5))) := by
  have hnamed := Request.unnamed_eq_false hz
  have hnamed' := Request.unnamed_eq_false hz'
  have hasid : q.asid 0 = m := (Request.asid_eq q 0).trans hm
  have htag : slice q.args 16 48 = (q.args.drop 16).take 48 := slice_eq (by rw [hst.length_args]; omega)
  have hexec : exec (.sessionOpen p) s = _ := onRequest_served hst (if_neg (by simp [hnamed, hnamed']))
  simp only [hasid, ho, htag, fieldLe_eq] at hexec
  rw [if_neg hk, ← ite_not] at hexec
  have hgood := goodOpen_iff p q o
  exact ⟨fun h => hexec.trans (congrArg _ (congrArg _ (if_pos (hgood.mpr h)))),
    fun h => hexec.trans (congrArg _ (congrArg _ (if_neg (mt hgood.mp h))))⟩

theorem sessionOpen_completes (hst : RequestStands s p q 4) (hm : leNat (q.args.take 2) = m)
    (hz : ∀ b ∈ (q.args.drop 2).take 6, b = 0#8) (hz' : ∀ b ∈ (q.args.drop 64).take 32, b = 0#8) (ho : s.aspace? m = some o)
    (hk : o.kbind ≠ 0#384) :
    (GoodOpen p q o → Completes (.sessionOpen p) s fun t =>
      Served s t p q 0 0 ∧ t.aspace? m = some (opened p q o)) ∧
    (¬GoodOpen p q o → Completes (.sessionOpen p) s fun t => Served s t p q 5 0 ∧ t.aspace? m = some o) := by
  obtain ⟨hok, hrefuse⟩ := exec_sessionOpen hst hm hz hz' ho hk
  refine ⟨fun h => ⟨_, hok h, ok_served [] ?_ (State.aspace?_setAspace_self _ _ _)⟩,
    fun h => ⟨_, hrefuse h, refuse_served_keeps 5 hst ho⟩⟩
  have hne := hst.asid_ne_zero ho hk
  split
  · exact hst.serviceable_setAspace _ rfl rfl rfl hne
  · exact hst.serviceable_setAspace _ rfl rfl rfl hne

theorem sessionClose_completes (hst : RequestStands s p q 5) (hm : leNat (q.args.take 2) = m)
    (hz : ∀ b ∈ (q.args.drop 2).take 94, b = 0#8) (ho : s.aspace? m = some o) (hk : o.kbind ≠ 0#384) :
    Completes (.sessionClose p) s fun t => Served s t p q 0 0 ∧ t.aspace? m = some o.sessionless := by
  have hnamed := Request.unnamed_eq_false hz
  have hasid : q.asid 0 = m := (Request.asid_eq q 0).trans hm
  have hne := hst.asid_ne_zero ho hk
  obtain ⟨hmem, hmcr, -, hasp⟩ := s.foldl_endSession [m]
  rw [List.foldl_cons, List.foldl_nil] at hmem hmcr hasp
  have hexec : exec (.sessionClose p) s = _ := onRequest_served hst (if_neg (by simp [hnamed]))
  simp only [hasid, ho] at hexec
  rw [if_neg hk] at hexec
  exact ⟨_, hexec, ok_served [] (hst.serviceable_of_same hmem hmcr (by rw [hasp]; simp [Ne.symm hne]))
    (by rw [hasp]; simp [ho])⟩

theorem sessionClose_unset (hst : RequestStands s p q 5) (hm : leNat (q.args.take 2) = m)
    (hz : ∀ b ∈ (q.args.drop 2).take 94, b = 0#8) (hnone : s.aspace? m = none) :
    Completes (.sessionClose p) s fun t => Served s t p q 2 0 := by
  have hnamed := Request.unnamed_eq_false hz
  have hasid : q.asid 0 = m := (Request.asid_eq q 0).trans hm
  have hexec : exec (.sessionClose p) s = _ := onRequest_served hst (if_neg (by simp [hnamed]))
  simp only [hasid, hnone] at hexec
  exact ⟨_, hexec, (refuse_served 2 hst).1⟩

end

end

end Sys2Proof.Claims

namespace Sys2Proof.Proofs

open Sys2Proof.Machine Sys2Proof.Claims

/-- Settles O23: the answer of each request of the security block, refused or with its body. -/
theorem securityCommands : Obligations.SecurityCommands := by
  refine ⟨fun s p q a hp hok => ⟨getCert_completes hp hok,
      fun hst hz => ⟨attest_completes hp hok hst hz, attest_unset hst hz⟩⟩,
    fun s p q => ⟨fun a o hst hne hz hp ho => keyAgree_completes hst rfl hne hz hp ho, fun o hst hz hz' ho hk => ?_,
      fun o hst hz ho hk => sessionClose_completes hst rfl hz ho hk, fun hst hz hnone => sessionClose_unset hst rfl hz hnone⟩⟩
  obtain ⟨hopen, hrefuse⟩ := sessionOpen_completes hst rfl hz hz' ho hk
  refine ⟨fun hfresh htag => hopen ⟨hfresh, htag⟩, fun hbad => hrefuse fun ⟨hfresh, htag⟩ => ?_⟩
  obtain h | h := hbad
  · exact h hfresh
  · exact h ((slice_eq (by rw [hst.length_args]; omega)).trans htag)

end Sys2Proof.Proofs
end

section
/-! SUPPORT. The operations that leave every byte of memory alone (R151, log entry 4): the writes of cores, regions, queues and
the dispatcher's tables, the reads that are posted or withdrawn, and the translations and loads of every agent. -/

namespace Sys2Proof.Machine

/-! ## Cores and the dispatcher -/

@[simp] theorem State.setPort_mem (s : State) (p : PortId) (x : Port) : (s.setPort p x).mem = s.mem := rfl
@[simp] theorem State.setAspace_mem (s : State) (n : Nat) (a : Aspace) : (s.setAspace n a).mem = s.mem := rfl
@[simp] theorem State.setCaravan_mem (s : State) (c : Nat) (x : Caravan) : (s.setCaravan c x).mem = s.mem := rfl
@[simp] theorem State.setChain_mem (s : State) (c : ChainId) (x : Chain) : (s.setChain c x).mem = s.mem := rfl
@[simp] theorem State.setLink_mem (s : State) (n : Nat) (l : Link) : (s.setLink n l).mem = s.mem := rfl
@[simp] theorem State.setMeter_mem (s : State) (q : Nat) (m : Meter) : (s.setMeter q m).mem = s.mem := rfl
@[simp] theorem State.setCmd_mem (s : State) (e : Nat) (c : Cmd) : (s.setCmd e c).mem = s.mem := rfl
@[simp] theorem State.dropCmd_mem (s : State) (e : Nat) (c : Cmd) : (s.dropCmd e c).mem = s.mem := rfl
@[simp] theorem State.enqueueCmd_mem (s : State) (e : Nat) (c : Cmd) : (s.enqueueCmd e c).mem = s.mem := rfl
@[simp] theorem State.setPark_mem (s : State) (r site : Nat) (p : Park) : (s.setPark r site p).mem = s.mem := rfl
@[simp] theorem State.mapRegion_mem (s : State) (r : Nat) (f : Region → Region) : (s.mapRegion r f).mem = s.mem := rfl
@[simp] theorem State.passCommand_mem (s : State) (p : PortId) : (s.passCommand p).mem = s.mem := rfl
@[simp] theorem State.withdrawSem_mem (s : State) (code : Nat) : (s.withdrawSem code).mem = s.mem := rfl
@[simp] theorem State.parkSems_mem (s : State) (n : Nat) (k : Cluster) : (s.parkSems n k).mem = s.mem := rfl
@[simp] theorem State.abortFor_mem (s : State) (f : FaultRec) (cls : Nat) : (s.abortFor f cls).mem = s.mem := rfl
@[simp] theorem State.uncharged_mem (s t : State) : (s.uncharged t).mem = s.mem := rfl
@[simp] theorem Ctx.back_mem (c : Ctx) (s : State) : (c.back s).mem = s.mem := rfl
@[simp] theorem mcStop_mem (s : State) : (mcStop s).mem = s.mem := rfl
@[simp] theorem State.raiseEvent_mem (s : State) (c : CoreId) (bit : Nat) : (s.raiseEvent c bit).mem = s.mem :=
  State.setCore_mem ..

@[simp] theorem State.raiseAlert_mem (s : State) (bit : Nat) : (s.raiseAlert bit).mem = s.mem := by
  unfold State.raiseAlert
  dsimp only
  split
  · rfl
  · exact State.raiseEvent_mem ..

@[simp] theorem State.queueFault_mem (s : State) (n : Nat) (f : FaultRec) : (s.queueFault n f).mem = s.mem := by
  unfold State.queueFault
  split <;> rfl

@[simp] theorem State.endSession_mem (s : State) (n : Nat) : (s.endSession n).mem = s.mem := by
  unfold State.endSession
  split <;> rfl

@[simp] theorem State.dropCell_mem (s : State) (n : Nat) (c : FqCell) : (s.dropCell n c).mem = s.mem := by
  unfold State.dropCell
  dsimp only
  split <;> rfl

@[simp] theorem State.logImage_mem (s : State) (n : Nat) (h : Header) (l : List (Nat × BitVec 384)) :
    (s.logImage n h l).mem = s.mem := by
  unfold State.logImage
  split
  · rfl
  · split <;> rfl

@[simp] theorem State.mcDiscard_mem (s : State) (v : W64) : (s.mcDiscard v).mem = s.mem := by
  unfold State.mcDiscard
  split <;> rfl

@[simp] theorem State.pay_mem (s : State) (k : Option Nat) (n : Nat) : (s.pay k n).mem = s.mem := by
  obtain ⟨_, h⟩ := s.pay_same k n
  rw [h]

@[simp] theorem State.stepIv_mem (s : State) (m : Nat) (out : Bool) : (s.stepIv m out).mem = s.mem := by
  obtain ⟨_, _, h⟩ := s.stepIv_same m out
  rw [h]

@[simp] theorem State.sideSend_mem (s : State) (m : Nat) (l : List W64) : (s.sideSend m l).mem = s.mem :=
  State.stepIv_mem s m true

/-! ## Traps and stops -/

@[simp] theorem doubleFault_mem (s : State) (r : Nat) : (doubleFault s r).mem = s.mem := by
  unfold doubleFault
  dsimp only
  split <;> simp

@[simp] theorem trapEntry_mem (s : State) (cause : Nat) (addr info : W64) (code : BitVec 12) (word : W32) :
    (trapEntry s cause addr info code word).mem = s.mem := by
  unfold trapEntry
  dsimp only
  split
  · split <;> simp
  · split <;> simp

@[simp] theorem trapOn_mem (s : State) (c : CoreId) (cause : Nat) (word : W32) : (trapOn s c cause word).mem = s.mem :=
  trapEntry_mem ..

@[simp] theorem State.breakBarrier_mem (s : State) (k : Nat) (l : List Nat) : (s.breakBarrier k l).mem = s.mem := by
  induction l generalizing s with
  | nil => rfl
  | cons r l ih =>
    unfold State.breakBarrier
    rw [ih]
    split <;> simp

@[simp] theorem haltCore_mem (s : State) : (haltCore s).mem = s.mem := by
  unfold haltCore
  dsimp only
  split
  · simp
  · split <;> simp

/-! ## Reads at granules -/

@[simp] theorem State.dropReads_mem (s : State) (f : Reader → Bool) : (s.dropReads f).mem = s.mem := rfl
@[simp] theorem State.dropCaravanReads_mem (s : State) (c : Nat) : (s.dropCaravanReads c).mem = s.mem := rfl
@[simp] theorem State.dropPorts_mem (s : State) (l : List Nat) : (s.dropPorts l).mem = s.mem := rfl
@[simp] theorem State.dropDeferred_mem (s : State) (n : Nat) : (s.dropDeferred n).mem = s.mem := rfl
@[simp] theorem State.unpend_mem (s : State) (k : Nat) : (s.unpend k).mem = s.mem := rfl
@[simp] theorem quiesceSite_mem (s : State) (r site : Nat) : (quiesceSite s r site).mem = s.mem := rfl
@[simp] theorem State.answerReads_mem (s : State) (p : Place) (f : Read → Answer) : (s.answerReads p f).mem = s.mem := rfl
@[simp] theorem State.serveFill_mem (s : State) (p : Place) : (s.serveFill p).mem = s.mem := rfl

@[simp] theorem State.postRead_mem (s : State) (rd : Reader) (p : Place) (n : Nat) (v : Option Nat) :
    (s.postRead rd p n v).mem = s.mem := by
  unfold State.postRead
  split <;> rfl

@[simp] theorem State.askCell_mem (s : State) (rd : Reader) (p : Place) (n : Nat) : (s.askCell rd p n).mem = s.mem := by
  unfold State.askCell
  dsimp only
  split <;> rfl

@[simp] theorem State.postCommand_mem (s : State) (p : PortId) (a : W64) : (s.postCommand p a).mem = s.mem :=
  (State.chainsMoved_postCommand ..).mem_eq
@[simp] theorem State.postSecurity_mem (s : State) (p : PortId) (a : W64) : (s.postSecurity p a).mem = s.mem :=
  (State.chainsMoved_postSecurity ..).mem_eq
@[simp] theorem State.postReadback_mem (s : State) (c : ChainId) (a : W64) : (s.postReadback c a).mem = s.mem :=
  (State.chainsMoved_postReadback ..).mem_eq
@[simp] theorem State.postChains_mem (s : State) : s.postChains.mem = s.mem := s.chainsMoved_postChains.mem_eq

@[simp] theorem State.advanceCommand_mem (s : State) (p : PortId) (a : W64) : (s.advanceCommand p a).mem = s.mem := by
  unfold State.advanceCommand
  dsimp only
  split <;> simp

@[simp] theorem State.advanceSecurity_mem (s : State) (p : PortId) (a : W64) : (s.advanceSecurity p a).mem = s.mem := by
  unfold State.advanceSecurity
  dsimp only
  split <;> simp

@[simp] theorem State.advanceReadback_mem (s : State) (c : ChainId) (a : W64) : (s.advanceReadback c a).mem = s.mem := by
  unfold State.advanceReadback
  dsimp only
  split <;> simp

/-! ## Translation and loads -/

theorem mem_of_translate {s t : State} {n va : Nat} {acc : Acc} {r : Resolve} (h : s.translate n va acc = (t, r)) :
    t.mem = s.mem := by simpa [h] using (s.translate_same n va acc).mem

theorem mem_of_translateRead {s t : State} {rd : Reader} {n va : Nat} {acc : Acc} {r : Resolve}
    (h : s.translateRead rd n va acc = (t, r)) : t.mem = s.mem := by
  simpa [h] using (s.translateRead_same rd n va acc).mem

theorem mem_of_coreResolve {s t : State} {ea : W64} {acc : Acc} {r : CoreResolve} (h : s.coreResolve ea acc = (t, r)) :
    t.mem = s.mem := by simpa [h] using (s.coreResolve_same ea acc).mem

theorem mem_of_loadAt {s t : State} {rd : Reader} {asid : Nat} {p : Place} {sa : Bool} {n : Nat} {v : Option Nat} {r : LoadRes}
    (h : s.loadAt rd asid p sa n v = (t, r)) : t.mem = s.mem := by
  obtain h' | h' := s.loadAt_same rd asid p sa n v <;> simp_all

theorem mem_of_resolveIn {s t : State} {k : Cluster} {region : Nat} {sp : Space} {a : Nat} {acc : Acc} {rd : Option Reader}
    {r : Resolve} (h : s.resolveIn k region sp a acc rd = (t, r)) : t.mem = s.mem := by
  unfold State.resolveIn at h
  split at h
  · split at h
    · exact mem_of_translateRead h
    · exact mem_of_translate h
  · cases h; rfl
  · cases h; rfl

theorem mem_of_cmdResolve {s t : State} {e : Nat} {c : Cmd} {sp a : Nat} {acc : Acc} {r : Resolve}
    (h : s.cmdResolve e c sp a acc = (t, r)) : t.mem = s.mem := by
  unfold State.cmdResolve at h
  split at h
  · split at h
    · exact mem_of_resolveIn h
    · cases h; rfl
  · split at h
    · exact mem_of_translateRead h
    · exact mem_of_translate h

theorem mem_of_saPlace {s t : State} {n va : Nat} {o : Option Place} (h : s.saPlace n va = (t, o)) : t.mem = s.mem := by
  grind [State.saPlace, → mem_of_translate]

theorem mem_of_askHead {s t : State} {c n va : Nat} {b : Bool} (h : s.askHead c n va = (t, b)) : t.mem = s.mem := by
  grind [State.askHead, → mem_of_saPlace, = State.askCell_mem]

theorem mem_of_launchCell {s t : State} {va : Nat} {r : Resolve} (h : s.launchCell va = (t, r)) : t.mem = s.mem := by
  grind [State.launchCell, → mem_of_translate]

theorem mem_of_askDeps {s t : State} {c n : Nat} {l : List Nat} {b : Bool} (h : s.askDeps c n l = (t, b)) : t.mem = s.mem := by
  induction l generalizing s with
  | nil => cases h; rfl
  | cons a l ih => grind [State.askDeps, → mem_of_saPlace, = State.askCell_mem]

theorem mem_of_bulkLoad {s t : State} {ea : W64} {g : Nat} {acc : List Byte} {r : BulkRes}
    (h : s.bulkLoad ea g acc = (t, r)) : t.mem = s.mem := by
  induction g generalizing s ea acc with
  | zero => cases h; rfl
  | succ g ih => grind [State.bulkLoad, → mem_of_coreResolve, → mem_of_loadAt, = State.charge_mem]

theorem mem_of_asGranules {s t : State} {rd : Reader} {asid n a : Nat} {acc : List Byte} {r : ReadRes}
    (h : s.asGranules rd asid n a acc = (t, r)) : t.mem = s.mem := by
  induction n generalizing s a acc with
  | zero => cases h; rfl
  | succ n ih => grind [State.asGranules, → mem_of_translateRead, → mem_of_loadAt]

section
variable {s t : State} {rd : Reader} {kn : Nat} {k : Cluster} {region : Nat}

theorem mem_of_readGranules {sp : Space} {n a : Nat} {acc : List Byte} {r : ReadRes}
    (h : s.readGranules rd kn k region sp n a acc = (t, r)) : t.mem = s.mem := by
  induction n generalizing s a acc with
  | zero => cases h; rfl
  | succ n ih => grind [State.readGranules, → mem_of_resolveIn, → mem_of_loadAt, = State.charge_mem]

theorem mem_of_readRange {sp : Space} {a n : Nat} {r : ReadRes} (h : s.readRange rd kn k region sp a n = (t, r)) :
    t.mem = s.mem := by grind [State.readRange, → mem_of_readGranules]

theorem mem_of_findEntry {id n a : Nat} {r : ReadRes} (h : s.findEntry rd kn k region id n a = (t, r)) : t.mem = s.mem := by
  induction n generalizing s a with
  | zero => cases h; rfl
  | succ n ih => grind [State.findEntry, → mem_of_readRange]

theorem mem_of_dirEntry {id : Nat} {r : ReadRes} (h : s.dirEntry rd kn k region id = (t, r)) : t.mem = s.mem := mem_of_findEntry h

theorem mem_of_checkTables {l : List (At Rec × Desc)} {acc : List Reject} {r : Except ReadRes (List Reject)}
    (h : s.checkTables rd kn k region l acc = (t, r)) : t.mem = s.mem := by
  induction l generalizing s acc with
  | nil => cases h; rfl
  | cons q l ih => grind [State.checkTables, → mem_of_readRange]

theorem mem_of_checkImage {words exits : List W32} {r : ImageRes} (h : s.checkImage rd kn k region words exits = (t, r)) :
    t.mem = s.mem := by grind [State.checkImage, → mem_of_checkTables]

theorem mem_of_readImage {entry : List Byte} {r : ImageRes} (h : s.readImage rd kn k region entry = (t, r)) : t.mem = s.mem := by
  grind [State.readImage, → mem_of_readRange, → mem_of_checkImage, = State.uncharged_mem]

theorem mem_of_fetchImage {id : Nat} {r : ImageRes} (h : s.fetchImage rd kn k region id = (t, r)) : t.mem = s.mem := by
  grind [State.fetchImage, → mem_of_dirEntry, → mem_of_readImage]

end

theorem mem_of_recheck {s t : State} {n : Nat} {k : Cluster} {r : Nat} {l : List Entry} {o : Recheck (List (Nat × Cfg))}
    (h : s.recheck n k r l = (t, o)) : t.mem = s.mem := by
  induction l generalizing s t o with
  | nil => cases h; rfl
  | cons e l ih => grind [State.recheck, → mem_of_fetchImage]

theorem mem_of_recheckAll {s t : State} {n : Nat} {k : Cluster} {l : List (Nat × Region)}
    {o : Recheck (List (List (Nat × Cfg)))} (h : s.recheckAll n k l = (t, o)) : t.mem = s.mem := by
  induction l generalizing s t o with
  | nil => cases h; rfl
  | cons e l ih => grind [State.recheckAll, → mem_of_recheck]

@[simp] theorem State.prefetch_mem (s : State) (r id : Nat) (pred : Bool) : (s.prefetch r id pred).mem = s.mem := by
  grind [State.prefetch, → mem_of_fetchImage, = State.mapRegion_mem, = State.fatalFault_mem]

end Sys2Proof.Machine
end

section
/-! SUPPORT. The events of the elements that leave every byte of memory alone (R214, R306, R407, R408): an access that issues, is
issued again or parks, a token that parks, and what the loading, storing and reading elements make of their state. -/

namespace Sys2Proof.Machine

/-! ## Parking and issuing -/

@[simp] theorem Ctx.raise_mem (c : Ctx) (s : State) (k cls acc addr : Nat) (j : List W32) (e : W32) :
    (c.raise s k cls acc addr j e).mem = s.mem := by
  unfold Ctx.raise
  split <;> simp

@[simp] theorem Ctx.parkToken_mem (c : Ctx) (s : State) (k port : Nat) (t : Token) (acc addr : Nat) (j : List W32) :
    (c.parkToken s k port t acc addr j).mem = s.mem := by simp [Ctx.parkToken]

@[simp] theorem Ctx.parkAccess_mem (c : Ctx) (s : State) (k : Nat) (a : Access) (cls gst : Nat) :
    (c.parkAccess s k a cls gst).mem = s.mem := by
  unfold Ctx.parkAccess
  dsimp only
  split <;> simp

@[simp] theorem Ctx.issue_mem (c : Ctx) (s : State) (k : Nat) (a : Access) (n : Nat) : (c.issue s k a n).mem = s.mem := by
  grind [Ctx.issue, → mem_of_resolveIn, = Ctx.back_mem, = Ctx.parkAccess_mem, = State.fatalFault_mem]

@[simp] theorem parkPoisoned_mem (s : State) (c : Ctx) (port : Nat) (t : Token) (off : Option Int) :
    (parkPoisoned s c port t off).mem = s.mem := Ctx.parkToken_mem ..
@[simp] theorem parkRemote_mem (s : State) (c : Ctx) (port : Nat) (t : Token) (off : Option Int) :
    (parkRemote s c port t off).mem = s.mem := Ctx.parkToken_mem ..
@[simp] theorem parkBeat_mem (s : State) (c : Ctx) (k port : Nat) (t : Token) : (parkBeat s c k port t).mem = s.mem :=
  Ctx.parkToken_mem ..
@[simp] theorem Ctx.parkTable_mem (c : Ctx) (s : State) (k : Nat) (t : Token) (cls addr : Nat) (sp : Space) :
    (c.parkTable s k t cls addr sp).mem = s.mem := Ctx.raise_mem ..
@[simp] theorem Ctx.dropTable_mem (c : Ctx) (s : State) (k : Nat) : (c.dropTable s k).mem = s.mem := rfl
@[simp] theorem passOn_mem (s : State) (c : Ctx) (q : Nat) (t : Token) : (passOn s c q t).mem = s.mem := rfl

@[simp] theorem joinGroup_mem (s : State) (c : Ctx) (port : Nat) (t : Token) : (joinGroup s c port t).mem = s.mem := by
  unfold joinGroup
  dsimp only
  split <;> simp

theorem mem_of_reissue {c : Ctx} {s t : State} {k : Nat} (h : c.reissue s k = some t) : t.mem = s.mem := by
  grind [Ctx.reissue, = Ctx.back_mem, = Ctx.issue_mem]

theorem mem_of_issueRemote {c : Ctx} {s t : State} {kind : AccKind} {addr : Nat} {data : Beat} {poison : Bool}
    (h : c.issueRemote s kind addr data poison = some t) : t.mem = s.mem := by
  grind [Ctx.issueRemote, = Ctx.issue_mem]

/-! ## Loading and storing generators -/

section
variable {s t : State} {c : Ctx} {k : Nat}

theorem mem_of_loadPoint (h : loadPoint s c k = some t) : t.mem = s.mem := by
  grind [loadPoint, = Ctx.back_mem, = Ctx.issue_mem]

theorem mem_of_loadEvent {start : Ctx → Option Ctx} (h : loadEvent start s c k = some t) : t.mem = s.mem := by
  grind [loadEvent, → mem_of_reissue, → mem_of_loadPoint, = Ctx.back_mem]

theorem mem_of_storePoint {kind : AccKind} {data : Beat} {close : Bool} {taken fin : Ctx → Ctx}
    (h : storePoint s c k kind data close taken fin = some t) : t.mem = s.mem := by
  grind [storePoint, = Ctx.issue_mem]

theorem mem_of_storeBeat {port : Nat} {x : Token} {held close : Bool} {taken fin : Ctx → Ctx}
    (h : storeBeat s c k port x held close taken fin = some t) : t.mem = s.mem := by
  grind [storeBeat, → mem_of_storePoint, = Ctx.back_mem]

theorem mem_of_astoreEvent (h : astoreEvent s c k = some t) : t.mem = s.mem := by
  grind [astoreEvent, → mem_of_reissue, → mem_of_storeBeat, = Ctx.back_mem, = parkBeat_mem]

theorem mem_of_scatterEvent (h : scatterEvent s c k = some t) : t.mem = s.mem := by
  grind [scatterEvent, → mem_of_reissue, → mem_of_storeBeat, = Ctx.back_mem, = parkBeat_mem, = Ctx.parkToken_mem]

theorem mem_of_fillEvent {kind : AccKind} (h : fillEvent kind s c k = some t) : t.mem = s.mem := by
  grind [fillEvent, → mem_of_reissue, → mem_of_storePoint, = Ctx.back_mem, = Ctx.parkToken_mem]

theorem mem_of_dloadPoint (h : dloadPoint s c = some t) : t.mem = s.mem := by grind [dloadPoint, = Ctx.issue_mem]

theorem mem_of_dloadEvent (h : dloadEvent s c k = some t) : t.mem = s.mem := by
  grind [dloadEvent, → mem_of_reissue, → mem_of_dloadPoint, = Ctx.back_mem]

end

/-! ## Bridges -/

section
variable {s t : State} {c : Ctx}

theorem mem_of_ereqIssue {q : Nat} {b : Block} {g : List Nat} (h : ereqIssue s c q b g = some t) : t.mem = s.mem := by
  grind [ereqIssue, = State.enqueueCmd_mem, = Ctx.back_mem]

theorem mem_of_ereqTable {q : Nat} {b : Block} (h : ereqTable s c q b = some t) : t.mem = s.mem := by
  unfold ereqTable at h
  split at h
  · cases h
  · dsimp only at h
    split at h
    · grind [= passOn_mem]
    · split at h
      · split at h
        · grind [→ mem_of_readRange, = passOn_mem, = State.dropReads_mem]
        · split at h
          · grind [→ mem_of_readRange, → mem_of_ereqIssue, = passOn_mem, = State.dropReads_mem]
          · grind [→ mem_of_readRange, = passOn_mem, = State.dropReads_mem, = State.uncharged_mem, = State.fatalFault_mem,
              = Ctx.parkAccess_mem]
      · grind [→ mem_of_readRange, = passOn_mem, = State.dropReads_mem, = State.uncharged_mem, = State.fatalFault_mem,
              = Ctx.parkAccess_mem]

theorem mem_of_ereqEvent (h : ereqEvent s c = some t) : t.mem = s.mem := by
  grind [ereqEvent, → mem_of_ereqTable, → mem_of_ereqIssue, = passOn_mem]

theorem mem_of_rloadTake (h : rloadTake s c = some t) : t.mem = s.mem := by
  grind [rloadTake, → mem_of_issueRemote, = Ctx.back_mem]

theorem mem_of_rloadEvent (h : rloadEvent s c = some t) : t.mem = s.mem := by
  grind [rloadEvent, → mem_of_reissue, → mem_of_rloadTake, = Ctx.back_mem]

theorem mem_of_rstoreApply (h : rstoreApply s c = some t) : t.mem = s.mem := by
  grind [rstoreApply, → mem_of_issueRemote, = parkRemote_mem, = Ctx.back_mem]

theorem mem_of_rstoreEvent (h : rstoreEvent s c = some t) : t.mem = s.mem := by
  have hget (c : Ctx) : ((rstoreApply s c).getD (c.back s)).mem = s.mem := by
    cases ha : rstoreApply s c with
    | none => rfl
    | some u => exact mem_of_rstoreApply ha
  grind [rstoreEvent, → mem_of_reissue, → mem_of_rstoreApply, = Ctx.back_mem]

theorem mem_of_ratomTake (h : ratomTake s c = some t) : t.mem = s.mem := by
  grind [ratomTake, → mem_of_issueRemote, = Ctx.back_mem]

theorem mem_of_ratomEvent (h : ratomEvent s c = some t) : t.mem = s.mem := by
  grind [ratomEvent, → mem_of_reissue, → mem_of_ratomTake, = Ctx.back_mem]

/-! ## Masks and scans -/

theorem mem_of_readTable {k : Nat} {r : TableRes} (h : c.readTable s k = (t, r)) : t.mem = s.mem := by
  grind [Ctx.readTable, → mem_of_readRange, = State.uncharged_mem]

theorem mem_of_classEmit {k : Nat} {x : Token} {both : Bool} {n : Option Nat} (h : classEmit s c k x both n = some t) :
    t.mem = s.mem := by grind [classEmit, = Ctx.back_mem]

/-- A run table is read without a change of memory, so that what goes on from it decides. -/
theorem mem_of_withTable {k : Nat} {x : Token} {go : State → Option (List RunEntry) → Option State}
    (hgo : ∀ s1 o, go s1 o = some t → t.mem = s1.mem) (h : withTable s c k x go = some t) : t.mem = s.mem := by
  unfold withTable at h
  split at h
  all_goals have := mem_of_readTable ‹c.readTable s k = _›
  · rw [hgo _ _ h]; simpa
  · rw [hgo _ _ h]; simpa
  · grind
  · grind [= Ctx.parkTable_mem, = Ctx.dropTable_mem]
  · grind [Option.map_eq_some_iff, = State.fatalFault_mem]

theorem mem_of_mclassFire (h : mclassFire s c = some t) : t.mem = s.mem := by
  unfold mclassFire at h
  grind [→ mem_of_withTable, → mem_of_classEmit]

theorem mem_of_pmaskFire (h : pmaskFire s c = some t) : t.mem = s.mem := by
  unfold pmaskFire at h
  grind [→ mem_of_withTable, = Ctx.back_mem]

theorem mem_of_pmaskRow (h : pmaskRow s c = some t) : t.mem = s.mem := by
  unfold pmaskRow at h
  split at h
  · cases h
  · dsimp only at h
    split at h
    · cases h
    · split at h
      all_goals have := mem_of_readTable ‹c.readTable s 0 = _›
      all_goals grind [= Ctx.back_mem, = Ctx.raise_mem, = Ctx.dropTable_mem, = State.fatalFault_mem, Option.map_eq_some_iff]

end

/-! ## The life of an element (R202, R422) -/

@[simp] theorem State.adoptCount_mem (s : State) (r site : Nat) : (s.adoptCount r site).mem = s.mem := by
  unfold State.adoptCount
  split <;> rfl

theorem mem_of_adoptRunning {s t : State} {c : Ctx} (h : adoptRunning s c = some t) : t.mem = s.mem := by
  grind [adoptRunning, = State.setRegion_mem]

/-- What leaves memory alone at each item of a list leaves it alone over the list. -/
theorem mem_foldl {α : Type} {f : State → α → State} (hf : ∀ s a, (f s a).mem = s.mem) (l : List α) (s : State) :
    (l.foldl f s).mem = s.mem := List.foldlRecOn (motive := fun t => t.mem = s.mem) l f rfl (fun t h a _ => (hf t a).trans h)

theorem mem_of_adoptSite {s t : State} {r site : Nat} (h : adoptSite s r site = some t) : t.mem = s.mem := by
  unfold adoptSite at h
  dsimp only at h
  split at h
  · cases h
  · obtain ⟨u, hu, rfl⟩ := Option.map_eq_some_iff.mp h
    rw [mem_foldl (by simp), State.setRegion_mem]
    split at hu
    · obtain ⟨c, -, hc⟩ := Option.bind_eq_some_iff.mp hu
      exact mem_of_adoptRunning hc
    · grind [= State.setRegion_mem]

theorem mem_of_freezeElement {s t : State} {r site : Nat} (h : freezeElement s r site = some t) : t.mem = s.mem := by
  unfold freezeElement at h
  have hl (l : List Nat) (s : State) : (l.foldl (fun s n => quiesceSite s r n) s).mem = s.mem := mem_foldl (by simp) l s
  grind [= State.setRegion_mem]

theorem mem_of_storeChange {s t : State} {r n : Nat} (h : storeChange s r n = some t) : t.mem = s.mem := by
  grind [storeChange, = State.setRegion_mem]

end Sys2Proof.Machine
end

section
/-! SUPPORT. The operations that write memory keep its canonical form (R3, R118, R131, R151, R289): the SRAM and the phases of the
power agreements that a write of it clears, the bytes of an access, a granule's presence, and a cell of address space 0. -/

namespace Sys2Proof.Machine

/-- What keeps the canonical form at each item of a list keeps it over the list. -/
theorem wf_foldl {α : Type} {f : State → α → State} (hf : ∀ s a, s.mem.wf = true → (f s a).mem.wf = true) (l : List α)
    {s : State} (h : s.mem.wf = true) : (l.foldl f s).mem.wf = true :=
  List.foldlRecOn (motive := fun t => t.mem.wf = true) l f h (fun t ht a _ => hf t a ht)

/-! ## The SRAM -/

theorem State.wf_setSram {s : State} (a n v : Nat) (h : s.mem.wf = true) : (s.setSram a n v).mem.wf = true :=
  Mems.wf_setBytes h _ _

@[simp] theorem State.sendPhase_mem (s : State) (i n : Nat) : (s.sendPhase i n).mem = s.mem := mem_foldl (by simp) _ _

theorem State.wf_clearPhases {s : State} (i : Nat) (h : s.mem.wf = true) : (s.clearPhases i).mem.wf = true := by
  have h2 : ((s.setSram (paceAt i + 8) 8 0).setSram (paceAt i + 16) 8 0).mem.wf = true := wf_setSram _ _ _ (wf_setSram _ _ _ h)
  unfold State.clearPhases
  dsimp only
  split
  · rw [State.sendPhase_mem]; exact h2
  · exact h2

theorem State.wf_storeSram {s : State} (a : Nat) (bs : List Byte) (h : s.mem.wf = true) : (s.storeSram a bs).mem.wf = true :=
  wf_foldl (fun _ i ht => wf_clearPhases i ht) _ (Mems.wf_setBytes h _ _)

theorem State.wf_setMinph {s : State} (i : Nat) (h : s.mem.wf = true) : (s.setMinph i).mem.wf = true := wf_setSram _ _ _ h

theorem State.wf_raisePhase {s : State} (i : Nat) (h : s.mem.wf = true) : (s.raisePhase i).mem.wf = true := by
  unfold State.raisePhase
  rw [State.sendPhase_mem]
  exact wf_setMinph i (wf_setSram _ _ _ h)

theorem State.wf_advancePhase {s : State} (n : Nat) (g : List Nat) (h : s.mem.wf = true) : (s.advancePhase n g).mem.wf = true :=
  wf_foldl (fun _ i ht => wf_raisePhase i ht) _ h

/-! ## Bytes and presence -/

theorem State.wf_storeBytes {s : State} (asid : Nat) (p : Place) (bs : List Byte) (h : s.mem.wf = true) :
    (s.storeBytes asid p bs).mem.wf = true := by
  unfold State.storeBytes
  split
  · split
    · exact Mems.wf_setBytes h _ _
    · dsimp only
      split <;> exact Mems.wf_setBytes h _ _
  · exact wf_storeSram _ _ h
  · exact Mems.wf_setBytes h _ _

theorem State.wf_storeCipher {s : State} (p : Place) (bs : List Byte) (h : s.mem.wf = true) : (s.storeCipher p bs).mem.wf = true := by
  unfold State.storeCipher
  dsimp only
  split <;> exact Mems.wf_setBytes h _ _

theorem State.wf_writeBody {s : State} (a : Nat) (bs : List Byte) (h : s.mem.wf = true) : (s.writeBody a bs).mem.wf = true := by
  unfold State.writeBody
  split
  · exact Mems.wf_setBytes h _ _
  · exact h

@[simp] theorem State.wf_clearGranule (s : State) (p : Place) : (s.clearGranule p).mem.wf = s.mem.wf := by simp [State.clearGranule]

@[simp] theorem State.wf_voidGranule (s : State) (p : Place) : (s.voidGranule p).mem.wf = s.mem.wf := by
  unfold State.voidGranule
  split <;> simp

theorem wf_of_storeBy {s t : State} {f : State → State} {p : Place} {sa mark : Bool} (hf : s.mem.wf = true → (f s).mem.wf = true)
    (h : s.storeBy f p sa mark = .ok t) (hs : s.mem.wf = true) : t.mem.wf = true := by
  unfold State.storeBy at h
  split at h
  · split at h
    · cases h; simpa using hf hs
    · cases h
  · cases h; exact hf hs

theorem wf_of_storeAt {s t : State} {asid : Nat} {p : Place} {sa mark : Bool} {bs : List Byte}
    (h : s.storeAt asid p sa bs mark = .ok t) (hs : s.mem.wf = true) : t.mem.wf = true :=
  wf_of_storeBy (State.wf_storeBytes asid p bs) h hs

theorem wf_of_saStore {s t : State} {n va : Nat} {bs : List Byte} {b : Bool} (h : s.saStore n va bs = (t, b))
    (hs : s.mem.wf = true) : t.mem.wf = true := by
  grind [State.saStore, → mem_of_translate, → wf_of_storeAt]

theorem wf_of_writeCompl {s t : State} {n : Nat} {c : W64} {bs : List Byte} {b : Bool} (h : s.writeCompl n c bs = (t, b))
    (hs : s.mem.wf = true) : t.mem.wf = true := by
  grind [State.writeCompl, → wf_of_saStore]

theorem State.wf_writeRecord {s : State} (k : Cluster) (bs : List Byte) (h : s.mem.wf = true) : (s.writeRecord k bs).mem.wf = true := by
  grind [State.writeRecord, → wf_of_writeCompl, = State.notify_mem]

theorem State.wf_putImage {s : State} (asid : Nat) (keyed : Bool) (pages : List Nat) (bs : List Byte) (h : s.mem.wf = true) :
    (s.putImage asid keyed pages bs).mem.wf = true :=
  List.foldlRecOn (motive := fun m : Mems => m.wf = true) _ _ h (fun _ hm _ _ => Mems.wf_setBytes hm _ _)

theorem State.wf_refreshCells {s : State} (n : Nat) (h : s.mem.wf = true) : (s.refreshCells n).mem.wf = true := by
  unfold State.refreshCells
  split
  · exact h
  · exact wf_putImage _ _ _ _ h

/-! ## Cells of address space 0 and semaphores -/

theorem State.wf_fillCell {s : State} (va : Nat) (bs : List Byte) (h : s.mem.wf = true) : (s.fillCell va bs).mem.wf = true := by
  grind [State.fillCell, → wf_of_storeAt]

theorem State.wf_reply {s : State} (a : W64) (n : Nat) (h : s.mem.wf = true) : (s.reply a n).mem.wf = true := wf_fillCell _ _ h

theorem State.wf_clearCell {s : State} (va : Nat) (h : s.mem.wf = true) : (s.clearCell va).mem.wf = true := by
  unfold State.clearCell
  split
  · simpa using wf_storeBytes _ _ _ h
  · exact h

theorem State.wf_granted {s : State} (code : Nat) (h : s.mem.wf = true) : (s.granted code).mem.wf = true := by
  grind [State.granted, State.wf_reply, = State.advanceCommand_mem, = State.setPort_mem, = State.setCore_mem]

theorem State.wf_releaseSem {s : State} (n code : Nat) (h : s.mem.wf = true) : (s.releaseSem n code).mem.wf = true := by
  unfold State.releaseSem
  split
  · exact h
  · exact wf_granted _ h

theorem State.wf_releaseAll {s : State} (code : Nat) (h : s.mem.wf = true) : (s.releaseAll code).mem.wf = true :=
  wf_foldl (fun _ _ ht => wf_releaseSem _ _ ht) _ h

theorem State.wf_releaseSems {s : State} (l : List Nat) (h : s.mem.wf = true) : (s.releaseSems l).mem.wf = true :=
  wf_foldl (fun _ _ ht => wf_releaseSem _ _ ht) _ (by rwa [mem_foldl (by simp)])

/-! ## Memory that is handed over or given back -/

/-- Entries may be taken out of a memory in canonical form. -/
theorem Memory.above_filter (q : Host.Cell → Bool) {m : List Host.Cell} {n : Nat} (h : Memory.above n m = true) :
    Memory.above n (m.filter q) = true := by
  induction m generalizing n with
  | nil => rfl
  | cons c m ih =>
    simp only [Memory.above, Bool.and_eq_true, decide_eq_true_eq] at h
    obtain ⟨⟨hn, hc⟩, hm⟩ := h
    rw [List.filter_cons]
    split
    · simp only [Memory.above, Bool.and_eq_true, decide_eq_true_eq]
      exact ⟨⟨hn, hc⟩, ih hm⟩
    · exact Memory.above_mono (ih hm) (by omega)

theorem Mems.wf_zeroTiles {m : Mems} (r : Nat) (h : m.wf = true) : (m.zeroTiles r).wf = true :=
  Mems.wf_setList h (.tile 0 0 0) (Memory.above_filter _ (Mems.wf_list h (.tile 0 0 0)))

theorem Mems.wf_zeroBanks {m : Mems} (l : List Nat) (h : m.wf = true) : (m.zeroBanks l).wf = true :=
  Mems.wf_setList h (.bank 0 0) (Memory.above_filter _ (Mems.wf_list h (.bank 0 0)))

theorem State.wf_freeRegion {s : State} (r : Nat) (h : s.mem.wf = true) : (s.freeRegion r).mem.wf = true := Mems.wf_zeroTiles r h

theorem State.wf_handBanks {s : State} (n : Nat) (psa : Bool) (l : List Nat) (h : s.mem.wf = true) :
    (s.handBanks n psa l).mem.wf = true := Mems.wf_zeroBanks _ h

theorem State.wf_restoreMem {s : State} (sv : Saved) (k : Cluster) (d : Int) (h : s.mem.wf = true) :
    (s.restoreMem sv k d).mem.wf = true := by
  refine List.foldlRecOn (motive := fun m : Mems => m.wf = true) _ _ ?lines (fun _ hm _ _ => Mems.wf_setBytes hm _ _)
  refine List.foldlRecOn (motive := fun m : Mems => m.wf = true) _ _ ?bytes (fun m hm g _ => ?gst)
  case gst => split <;> simpa
  refine List.foldlRecOn (motive := fun m : Mems => m.wf = true) _ _ (wf_handBanks _ _ _ h) (fun m hm c _ => ?_)
  split
  · exact Mems.wf_setBytes hm _ _
  · exact hm

end Sys2Proof.Machine
end

section
/-! SUPPORT. The events that write memory keep its canonical form (R151, log entry 4): an access that is performed, the owners, the
engines, the replies of a fault queue, the end of a cluster, its snapshot, and a round of the arbiter. -/

namespace Sys2Proof.Machine

/-! ## Accesses that are performed, and owners -/

section
variable {s t : State} {c : Ctx}

theorem performLoad_mem (s : State) (k : Nat) (a : Access) (p : Place) (c : Ctx) (n : Nat) :
    (performLoad s k a p c n).mem = s.mem := by
  unfold performLoad
  dsimp only
  split
  all_goals have := mem_of_loadAt ‹s.loadAt _ _ _ _ _ = _›
  · simpa
  · simpa
  · split
    · rfl
    · assumption

theorem wf_performStore (k : Nat) (a : Access) (p : Place) (n : Nat) (h : s.mem.wf = true) :
    (performStore s k a p c n).mem.wf = true := by
  have hclear : ((s.unpend k).clearGranule p).mem.wf = true := by simpa
  grind [performStore, → wf_of_storeAt, = State.unpend_mem, = Ctx.parkAccess_mem, = Ctx.back_mem, = State.charge_mem]

theorem wf_performAtom (k : Nat) (a : Access) (p : Place) (n : Nat) (h : s.mem.wf = true) :
    (performAtom s k a p c n).mem.wf = true := by
  grind [performAtom, State.wf_storeBytes, = State.unpend_mem, = Ctx.parkAccess_mem, = Ctx.back_mem, = State.charge_mem]

theorem wf_of_performAccess {k : Nat} (h : performAccess s k = some t) (hs : s.mem.wf = true) : t.mem.wf = true := by
  grind [performAccess, performLoad_mem, wf_performStore, wf_performAtom, = State.unpend_mem, = State.fatalFault_mem]

theorem wf_of_reachLine {off : Nat} {acc : AccKind} {go : LineGo}
    (hgo : ∀ s1 p, go s1 p = some t → s1.mem.wf = true → t.mem.wf = true) (h : reachLine s c off acc go = some t)
    (hs : s.mem.wf = true) : t.mem.wf = true := by
  unfold reachLine at h
  grind [→ mem_of_resolveIn, = Ctx.parkAccess_mem, = State.fatalFault_mem, = Ctx.back_mem, = State.charge_mem]

theorem wf_of_lineUpdate (h : lineUpdate s c = some t) (hs : s.mem.wf = true) : t.mem.wf = true := by
  unfold lineUpdate at h
  dsimp only at h
  split at h
  · grind [= Ctx.back_mem]
  · split at h
    · grind [= parkPoisoned_mem]
    · split at h
      · grind [= Ctx.back_mem]
      · exact wf_of_reachLine (by grind [State.wf_storeBytes, = Ctx.back_mem]) h hs

theorem wf_of_lineEvent (h : lineEvent s c = some t) (hs : s.mem.wf = true) : t.mem.wf = true := by
  grind [lineEvent, lineFire, → wf_of_lineUpdate]

theorem wf_of_binLane (h : binLane s c = some t) (hs : s.mem.wf = true) : t.mem.wf = true := by
  unfold binLane at h
  extract_lets o x l v at h
  split at h
  · grind [= Ctx.back_mem]
  · exact wf_of_reachLine (by grind [State.wf_storeBytes, = Ctx.back_mem]) h hs

theorem wf_of_binEvent (h : binEvent s c = some t) (hs : s.mem.wf = true) : t.mem.wf = true := by
  grind [binEvent, → wf_of_binLane, = parkPoisoned_mem, = Ctx.back_mem]

theorem wf_of_blockApply (h : blockApply s c = some t) (hs : s.mem.wf = true) : t.mem.wf = true := by
  unfold blockApply at h
  dsimp only at h
  split at h
  · grind [= Ctx.back_mem]
  · split at h
    · grind [= Ctx.back_mem]
    · exact wf_of_reachLine (by grind [State.wf_storeBytes, = Ctx.back_mem]) h hs

theorem wf_of_omxaccEvent (h : omxaccEvent s c = some t) (hs : s.mem.wf = true) : t.mem.wf = true := by
  grind [omxaccEvent, → wf_of_blockApply, = joinGroup_mem, = Ctx.back_mem]

end

/-! ## Engines -/

section
variable {s t : State} {e : Nat} {c : Cmd}

@[simp] theorem cmdPark_mem (s : State) (e : Nat) (c : Cmd) (cls : Nat) (acc : Acc) (sp gst addr : Nat) :
    (cmdPark s e c cls acc sp gst addr).mem = s.mem := by
  unfold cmdPark
  split <;> simp

@[simp] theorem cmdFatal_mem (s : State) (e : Nat) (c : Cmd) (cls : Nat) : (cmdFatal s e c cls).mem = s.mem := by
  unfold cmdFatal
  split <;> simp

theorem mem_of_cmdRead {a : Nat} {go : List Byte → Cmd} (h : cmdRead s e c a go = some t) : t.mem = s.mem := by
  grind [cmdRead, → mem_of_cmdResolve, → mem_of_loadAt, = cmdPark_mem, = cmdFatal_mem, = State.setCmd_mem, = State.charge_mem,
    = State.dropReads_mem]

theorem wf_of_cmdWrite {a : Nat} {bs : List Byte} {next : Cmd} (h : cmdWrite s e c a bs next = some t) (hs : s.mem.wf = true) :
    t.mem.wf = true := by
  grind [cmdWrite, → mem_of_cmdResolve, → wf_of_storeAt, = cmdPark_mem, = cmdFatal_mem, = State.setCmd_mem, = State.charge_mem]

theorem wf_of_writeOut (h : writeOut s e c = some t) (hs : s.mem.wf = true) : t.mem.wf = true := wf_of_cmdWrite h hs
theorem wf_of_writeIdx (h : writeIdx s e c = some t) (hs : s.mem.wf = true) : t.mem.wf = true := wf_of_cmdWrite h hs
theorem mem_of_readRow {f : Cmd → Cmd} (h : readRow s e c f = some t) : t.mem = s.mem := mem_of_cmdRead h

theorem wf_of_moveRows {f : Cmd → Cmd} (h : moveRows f s e c = some t) (hs : s.mem.wf = true) : t.mem.wf = true := by
  grind [moveRows, → wf_of_writeOut, → mem_of_readRow, = State.setCmd_mem]

theorem wf_of_packRows (h : packRows s e c = some t) (hs : s.mem.wf = true) : t.mem.wf = true := by
  grind [packRows, → wf_of_writeOut, → wf_of_writeIdx, → mem_of_readRow, = State.setCmd_mem]

theorem wf_of_collect {peers : PeerParts} (h : collect peers s e c = some t) (hs : s.mem.wf = true) : t.mem.wf = true := by
  unfold collect at h
  grind [→ wf_of_writeOut, → mem_of_cmdRead, = State.setCmd_mem, = State.pay_mem]

theorem wf_voidUnwritten (l : List Nat) (h : s.mem.wf = true) : (voidUnwritten s e c l).mem.wf = true := by
  induction l generalizing s with
  | nil => exact h
  | cons a l ih => grind [voidUnwritten, → mem_of_cmdResolve, = State.wf_voidGranule]

@[simp] theorem State.answerEreq_mem (s : State) (r site : Nat) (n : W32) (b : Beat) : (s.answerEreq r site n b).mem = s.mem := rfl

theorem wf_cmdGone (st : Nat) (h : s.mem.wf = true) : (cmdGone s e c st).mem.wf = true := by
  grind [cmdGone, State.wf_advancePhase, = State.dropCmd_mem, = State.raiseEvent_mem, = State.answerEreq_mem]

theorem wf_cmdEndOr {st : Nat} {park : State → Nat → Nat → State} (hpark : ∀ s a b, s.mem.wf = true → (park s a b).mem.wf = true)
    (h : s.mem.wf = true) : (cmdEndOr s e c st park).mem.wf = true := by
  grind [cmdEndOr, wf_voidUnwritten, wf_cmdGone, → mem_of_translate, → wf_of_storeAt, = cmdFatal_mem, = State.charge_mem]

theorem wf_cmdEnd (st : Nat) (h : s.mem.wf = true) : (cmdEnd s e c st).mem.wf = true :=
  wf_cmdEndOr (by grind [wf_cmdGone, = cmdPark_mem]) h

theorem wf_cmdAborted (h : s.mem.wf = true) : (cmdAborted s e c).mem.wf = true :=
  wf_cmdEndOr (fun _ _ _ hs => wf_cmdGone 1 hs) h

theorem wf_cmdAbort (h : s.mem.wf = true) : (cmdAbort s e c).mem.wf = true := by
  unfold cmdAbort
  split
  · exact wf_cmdAborted h
  · exact h

end

/-! ## Replies of a fault queue (R413 to R416) -/

@[simp] theorem wakeCopy_mem (s : State) (r site : Nat) (f : Ctx → Nat → HeldToken → Ctx) : (wakeCopy s r site f).mem = s.mem := by
  unfold wakeCopy
  split <;> rfl

@[simp] theorem resumeAgent_mem (s : State) (a : AgentId) : (resumeAgent s a).mem = s.mem := by
  unfold resumeAgent
  split
  · simp
  · split <;> rfl

section
variable {s t : State} {rd : Reader} {asid : Nat} {f : FaultRec} {b : Bool}

theorem mem_of_substituteAgent {addr : Nat} (h : substituteAgent s rd asid f addr = (t, b)) : t.mem = s.mem := by
  unfold substituteAgent at h
  split at h
  · cases h; rfl
  · split at h
    all_goals have hp := mem_of_translateRead ‹s.translateRead _ _ _ _ = _›
    · split at h
      · cases h; exact hp
      · split at h
        all_goals have hl := mem_of_loadAt ‹State.loadAt _ _ _ _ _ _ _ = _›
        · cases h; exact hl.trans hp
        · cases h; exact hl.trans hp
        · cases h; simpa using hl.trans hp
    · cases h; exact hp

theorem wf_abortAgent (h : s.mem.wf = true) : (abortAgent s f).mem.wf = true := by
  unfold abortAgent
  split
  · exact h
  · split
    · exact wf_cmdAbort h
    · exact h

theorem wf_of_actReply {r : Reply} (h : actReply s rd asid f r = (t, b)) (hs : s.mem.wf = true) : t.mem.wf = true := by
  unfold actReply at h
  split at h
  · cases h; simpa
  · cases h; exact wf_abortAgent hs
  · rwa [mem_of_substituteAgent h]
  · cases h; exact hs

theorem State.wf_recordReply (c : FqCell) (bs : List Byte) (h : s.mem.wf = true) : (s.recordReply asid c bs).mem.wf = true := by
  unfold State.recordReply
  dsimp only
  split
  · exact h
  · exact State.wf_refreshCells _ h

theorem mem_of_readReply {c : FqCell} {r : ReplyRead} (h : s.readReply asid c = (t, r)) : t.mem = s.mem := by
  grind [State.readReply, → mem_of_translateRead, → mem_of_loadAt]

theorem wf_of_actRecorded {mine : Bool} {c : FqCell} {bs : List Byte} (h : actRecorded s asid mine c bs = (t, b))
    (hs : s.mem.wf = true) : t.mem.wf = true := by
  grind [actRecorded, → wf_of_actReply, = State.dropCell_mem]

theorem wf_of_actCells {mine : FqCell → Reply → Bool} {l : List FqCell} (h : State.actCells asid mine l s = (t, b))
    (hs : s.mem.wf = true) : t.mem.wf = true := by
  induction l generalizing s with
  | nil => cases h; exact hs
  | cons c l ih => grind [State.actCells, → wf_of_actRecorded]

theorem wf_of_actOwed {mine : FqCell → Reply → Bool} (h : s.actOwed asid mine = (t, b)) (hs : s.mem.wf = true) : t.mem.wf = true :=
  wf_of_actCells h hs

theorem wf_takeReply (mine : Reply → Bool) (h : s.mem.wf = true) : (takeReply s asid mine).mem.wf = true := by
  grind [takeReply, → wf_of_actOwed, → mem_of_readReply, → wf_of_actReply, State.wf_recordReply, = State.dropCell_mem,
    = State.abortFor_mem]

end

/-! ## Clusters that end and snapshots -/

section
variable {s t : State}

theorem State.wf_teardown (n : Nat) (h : s.mem.wf = true) : (s.teardown n).mem.wf = true := by
  unfold State.teardown
  split
  · exact h
  · exact wf_foldl (fun _ r hs => State.wf_freeRegion r hs) _ (State.wf_releaseSems _ h)

theorem State.wf_endAborted (e : Nat) (c : Cmd) (h : s.mem.wf = true) : (s.endAborted e c).mem.wf = true := by
  unfold State.endAborted
  dsimp only
  split
  · exact wf_cmdGone _ (wf_cmdAborted h)
  · exact wf_cmdAborted h

theorem State.wf_abortCommands (n : Nat) (h : s.mem.wf = true) : (s.abortCommands n).mem.wf = true :=
  wf_foldl (fun _ _ hs => wf_foldl (fun _ _ hs => wf_endAborted _ _ hs) _ hs) _ h

theorem State.wf_voidPartition (k : Cluster) (h : s.mem.wf = true) : (s.voidPartition k).mem.wf = true := by
  unfold State.voidPartition
  split
  · exact wf_foldl (fun _ _ hs => by simpa) _ h
  · exact h

theorem State.wf_settleStores (n fuel k : Nat) (h : s.mem.wf = true) : (State.settleStores n fuel k s).mem.wf = true := by
  induction fuel generalizing k s with
  | zero => exact h
  | succ fuel ih => grind [State.settleStores, → wf_of_performAccess]

theorem State.wf_abortCluster (n : Nat) (k : Cluster) (f : Fatal) (h : s.mem.wf = true) : (s.abortCluster n k f).mem.wf = true := by
  unfold State.abortCluster
  simp only [State.notify_mem, State.setCluster_mem]
  refine State.wf_writeRecord _ _ (State.wf_voidPartition _ (State.wf_abortCommands _ ?_))
  rw [State.setCluster_mem, State.dropPorts_mem, mem_foldl (by simp)]
  exact State.wf_releaseSems _ (State.wf_settleStores _ _ _ h)

@[simp] theorem State.quiesce_mem (s : State) (k : Cluster) : (s.quiesce k).mem = s.mem :=
  mem_foldl (fun _ _ => mem_foldl (by simp) _ _) _ _

theorem State.wf_saveCluster (n : Nat) (k : Cluster) (i : Stored) (a b : Nat) (h : s.mem.wf = true) :
    (s.saveCluster n k i a b).mem.wf = true := by
  refine wf_foldl (fun _ r hs => State.wf_freeRegion r hs) _ ?_
  rwa [State.dropPorts_mem, mem_foldl (by simp)]

@[simp] theorem State.freezeCore_mem (s : State) (r : Nat) : (s.freezeCore r).mem = s.mem := by
  unfold State.freezeCore
  dsimp only
  split
  · rfl
  · split <;> simp

@[simp] theorem State.snapRegion_mem (s : State) (w : W32) (r : Nat) : (s.snapRegion w r).mem = s.mem := State.freezeCore_mem _ _

@[simp] theorem State.beginSnapshot_mem (s : State) (n : Nat) (p : Option Nat) (w : W32) : (s.beginSnapshot n p w).mem = s.mem := by
  unfold State.beginSnapshot
  split
  · rfl
  · split
    · split <;> rfl
    · rw [mem_foldl (by simp), State.setCluster_mem]

/-! ## Launch records and rounds of the arbiter -/

@[simp] theorem State.advanceCaravan_mem (s : State) (c : Nat) (a : W64) : (s.advanceCaravan c a).mem = s.mem :=
  (s.advanceCaravan_keeps c a).1

theorem State.wf_rejectLaunch (c : Nat) (l : LaunchRec) (reason : Nat) (h : s.mem.wf = true) :
    (s.rejectLaunch c l reason).mem.wf = true := by
  unfold State.rejectLaunch
  dsimp only
  rw [State.advanceCaravan_mem]
  split
  · exact wf_of_writeCompl rfl h
  · rw [State.notify_mem]
    exact wf_of_writeCompl rfl h

theorem State.wf_placeNew (c : Nat) (l : LaunchRec) (hd : Header) (rs bs : List Nat) (h : s.mem.wf = true) :
    (s.placeNew c l hd rs bs).mem.wf = true := by
  unfold State.placeNew
  dsimp only
  rw [State.advanceCaravan_mem, mem_foldl (by simp)]
  simpa using State.wf_handBanks _ _ _ h

@[simp] theorem State.restoreRegions_mem (s : State) (sv : Saved) (k : Cluster) (d : Int) (l : List (List (Nat × Cfg))) :
    (s.restoreRegions sv k d l).mem = s.mem := mem_foldl (by simp) _ _

@[simp] theorem State.restoreRest_mem (s : State) (sv : Saved) (k : Cluster) (d : Int) : (s.restoreRest sv k d).mem = s.mem := by
  have hcmds : (sv.cmds.foldl (fun s c => s.enqueueCmd c.1 { c.2 with issuer := moveIssuer sv k d c.2.issuer }) s).mem = s.mem :=
    mem_foldl (by simp) _ _
  unfold State.restoreRest
  dsimp only
  split <;> simpa

theorem wf_of_restoreAt {sv : Saved} {k : Cluster} (h : s.restoreAt sv k = .ok t) (hs : s.mem.wf = true) : t.mem.wf = true := by
  have hr := State.wf_restoreMem (s := s.setCluster sv.number k) sv k (tileDelta k sv.cluster) hs
  grind [State.restoreAt, → mem_of_recheckAll, = State.restoreRegions_mem, = State.restoreRest_mem]

theorem State.wf_actTaken (asid n : Nat) (h : s.mem.wf = true) : (s.actTaken asid n).mem.wf = true := wf_of_actOwed rfl h

theorem wf_of_restore {sv : Saved} {rs bs : List Nat} (h : s.restore sv rs bs = some t) (hs : s.mem.wf = true) : t.mem.wf = true := by
  have hthaw (u : State) (n m : Nat) (hu : u.mem.wf = true) :
      ((rs.foldl (fun s r => s.mapRegion r Region.thaw) u).actTaken n m).mem.wf = true := by
    refine State.wf_actTaken _ _ ?_
    rwa [mem_foldl (by simp)]
  unfold State.restore at h
  dsimp only at h
  split at h
  case h_1 hr =>
    cases h
    exact hthaw _ _ _ (wf_of_restoreAt hr hs)
  case h_2 => cases h
  case h_3 =>
    split at h
    case h_1 hr =>
      cases h
      exact hthaw _ _ _ (wf_of_restoreAt hr hs)
    case h_2 => cases h
    case h_3 =>
      cases h
      rw [State.fatalFault_mem, State.restoreRest_mem, State.restoreRegions_mem]
      exact State.wf_restoreMem _ _ _ hs

theorem wf_roundAt {p c : Nat} {x : State × Bool} (h : x.1.mem.wf = true) : (roundAt p c x).1.mem.wf = true := by
  have hsnap (l : List (Nat × Cluster)) : (l.foldl (fun s k => s.beginSnapshot k.1 (some c) (k.2.snapCount + 1#32)) x.1).mem = x.1.mem :=
    mem_foldl (by simp) _ _
  grind [roundAt, State.wf_placeNew, → wf_of_restore]

theorem wf_roundFrom (l : List Nat) (h : s.mem.wf = true) : (roundFrom l s).1.mem.wf = true := by
  induction l generalizing s with
  | nil => exact h
  | cons p l ih =>
    have hturn (a : Nat) : ((List.range 192).foldl (fun x i => roundAt p ((a + i) % 192) x) (s, false)).1.mem.wf = true :=
      List.foldlRecOn (motive := fun x : State × Bool => x.1.mem.wf = true) _ _ h (fun _ hx _ _ => wf_roundAt hx)
    unfold roundFrom
    dsimp only
    have ht := hturn ((s.disp.lastWinner.toList.getD p 191 + 1) % 192)
    generalize List.foldl _ _ _ = x at ht ⊢
    split
    · exact ht
    · exact ih ht

end

end Sys2Proof.Machine
end

section
/-! SUPPORT. Every instruction, every event and every act of the outside keeps the canonical form of memory (R151, log entry 4),
and so does every step. -/

namespace Sys2Proof.Machine

/-- Every state an outcome goes on with has its memories in canonical form. -/
def Canonical (o : Out) : Prop := ∀ t, o = .next t → t.mem.wf = true

@[simp] theorem canonical_next (t : State) : Canonical (.next t) ↔ t.mem.wf = true :=
  ⟨fun h => h t rfl, fun h u hu => by cases hu; exact h⟩

@[simp] theorem canonical_fault (f : Fault) : Canonical (.fault f) := fun _ h => nomatch h

section
variable {s : State}

/-! ## The shapes of the core instructions -/

theorem canonical_onCore (f : Core → Core) (h : s.mem.wf = true) : Canonical (onCore s f) := by simpa [onCore]

theorem canonical_trap (i : Instr) (cause : Nat) (addr info : W64) (h : s.mem.wf = true) : Canonical (trap s i cause addr info) := by
  simpa [trap]

theorem canonical_done (f : Core → Core) (h : s.mem.wf = true) : Canonical (done s f) := by simpa [done]

theorem canonical_waiting (w : CoreWait) (h : s.mem.wf = true) : Canonical (waiting s w) := by simpa [waiting]

theorem canonical_configTrap (i : Instr) (err ucause : Nat) (h : s.mem.wf = true) : Canonical (configTrap s i err ucause) :=
  canonical_trap _ _ _ _ (by simpa)

theorem canonical_coreFatal (cls : Nat) (h : s.mem.wf = true) : Canonical (coreFatal s cls) := by
  unfold coreFatal
  split
  · simpa
  · dsimp only
    split <;> simpa

theorem canonical_onSeq (i : Instr) {k : Nat → Out} (h : s.mem.wf = true) (hk : ∀ r, Canonical (k r)) : Canonical (onSeq s i k) := by
  unfold onSeq
  split
  · exact canonical_trap _ _ _ _ h
  · exact hk _

theorem canonical_trapReturn (i : Instr) (h : s.mem.wf = true) : Canonical (trapReturn s i) := by
  unfold trapReturn
  dsimp only
  split
  · split
    · exact canonical_trap _ _ _ _ h
    · simpa
  · split
    · simpa
    · exact canonical_trap _ _ _ _ h

theorem canonical_orStay {o : Option State} (ho : ∀ t, o = some t → t.mem.wf = true) (h : s.mem.wf = true) : Canonical (orStay s o) := by
  cases o with
  | none => simpa [orStay]
  | some t => simpa [orStay] using ho t rfl

/-! ## Accesses of a core -/

theorem canonical_coreLoad (i : Instr) (ea : W64) (n : Nat) (acc : Acc) (pres : Bool) (k : List Byte → Core → Core)
    (h : s.mem.wf = true) : Canonical (coreLoad s i ea n acc pres k) := by
  grind [coreLoad, → mem_of_coreResolve, → mem_of_loadAt, canonical_trap, canonical_coreFatal, canonical_next, canonical_done,
    = State.charge_mem]

theorem canonical_coreStore (i : Instr) (ea : W64) (bs : List Byte) (h : s.mem.wf = true) : Canonical (coreStore s i ea bs) := by
  grind [coreStore, → mem_of_coreResolve, → wf_of_storeAt, canonical_trap, canonical_coreFatal, canonical_done, = State.charge_mem]

theorem canonical_atomic (i : Instr) (d a b : SReg) (w : Width) (f : W64 → W64 → Option W64) (h : s.mem.wf = true) :
    Canonical (atomic s i d a b w f) := by
  grind [atomic, → mem_of_coreResolve, State.wf_storeBytes, canonical_trap, canonical_coreFatal, canonical_done, = State.charge_mem]

theorem canonical_onGranule (i : Instr) (a : SReg) (wr : Bool) {k : State → Place → Out} (h : s.mem.wf = true)
    (hk : ∀ s p, s.mem.wf = true → Canonical (k s p)) : Canonical (onGranule s i a wr k) := by
  grind [onGranule, → mem_of_coreResolve, canonical_trap, canonical_coreFatal]

theorem canonical_scAccess (i : Instr) (a : SReg) (w : Width) (x : Option W64) (k : W64 → Core → Core) (h : s.mem.wf = true) :
    Canonical (scAccess s i a w x k) := by
  rw [scAccess.eq_def]
  cases s.me.wait
  case scDone => exact canonical_done _ h
  case scPosted => simpa
  all_goals
    dsimp only
    split
    · exact canonical_trap _ _ _ _ h
    · split
      case h_1 hr => exact canonical_trap _ _ _ _ (by rwa [mem_of_coreResolve hr])
      case h_2 hr => exact canonical_coreFatal _ (by rwa [mem_of_coreResolve hr])
      case h_3 hr =>
        have hm := mem_of_coreResolve hr
        split
        · exact canonical_trap _ _ _ _ (by rwa [hm])
        · split
          · exact canonical_trap _ _ _ _ (by rwa [hm])
          · exact canonical_waiting _ (by simpa [hm])

theorem canonical_scAccessPerform (h : s.mem.wf = true) : Canonical (execScAccessPerform s) := by
  unfold execScAccessPerform
  split
  · simpa
  · dsimp only
    split
    · split
      case h_1 hf =>
        simpa using canonical_coreFatal _ (by simpa) _ hf
      · exact canonical_coreFatal _ h
    · simp only [canonical_next, State.charge_mem, State.setCore_mem]
      split
      · exact h
      · exact State.wf_storeBytes _ _ _ h

/-! ## Semaphores, barriers and control registers -/

theorem canonical_sema (n : BitVec 6) (h : s.mem.wf = true) : Canonical (execSema n s) := by
  grind [execSema, canonical_next, canonical_trap, canonical_done, canonical_waiting, = State.setSem_mem]

theorem canonical_semr (n : BitVec 6) (h : s.mem.wf = true) : Canonical (execSemr n s) := by
  grind [execSemr, canonical_trap, canonical_done, State.wf_releaseSem]

theorem canonical_bar (scope : Scope) (h : s.mem.wf = true) : Canonical (execBar scope s) := by
  refine canonical_onSeq _ h fun r => ?_
  have hall (t : State) (l : List Nat) : (t.departAll l).mem = t.mem := (State.departAll_eq l t).1
  grind [canonical_next, canonical_trap, canonical_done, canonical_waiting, = State.setCluster_mem]

theorem mem_of_csrWrite {t : State} {n : BitVec 12} {v : W64} (h : s.csrWrite n v = some t) : t.mem = s.mem := by
  unfold State.csrWrite at h
  dsimp only at h
  split at h
  all_goals grind [= State.setMe_mem, = State.mcDiscard_mem, State.writeEvtPend, State.writeMember, State.writeMeterStep,
    State.writeAlertPend, = State.setMeter_mem]

theorem canonical_csrAccess (i : Instr) (n : BitVec 12) {k : Out} (h : s.mem.wf = true) (hk : Canonical k) :
    Canonical (csrAccess s i n k) := by
  grind [csrAccess, illegal, canonical_trap]

theorem canonical_csrStore (i : Instr) (n : BitVec 12) (v : W64) (f : Core → Core) (h : s.mem.wf = true) :
    Canonical (csrStore s i n v f) := by
  grind [csrStore, illegal, canonical_trap, canonical_onCore, canonical_next, → mem_of_csrWrite]

theorem canonical_byCore {f : State → Out} (h : s.mem.wf = true) (hf : Canonical (f s)) : Canonical (byCore s f) := by
  unfold byCore
  split
  · exact hf
  · simpa

theorem canonical_byMc {f : State → State} (h : s.mem.wf = true) (hf : (f s).mem.wf = true) : Canonical (byMc s f) := by
  unfold byMc
  split <;> simpa

theorem canonical_csrWrite (n : BitVec 12) (v : W64) (h : s.mem.wf = true) : Canonical (execCsrWrite n v s) := by
  refine canonical_byCore h (canonical_csrAccess _ _ h ?_)
  split
  · exact canonical_trap _ _ _ _ h
  · have := mem_of_csrWrite ‹s.csrWrite n v = _›
    grind [canonical_next]

/-! ## The configurations and ports of a sequencer -/

theorem canonical_cfgRead {t : State} (i : Instr) (r kn n : Nat) (x : ImageRes) (h : s.mem.wf = true) (ht : t.mem = s.mem) :
    Canonical (cfgRead s i r kn n (t, x)) := by
  unfold cfgRead
  split
  all_goals grind [canonical_done, canonical_configTrap, canonical_next, = State.mapRegion_mem, = State.setMe_mem, = State.uncharged_mem,
    = State.fatalFault_mem]

theorem canonical_cfg (a : SReg) (h : s.mem.wf = true) : Canonical (execCfg a s) := by
  refine canonical_onSeq _ h fun r => ?_
  dsimp only
  split
  · simpa
  · split
    · exact canonical_configTrap _ _ _ h
    · split
      · grind [canonical_configTrap, canonical_done, canonical_next, = State.setRegion_mem, = State.setMe_mem]
      · split
        all_goals have hd := mem_of_dirEntry ‹_›
        · exact canonical_configTrap _ _ _ (by rwa [hd])
        · split
          · exact canonical_configTrap _ _ _ (by rwa [hd])
          · exact canonical_cfgRead _ _ _ _ _ h ((mem_of_readImage rfl).trans hd)
        · split
          · exact canonical_configTrap _ _ _ (by rwa [hd])
          · exact canonical_cfgRead _ _ _ _ _ h hd

theorem canonical_runWait (r c : Nat) (h : s.mem.wf = true) : Canonical (runWait s r c) := by
  grind [runWait, canonical_next, canonical_waiting, = State.snapRegion_mem, = State.setMe_mem]

theorem canonical_run (h : s.mem.wf = true) : Canonical (execRun s) := by
  refine canonical_onSeq _ h fun r => ?_
  grind [canonical_runWait, canonical_configTrap, = State.setRegion_mem]

theorem canonical_swo (a : SReg) (h : s.mem.wf = true) : Canonical (execSwo a s) := by
  refine canonical_onSeq _ h fun r => ?_
  grind [canonical_configTrap, canonical_done, canonical_next, = State.setRegion_mem]

theorem canonical_pref (a : SReg) (h : s.mem.wf = true) : Canonical (execPref a s) :=
  canonical_onSeq _ h fun r => canonical_done _ (by split <;> simpa)

theorem canonical_icomma (a : SReg) (h : s.mem.wf = true) : Canonical (execIcomma a s) := by
  refine canonical_onSeq _ h fun r => ?_
  split <;> simpa

theorem canonical_inject (i : Instr) (r p : Nat) (t : Token) (h : s.mem.wf = true) : Canonical (inject s i r p t) := by
  grind [inject, arcTrap, canonical_trap, canonical_done, canonical_next, = State.setRegion_mem]

theorem canonical_injStop (a b : SReg) (p : BitVec 4) (h : s.mem.wf = true) : Canonical (execInjStop a b p s) := by
  refine canonical_onSeq _ h fun r => ?_
  dsimp only
  split
  · exact canonical_trap _ _ _ _ h
  · exact canonical_inject _ _ _ _ h

theorem canonical_take (d : SReg) (p : BitVec 4) (h : s.mem.wf = true) : Canonical (execTake d p s) := by
  refine canonical_onSeq _ h fun r => ?_
  grind [arcTrap, canonical_trap, canonical_done, canonical_next, = State.setRegion_mem]

theorem canonical_takeExit (d : SReg) (r : Nat) (e : Entry) (swept : Bool) (n : Nat) (h : s.mem.wf = true) :
    Canonical (takeExit s d r e swept n) := by
  unfold takeExit
  dsimp only
  split
  · exact canonical_trap _ _ _ _ (by simpa)
  · simpa

theorem canonical_wex (d : SReg) (h : s.mem.wf = true) : Canonical (execWex d s) := by
  refine canonical_onSeq _ h fun r => ?_
  split
  · simpa
  · split
    · split
      · exact canonical_takeExit _ _ _ _ _ h
      · simpa
    · exact canonical_takeExit _ _ _ _ _ h
    · simpa

theorem canonical_halta (a : BitVec 10) (h : s.mem.wf = true) : Canonical (execHalta a s) := by
  refine canonical_onSeq _ h fun r => ?_
  grind [arcTrap, canonical_trap, canonical_done, = State.setRegion_mem]

theorem canonical_rela (a : BitVec 10) (h : s.mem.wf = true) : Canonical (execRela a s) := by
  refine canonical_onSeq _ h fun r => ?_
  dsimp only
  split <;> exact canonical_done _ (by simpa)

theorem canonical_imode (m : BitVec 8) (h : s.mem.wf = true) : Canonical (execImode m s) := by
  refine canonical_onSeq _ h fun r => ?_
  grind [arcTrap, canonical_trap, canonical_done, canonical_next, = State.setRegion_mem]

theorem canonical_jalr (d a : SReg) (imm : BitVec 16) (h : s.mem.wf = true) : Canonical (execJalr d a imm s) := by
  unfold execJalr
  dsimp only
  split
  · exact canonical_trap _ _ _ _ h
  · simpa

end

end Sys2Proof.Machine
end

section
/-! SUPPORT. The events of the elements, of the engines and of the regions keep the canonical form of memory (R151, log entry 4). -/

namespace Sys2Proof.Machine

section
variable {s : State} {r site : Nat}

/-! ## Elements -/

/-- What an event makes of the context of an element's copy decides an outcome of `orStay`. -/
theorem canonical_orStay_bind {α : Type} {o : Option α} {f : α → Option State}
    (hf : ∀ c t, f c = some t → t.mem.wf = true) (h : s.mem.wf = true) : Canonical (orStay s (o.bind f)) :=
  canonical_orStay (fun t ht => by
    obtain ⟨c, -, hc⟩ := Option.bind_eq_some_iff.mp ht
    exact hf c t hc) h

/-- An event that only puts a context back leaves memory as it is. -/
theorem mem_of_map_back {o : Option Ctx} {t : State} (h : o.map (fun c => c.back s) = some t) : t.mem = s.mem := by
  obtain ⟨c, -, rfl⟩ := Option.map_eq_some_iff.mp h
  rfl

theorem canonical_backWhen {p : Ctx → Prop} [DecidablePred p] (f : Ctx → Option Ctx) (h : s.mem.wf = true) :
    Canonical (orStay s ((ctxOf s r site).bind (fun c => if p c then (f c).map (fun c' => c'.back s) else none))) :=
  canonical_orStay_bind (fun c t ht => by
    split at ht
    · rwa [mem_of_map_back ht]
    · cases ht) h

theorem canonical_fireOp (k : EKind) (opc : Nat) (f : Ctx → Option Ctx) (h : s.mem.wf = true) : Canonical (fireOp s r site k opc f) :=
  canonical_backWhen f h

theorem canonical_fireMx (f : Ctx → Option Ctx) (h : s.mem.wf = true) : Canonical (fireMx s r site f) := canonical_backWhen f h

theorem canonical_stopHandling (h : s.mem.wf = true) : Canonical (execStopHandling r site s) :=
  canonical_orStay_bind (fun _ _ ht => by rwa [mem_of_map_back ht]) h

theorem canonical_modeHandling (h : s.mem.wf = true) : Canonical (execModeHandling r site s) :=
  canonical_orStay_bind (fun _ _ ht => by rwa [mem_of_map_back ht]) h

theorem canonical_switchoverDiscard (port : Nat) (h : s.mem.wf = true) : Canonical (execSwitchoverDiscard r site port s) :=
  canonical_orStay_bind (fun _ _ ht => by rwa [mem_of_map_back ht]) h

theorem canonical_agResponseEmit (h : s.mem.wf = true) : Canonical (execAgResponseEmit r site s) := canonical_backWhen _ h
theorem canonical_hdScanEmit (h : s.mem.wf = true) : Canonical (execHdScanEmit r site s) := canonical_backWhen _ h

theorem canonical_agCompletion (h : s.mem.wf = true) : Canonical (execAgCompletion r site s) := canonical_backWhen _ h
theorem canonical_owCompletion (h : s.mem.wf = true) : Canonical (execOwCompletion r site s) := canonical_backWhen _ h

/-- An event of an agent, of an owner or of a reduction that leaves memory as it is, on the elements of its operation. -/
theorem canonical_agentOp (k : EKind) (opc : Nat) {f : State → Ctx → Nat → Option State}
    (hf : ∀ {c n t}, f s c n = some t → t.mem = s.mem) (h : s.mem.wf = true) : Canonical (agentOp s r site k opc f) :=
  canonical_orStay_bind (by grind) h

theorem canonical_owOp (opc : Nat) {f : State → Ctx → Option State}
    (hf : ∀ {c t}, f s c = some t → s.mem.wf = true → t.mem.wf = true) (h : s.mem.wf = true) : Canonical (owOp s r site opc f) :=
  canonical_orStay_bind (by grind) h

theorem canonical_hdOp (opc : Nat) {f : State → Ctx → Option State} (hf : ∀ {c t}, f s c = some t → t.mem = s.mem)
    (h : s.mem.wf = true) : Canonical (hdOp s r site opc f) :=
  canonical_orStay_bind (by grind) h

theorem canonical_brOp (opc : Nat) {f : State → Ctx → Option State} (hf : ∀ {c t}, f s c = some t → t.mem = s.mem)
    (h : s.mem.wf = true) :
    Canonical (orStay s ((ctxOf s r site).bind (fun c => if c.recd.isOp .br opc then f s c else none))) :=
  canonical_orStay_bind (by grind) h

theorem canonical_elementAdopt (h : s.mem.wf = true) : Canonical (execElementAdopt r site s) :=
  canonical_orStay (fun _ ht => by rwa [mem_of_adoptSite ht]) h

theorem canonical_elementFreeze (h : s.mem.wf = true) : Canonical (execElementFreeze r site s) :=
  canonical_orStay (fun _ ht => by rwa [mem_of_freezeElement ht]) h

theorem canonical_storeModeChange (n : Nat) (h : s.mem.wf = true) : Canonical (execStoreModeChange r n s) :=
  canonical_orStay (fun _ ht => by rwa [mem_of_storeChange ht]) h

theorem canonical_accessPerformed (k : Nat) (h : s.mem.wf = true) : Canonical (execAccessPerformed k s) :=
  canonical_orStay (fun _ ht => wf_of_performAccess ht h) h

/-! ## Engines -/

theorem canonical_engineEvent (e : Nat) (k : EClass) (kind : Nat) {f : State → Nat → Cmd → Option State}
    (hf : ∀ {c t}, f s e c = some t → s.mem.wf = true → t.mem.wf = true) (h : s.mem.wf = true) :
    Canonical (engineEvent s e k kind f) := by
  rw [engineEvent, canonical_next]
  split
  · cases hm : engineMove s e [kind] f with
    | none => exact h
    | some t =>
      obtain ⟨c, -, hc⟩ := List.exists_of_findSome?_eq_some hm
      exact hf hc h
  · exact h

theorem canonical_engineCommandEnd (e : Nat) (h : s.mem.wf = true) : Canonical (execEngineCommandEnd e s) := by
  rw [execEngineCommandEnd, canonical_next]
  split
  · exact h
  · exact wf_cmdEnd _ h

theorem canonical_engineLoadStop {s0 : State} {i : Instr} {x : BulkRes} {go : List Byte → Out} (h : s.mem.wf = true)
    (hgo : ∀ bs, Canonical (go bs)) : Canonical (engineLoadStop s0 s i x go) := by
  unfold engineLoadStop
  split
  · exact hgo _
  · simpa
  · exact canonical_trap _ _ _ _ h
  · exact canonical_coreFatal _ h

theorem canonical_engineIssue {s0 : State} (d : SReg) (e : Nat) (b : Block) (g : List Nat) (h : s.mem.wf = true) :
    Canonical (engineIssue s0 s d e b g) := by
  unfold engineIssue
  split
  · simpa
  · exact canonical_done _ (by simpa)

theorem canonical_groupLoad {s0 : State} {i : Instr} {aux : Nat} {go : State → List Nat → Out} (h : s.mem.wf = true)
    (hgo : ∀ t g, t.mem.wf = true → Canonical (go t g)) : Canonical (groupLoad s0 s i aux go) := by
  unfold groupLoad
  dsimp only
  split
  · exact canonical_trap _ _ _ _ h
  · have hload (u : State) (ea : W64) (n : Nat) (hu : u.mem.wf = true) : (u.bulkLoad ea n []).1.mem.wf = true := by
      rwa [mem_of_bulkLoad rfl]
    refine canonical_engineLoadStop (hload _ _ _ h) fun head => ?_
    split
    · exact hgo _ _ (hload _ _ _ h)
    · have h2 := hload (((s.bulkLoad (BitVec.ofNat 64 aux) 1 []).1).uncharged s) (BitVec.ofNat 64 aux)
        (groupGranules (fieldLe head 0 2)) (hload _ _ _ h)
      exact canonical_engineLoadStop h2 fun raw => hgo _ _ h2

theorem canonical_engineCommand (i : Instr) (k : EClass) (d a : SReg) (e : Nat) (h : s.mem.wf = true) :
    Canonical (engineCommand s i k d a e) := by
  unfold engineCommand
  dsimp only
  split
  · exact canonical_trap _ _ _ _ h
  · split
    · exact canonical_trap _ _ _ _ h
    · have h1 : (s.bulkLoad (s.me.reg a) 1 []).1.mem.wf = true := by rwa [mem_of_bulkLoad rfl]
      refine canonical_engineLoadStop h1 fun raw => ?_
      split
      · split
        · exact canonical_trap _ _ _ _ h1
        · refine canonical_groupLoad h1 fun t g ht => ?_
          split
          · exact canonical_trap _ _ _ _ ht
          · exact canonical_engineIssue _ _ _ _ ht
      · split
        · exact canonical_trap _ _ _ _ h1
        · exact canonical_engineIssue _ _ _ _ h1

theorem canonical_ewait (a : SReg) (h : s.mem.wf = true) : Canonical (execEwait a s) := by
  grind [execEwait, canonical_trap, canonical_next, canonical_onCore]

/-! ## Regions -/

theorem canonical_inMoving {f : State → State} (h : s.mem.wf = true) (hf : (f s).mem = s.mem) : Canonical (s.inMoving r f) := by
  rw [State.inMoving, canonical_next]
  split
  · rwa [hf]
  · exact h

theorem canonical_prefetchCheck (h : s.mem.wf = true) : Canonical (execPrefetchCheck r s) := by
  refine canonical_inMoving h ?_
  split <;> simp

theorem canonical_predictorFetch (id : Nat) (h : s.mem.wf = true) : Canonical (execPredictorFetch r id s) := by
  refine canonical_inMoving h ?_
  split <;> simp

theorem canonical_configLoad (h : s.mem.wf = true) : Canonical (execConfigLoad r site s) :=
  canonical_inMoving h (by grind [= State.setRegion_mem])

theorem canonical_exitArrival (h : s.mem.wf = true) : Canonical (execExitArrival r s) := canonical_inMoving h rfl

theorem canonical_instanceRetire (h : s.mem.wf = true) : Canonical (execInstanceRetire r s) := by
  grind [execInstanceRetire, canonical_next, = State.setRegion_mem]

end

end Sys2Proof.Machine
end

section
/-! SUPPORT. The commands and requests of the host, the events of the dispatcher and of the power controller, the links and the
acts of the outside keep the canonical form of memory (R151, log entry 4). -/

namespace Sys2Proof.Machine

section
variable {s : State}

/-! ## Commands -/

/-- Every state a command ends or waits in has its memories in canonical form. -/
def CmdRes.Canonical : CmdRes → Prop
  | .answer _ s => s.mem.wf = true
  | .wait s => s.mem.wf = true

theorem canonical_onCommand {p : PortId} {opc : Nat} {sub : Command → Bool} {f : Command → CmdRes} (h : s.mem.wf = true)
    (hf : ∀ c, (f c).Canonical) : Canonical (onCommand s p opc sub f) := by
  unfold onCommand
  split
  · simpa
  case h_2 c _ =>
    split
    · simpa using State.wf_reply _ _ h
    · split
      · have hc := hf c
        split
        case h_1 hr => simpa using State.wf_reply _ _ (by simpa [hr, CmdRes.Canonical] using hc)
        case h_2 hr => simpa [hr, CmdRes.Canonical] using hc
      · simpa

theorem canonical_checked {l : List (Bool × Nat)} {go : Unit → CmdRes} (h : s.mem.wf = true) (hgo : (go ()).Canonical) :
    (checked s l go).Canonical := by
  unfold checked
  split
  · exact h
  · exact hgo

theorem canonical_invalidate {x : InvalRange} {go : State → State} (h : s.mem.wf = true) (hgo : ∀ t, (go t).mem = t.mem) :
    (invalidate s x go).Canonical := by
  unfold invalidate
  dsimp only
  split
  · exact h
  · exact (congrArg Mems.wf (hgo _)).trans h

variable {p : PortId}

theorem canonical_semAcq (h : s.mem.wf = true) : Canonical (execSemAcq p s) := by
  refine canonical_onCommand h fun c => canonical_checked h ?_
  dsimp only
  split <;> exact h

theorem canonical_semRel (h : s.mem.wf = true) : Canonical (execSemRel p s) :=
  canonical_onCommand h fun _ => canonical_checked h (State.wf_releaseSem _ _ h)

theorem canonical_portReset (h : s.mem.wf = true) : Canonical (execPortReset p s) := by
  refine canonical_onCommand h fun c => canonical_checked h ?_
  exact (congrArg Mems.wf (mem_foldl (fun _ _ => State.endSession_mem ..) _ _)).trans (State.wf_releaseAll _ h)

theorem canonical_carReg (h : s.mem.wf = true) : Canonical (execCarReg p s) := by
  refine canonical_onCommand h fun c => ?_
  dsimp only
  refine canonical_checked h ?_
  simp only [CmdRes.Canonical, State.setCaravan_mem]
  split
  · rwa [mem_of_askHead Prod.mk.eta.symm]
  · exact h

theorem canonical_carUnreg (h : s.mem.wf = true) : Canonical (execCarUnreg p s) :=
  canonical_onCommand h fun _ => canonical_checked h h

theorem canonical_resSet (h : s.mem.wf = true) : Canonical (execResSet p s) :=
  canonical_onCommand h fun _ => canonical_checked h h

theorem canonical_asSetSet (h : s.mem.wf = true) : Canonical (execAsSetSet p s) := by
  refine canonical_onCommand h fun c => canonical_checked h ?_
  dsimp only
  split
  · exact h
  · exact canonical_invalidate h fun _ => rfl

theorem canonical_asSetRemove (h : s.mem.wf = true) : Canonical (execAsSetRemove p s) :=
  canonical_onCommand h fun _ => canonical_checked h h

theorem canonical_asSetInval (h : s.mem.wf = true) : Canonical (execAsSetInval p s) :=
  canonical_onCommand h fun _ => canonical_checked h (canonical_invalidate h fun _ => rfl)

theorem canonical_cellClr (h : s.mem.wf = true) : Canonical (execCellClr p s) :=
  canonical_onCommand h fun _ => canonical_checked h (wf_foldl (fun _ a ht => State.wf_clearCell a ht) _ h)

/-! ## Requests of the security block and readback -/

/-- Every state a request ends in has its memories in canonical form. -/
def ReqRes.Canonical : ReqRes → Prop
  | .refuse _ => True
  | .ok _ s => s.mem.wf = true

theorem ReqRes.canonical_ite {q : Prop} [Decidable q] {st : Nat} {a : ReqRes} (ha : a.Canonical) :
    (if q then .refuse st else a : ReqRes).Canonical := by
  split
  · trivial
  · exact ha

theorem canonical_onRequest {opc : Nat} {f : Request → ReqRes} (h : s.mem.wf = true) (hf : ∀ q, (f q).Canonical) :
    Canonical (onRequest s p opc f) := by
  have hfin (q : Request) (t : State) (bs : List Byte) (ht : t.mem.wf = true) :
      ((t.fillCell q.status.toNat bs).advanceSecurity p q.next).mem.wf = true := by
    simpa using State.wf_fillCell _ _ ht
  unfold onRequest
  split
  · simpa
  case h_2 q _ =>
    dsimp only
    split
    · exact (canonical_next _).mpr (hfin q s _ h)
    · split
      · have hq := hf q
        split
        · exact (canonical_next _).mpr (hfin q s _ h)
        case h_2 hr =>
          rw [hr] at hq
          refine (canonical_next _).mpr (hfin q _ _ ?_)
          split
          · exact hq
          · exact State.wf_writeBody _ _ hq
      · simpa

theorem canonical_getCert (h : s.mem.wf = true) : Canonical (execGetCert p s) :=
  canonical_onRequest h fun _ => ReqRes.canonical_ite h

theorem canonical_attest (h : s.mem.wf = true) : Canonical (execAttest p s) :=
  canonical_onRequest h fun _ => ReqRes.canonical_ite (ReqRes.canonical_ite h)

theorem canonical_keyAgree (h : s.mem.wf = true) : Canonical (execKeyAgree p s) := by
  refine canonical_onRequest h fun q => ReqRes.canonical_ite ?_
  split
  · trivial
  · exact ReqRes.canonical_ite (ReqRes.canonical_ite h)

theorem canonical_sessionOpen (h : s.mem.wf = true) : Canonical (execSessionOpen p s) := by
  refine canonical_onRequest h fun q => ReqRes.canonical_ite ?_
  split
  · trivial
  · refine ReqRes.canonical_ite (ReqRes.canonical_ite ?_)
    simp only [ReqRes.Canonical, State.setAspace_mem]
    split <;> exact h

theorem canonical_sessionClose (h : s.mem.wf = true) : Canonical (execSessionClose p s) := by
  refine canonical_onRequest h fun q => ReqRes.canonical_ite ?_
  split
  · trivial
  · exact ReqRes.canonical_ite ((congrArg Mems.wf (State.endSession_mem ..)).trans h)

theorem mem_of_presenceItem {t : State} {n a : Nat} {o : Option (List Byte)} (h : s.presenceItem n a = (t, o)) : t.mem = s.mem := by
  grind [State.presenceItem, → mem_of_translate]

theorem mem_of_item {t : State} {q : Selector} {a : Nat} {o : Option (List Byte)} (h : s.item q a = (t, o)) : t.mem = s.mem := by
  unfold State.item at h
  dsimp only at h
  split at h
  case h_8 =>
    split at h
    · exact mem_of_presenceItem h
    · cases h; rfl
  all_goals cases h; rfl

theorem mem_of_deliverItem {t : State} {n : Option Nat} {req i out : List Byte} {off : Nat}
    (h : s.deliverItem n req i off = (t, out)) : t.mem = s.mem := by
  grind [State.deliverItem, = State.setAspace_mem]

theorem mem_of_readItem {t : State} {c : ChainId} {req out : List Byte} (h : readItem s c req = (t, out)) : t.mem = s.mem := by
  grind [readItem, → mem_of_item, → mem_of_deliverItem, = State.setChain_mem]

theorem canonical_read (c : ChainId) (h : s.mem.wf = true) : Canonical (execRead c s) := by
  unfold execRead
  split
  · simpa
  · dsimp only
    split
    · simpa
    · rw [canonical_next]
      rw [State.advanceReadback_mem]
      exact State.wf_fillCell _ _ (by rwa [mem_of_readItem Prod.mk.eta.symm])

/-! ## Launches -/

theorem canonical_launch (d a b : SReg) (h : s.mem.wf = true) : Canonical (execLaunch d a b s) := by
  unfold execLaunch
  dsimp only
  split
  · exact canonical_trap _ _ _ _ h
  split
  · exact canonical_trap _ _ _ _ h
  split
  case h_1 hb => simpa [mem_of_bulkLoad hb]
  case h_2 hb => exact canonical_trap _ _ _ _ (by rwa [mem_of_bulkLoad hb])
  case h_3 hb => exact canonical_coreFatal _ (by rwa [mem_of_bulkLoad hb])
  case h_4 s1 _ hb =>
    have h1 : s1.mem.wf = true := by rwa [mem_of_bulkLoad hb]
    split
    case h_1 hc => exact canonical_trap _ _ _ _ (by rwa [mem_of_launchCell hc])
    case h_2 hc => exact canonical_coreFatal _ (by rwa [mem_of_launchCell hc])
    case h_3 s2 _ _ hc =>
      have h2 : s2.mem.wf = true := by rwa [mem_of_launchCell hc]
      split
      case h_1 hd => exact canonical_trap _ _ _ _ (by rwa [mem_of_launchCell hd])
      case h_2 hd => exact canonical_coreFatal _ (by rwa [mem_of_launchCell hd])
      case h_3 s3 _ _ hd =>
        have h3 : s3.mem.wf = true := by rwa [mem_of_launchCell hd]
        split
        · exact canonical_coreFatal _ h3
        split
        · split
          · exact canonical_trap _ _ _ _ h3
          case h_2 h4 =>
            split
            · exact canonical_trap _ _ _ _ (wf_of_storeAt h4 h3)
            case h_2 h5 => exact canonical_done _ (by simpa using wf_of_storeAt h5 (wf_of_storeAt h4 h3))
        · exact canonical_trap _ _ _ _ h3
        · exact canonical_trap _ _ _ _ h3

variable {c : Nat}

theorem canonical_launchRecordRead (h : s.mem.wf = true) : Canonical (execLaunchRecordRead c s) := by
  grind [execLaunchRecordRead, canonical_next, State.wf_rejectLaunch, → mem_of_askDeps, = State.setCaravan_mem,
    = State.dropCaravanReads_mem]

theorem canonical_dependenceFill (h : s.mem.wf = true) : Canonical (execDependenceFill c s) := by
  grind [execDependenceFill, canonical_next, State.wf_rejectLaunch, = State.setCaravan_mem, = State.dropCaravanReads_mem]

theorem canonical_imageMeasure (h : s.mem.wf = true) : Canonical (execImageMeasure c s) := by
  have hrefuse (t : State) (l : LaunchRec) (ht : t.mem = s.mem) : Canonical (.next (t.rejectLaunch c l 0x07)) :=
    (canonical_next _).mpr (State.wf_rejectLaunch _ _ _ (by rwa [ht]))
  unfold execImageMeasure
  dsimp only
  split
  · split
    case h_1 h1 => simpa [mem_of_asGranules h1]
    case h_2 h1 =>
      have h1 := mem_of_asGranules h1
      split
      · exact hrefuse _ _ h1
      · split
        case h_1 h2 => simpa [mem_of_asGranules h2, h1]
        case h_2 h2 =>
          have h2 := (mem_of_asGranules h2).trans h1
          split
          · simpa [h2]
          · exact hrefuse _ _ h2
        case h_3 h2 => exact hrefuse _ _ ((mem_of_asGranules h2).trans h1)
    case h_3 h1 => exact hrefuse _ _ (mem_of_asGranules h1)
  · simpa

/-! ## Clusters -/

theorem canonical_clusterComplete (h : s.mem.wf = true) : Canonical (execClusterComplete c s) := by
  unfold execClusterComplete
  split
  · simpa
  · split
    · simpa using State.wf_teardown _ (State.wf_writeRecord _ _ h)
    · simpa

theorem canonical_clusterAbort (h : s.mem.wf = true) : Canonical (execClusterAbort s) := by
  unfold execClusterAbort
  split
  · simpa
  · dsimp only
    split
    · simpa
    · split
      · simpa
      · exact (canonical_next _).mpr (State.wf_abortCluster _ _ _ h)

theorem canonical_snapshotComplete (h : s.mem.wf = true) : Canonical (execSnapshotComplete c s) := by
  unfold execSnapshotComplete
  split
  · simpa
  case h_2 k _ =>
    split
    · simpa
    · dsimp only
      split
      · simpa
      · have h2 : (k.regions.foldl (fun s r => s.mapRegion r Region.uncomma) ((s.quiesce k).dropDeferred c)).mem.wf = true := by
          rw [mem_foldl (by simp)]; simpa
        have h3 (t : State) (n : Nat) (bs : List Byte) (ht : t.mem.wf = true) : (t.storeImage n bs).1.mem.wf = true :=
          State.wf_putImage _ _ _ _ ht
        rw [canonical_next]
        split
        · exact State.wf_saveCluster _ _ _ _ _ (h3 _ _ _ h2)
        · rw [State.setCluster_mem, mem_foldl (by simp)]
          exact h3 _ _ _ h2

theorem canonical_arbitrationRound (h : s.mem.wf = true) : Canonical (execArbitrationRound s) := by
  rw [execArbitrationRound, canonical_next]
  have hr := wf_roundFrom [0, 1, 2, 3, 4, 5, 6, 7] h
  split
  · exact wf_foldl (fun _ k ht => State.wf_teardown _ ht) _ hr
  · exact hr

/-! ## Faults -/

theorem canonical_parkComplete (a : AgentId) (h : s.mem.wf = true) : Canonical (execParkComplete a s) := by
  cases a <;> grind [execParkComplete, canonical_next, = State.setPark_mem, = State.setCmd_mem]

theorem canonical_faultRecordWrite (h : s.mem.wf = true) : Canonical (execFaultRecordWrite c s) := by
  unfold execFaultRecordWrite
  split
  · simpa
  · split
    · simpa
    · dsimp only
      split
      · split <;> simpa
      · split
        all_goals simpa using wf_of_saStore ‹_› h

theorem canonical_fqLinkRead (h : s.mem.wf = true) : Canonical (execFqLinkRead c s) := by
  unfold execFqLinkRead
  split
  · simpa
  · dsimp only
    split
    · simpa
    · split
      case h_1 h1 =>
        have h1 := mem_of_translateRead h1
        split
        all_goals have h2 := (mem_of_loadAt ‹_›).trans h1
        · simpa [h2]
        · simpa [h2]
        · split <;> simpa [h2]
      case h_2 h1 => simpa [mem_of_translateRead h1]

/-! ## The power controller -/

theorem State.wf_endGive (res : Nat) (h : s.mem.wf = true) : (s.endGive res).mem.wf = true := by
  have h1 (v : Nat) : ((s.setSram (powerBlock + 24) 8 res).setSram (powerBlock + 16) 8 v).mem.wf = true :=
    wf_setSram _ _ _ (wf_setSram _ _ _ h)
  unfold State.endGive
  rw [State.raiseAlert_mem]
  exact h1 _

theorem State.wf_refund (n : Nat) (h : s.mem.wf = true) : (s.refund n).mem.wf = true := wf_setSram _ _ _ h

theorem canonical_give (h : s.mem.wf = true) : Canonical (execGive s) := by
  grind [execGive, canonical_next, State.wf_endGive, = State.sideSend_mem]

theorem canonical_giveReceive (m n : Nat) (h : s.mem.wf = true) : Canonical (execGiveReceive m n s) := by
  unfold execGiveReceive
  dsimp only
  split <;> simpa

theorem canonical_giveAnswer (res : GiveAnswer) (h : s.mem.wf = true) : Canonical (execGiveAnswer res s) := by
  unfold execGiveAnswer
  split
  · simpa
  · dsimp only
    split
    · exact (canonical_next _).mpr (State.wf_endGive _ (by simpa))
    · exact (canonical_next _).mpr (State.wf_endGive _ (State.wf_refund _ (by simpa)))

theorem canonical_phaseMessage (m g : Nat) (w : W64) (h : s.mem.wf = true) : Canonical (execPhaseMessage m g w s) := by
  rw [execPhaseMessage, canonical_next]
  split
  · simpa
  · exact State.wf_setMinph _ (by simpa)

theorem canonical_pacingDescriptorValid (i : Nat) (h : s.mem.wf = true) : Canonical (execPacingDescriptorValid i s) := by
  rw [execPacingDescriptorValid, canonical_next]
  split
  · exact State.wf_clearPhases _ (State.wf_setSram _ _ _ h)
  · exact h

@[simp] theorem State.mapMeters_mem (s : State) (f : Nat → Meter → Meter) : (s.mapMeters f).mem = s.mem :=
  mem_foldl (fun _ _ => by split <;> rfl) _ _

@[simp] theorem State.raiseAlerts_mem (s : State) (l : List (Bool × Nat)) : (s.raiseAlerts l).mem = s.mem :=
  mem_foldl (fun _ _ => by split <;> simp) _ _

theorem wf_sweep (raw : List Int) (n : Nat) (h : s.mem.wf = true) : (sweep s raw n).mem.wf = true := by
  unfold sweep
  dsimp only
  rw [State.raiseEvent_mem, State.raiseAlerts_mem, State.mapMeters_mem]
  exact State.wf_setSram _ _ _ (State.wf_setSram _ _ _ (State.wf_setSram _ _ _ h))

theorem canonical_tickEnd (l : List RegionTick) (h : s.mem.wf = true) : Canonical (execTickEnd l s) := by
  refine (canonical_next _).mpr ?_
  rw [mem_foldl fun t r => by simp [State.chargeRail]]
  exact h

theorem canonical_droop (r q : Nat) (h : s.mem.wf = true) : Canonical (execDroop r q s) := by
  unfold execDroop
  split <;> simpa

theorem canonical_emergencyExpire (r q : Nat) (h : s.mem.wf = true) : Canonical (execEmergencyExpire r q s) := by
  unfold execEmergencyExpire
  dsimp only
  split <;> simpa

theorem canonical_learnedHoldExpire (r : Nat) (h : s.mem.wf = true) : Canonical (execLearnedHoldExpire r s) := by
  unfold execLearnedHoldExpire
  split
  · simpa
  · split <;> simpa

/-! ## Links and power -/

@[simp] theorem State.exchange_mem (s : State) (n : Nat) (x : LotarPeer) : (s.exchange n x).mem = s.mem := rfl

@[simp] theorem State.reconcile_mem (s : State) (m n : Nat) : (s.reconcile m n).mem = s.mem := State.sideSend_mem ..

theorem State.wf_loseGive (h : s.mem.wf = true) : s.loseGive.mem.wf = true := by
  unfold State.loseGive
  split
  · split
    · exact h
    · exact State.wf_endGive _ h
  · exact h

theorem State.wf_dropLink (n : Nat) (h : s.mem.wf = true) : (s.dropLink n).mem.wf = true := by
  unfold State.dropLink
  split
  · split
    · exact State.wf_loseGive (by simpa)
    · exact h
  · exact h

theorem State.wf_train (n : Nat) (x : LotarPeer) (h : s.mem.wf = true) : (s.train n x).mem.wf = true := by
  unfold State.train
  split
  · exact h
  · split
    · simpa
    · exact State.wf_dropLink _ h

theorem canonical_linkRekey (n : Nat) (h : s.mem.wf = true) : Canonical (execLinkRekey n s) := by
  grind [execLinkRekey, canonical_next, State.wf_train]

theorem canonical_linkDown (h : s.mem.wf = true) : Canonical (execLinkDown p s) :=
  canonical_byMc h (State.wf_releaseAll _ h)

theorem canonical_linkUp (h : s.mem.wf = true) : Canonical (execLinkUp p s) := by
  refine canonical_byMc h ?_
  grind [= State.setPort_mem, = State.postCommand_mem, = State.postSecurity_mem, = State.postReadback_mem]

/-- The memories of an SRAM emptied (R104) keep their form. -/
theorem Mems.wf_emptySram {m : Mems} (h : m.wf = true) : ({ m with sram := [] } : Mems).wf = true := by
  simp only [Mems.wf, Bool.and_eq_true] at h ⊢
  obtain ⟨⟨⟨⟨⟨hhbm, hbank⟩, htile⟩, -⟩, hhostA⟩, hhostB⟩ := h
  exact ⟨⟨⟨⟨⟨hhbm, hbank⟩, htile⟩, rfl⟩, hhostA⟩, hhostB⟩

/-- What a removal of power leaves of the memories (R104), the ports' own, keeps its form. -/
theorem Mems.wf_hostOnly {m : Mems} (h : m.wf = true) : ({ Mems.init with hostA := m.hostA, hostB := m.hostB } : Mems).wf = true := by
  simp only [Mems.wf, Bool.and_eq_true] at h ⊢
  obtain ⟨⟨-, hhostA⟩, hhostB⟩ := h
  exact ⟨⟨⟨⟨⟨rfl, rfl⟩, rfl⟩, rfl⟩, hhostA⟩, hhostB⟩

theorem canonical_powerRemoval (h : s.mem.wf = true) : Canonical (execPowerRemoval s) := (canonical_next _).mpr (Mems.wf_hostOnly h)

theorem State.wf_startBlock (h : s.mem.wf = true) : s.startBlock.mem.wf = true := wf_setSram _ _ _ (wf_setSram _ _ _ (wf_setSram _ _ _ h))

theorem State.wf_loaded (sec : Sec) (h : s.mem.wf = true) : (s.loaded sec).mem.wf = true :=
  wf_startBlock (s := (s.started sec).storeSram 0 (s.flash.image.take 0x200000)) (wf_storeSram _ _ (Mems.wf_emptySram h))

theorem State.withAgenda_mem (s : State) (l : List Turn) : ({ s with agenda := l } : State).mem = s.mem := rfl

theorem State.wf_powerUp (h : s.mem.wf = true) : s.powerUp.mem.wf = true := by
  cases hg : s.flash.genuine with
  | false =>
    obtain ⟨_, hs⟩ := State.powerUp_forged hg
    rwa [hs]
  | true =>
    obtain ⟨sec, -, hs⟩ := State.powerUp_genuine hg
    rw [hs, State.withAgenda_mem, State.postChains_mem]
    exact wf_foldl (fun _ x ht => State.wf_train _ _ ht) _ (State.wf_loaded sec h)

theorem canonical_powerOn (h : s.mem.wf = true) : Canonical (execPowerOn s) := by
  rw [execPowerOn, canonical_next]
  split
  · exact h
  · exact State.wf_powerUp h

/-! ## The outside -/

theorem wf_rdmaPiece (n : Nat) (q : Nat × List Byte) (h : s.mem.wf = true) : (rdmaPiece n s q).mem.wf = true := by
  grind [rdmaPiece, → mem_of_translate, → wf_of_storeAt]

theorem wf_peerPiece (fill mark keyed : Bool) (q : Nat × List Byte) (h : s.mem.wf = true) :
    (peerPiece fill mark keyed s q).mem.wf = true := by
  unfold peerPiece
  dsimp only
  split
  · exact h
  · split
    case h_1 hs =>
      refine wf_of_storeBy (fun ht => ?_) hs h
      split
      · exact State.wf_storeCipher _ _ ht
      · exact State.wf_storeBytes _ _ _ ht
    · exact h

theorem wf_whilePowered {t : State} (h : s.mem.wf = true) (ht : t.mem.wf = true) : (whilePowered s t).mem.wf = true := by
  unfold whilePowered
  split
  · exact ht
  · exact h

theorem wf_hostAct (a : HostAct) (h : s.mem.wf = true) : (hostAct a s).mem.wf = true := by
  cases a with
  | store n va bs iv tag =>
    unfold hostAct
    dsimp only
    split
    · exact wf_whilePowered h (wf_foldl (fun _ q ht => wf_rdmaPiece n q ht) _ h)
    · exact h
  | peerStore a bs fill mark keyed =>
    exact wf_whilePowered h (wf_foldl (fun _ q ht => wf_peerPiece fill mark keyed q ht) _ h)
  | hostWrite q off bs => exact Mems.wf_setBytes h _ _
  | advertise q w => exact wf_whilePowered h h
  | strike q => exact h
  | flash f => exact h
  | lotar l => exact h

end

end Sys2Proof.Machine
end

section
/-! SUPPORT. A step keeps the canonical form of memory (R151, log entry 4): each instruction, each event and each act of the
outside does. -/

namespace Sys2Proof.Machine

section
variable {s : State}

theorem canonical_setMe (c : Core) (h : s.mem.wf = true) : Canonical (.next (s.setMe c)) := by simpa

theorem canonical_jal (d : SReg) (off : BitVec 21) (h : s.mem.wf = true) : Canonical (execJal d off s) := by simpa [execJal]

theorem canonical_branchIf (b : Bool) (off : W64) (h : s.mem.wf = true) : Canonical (branchIf s b off) := by simpa [branchIf]

theorem canonical_evtPend (v : W64) (h : s.mem.wf = true) : Canonical (execEvtPend v s) := by
  refine canonical_byCore h ((canonical_next _).mpr ?_)
  split
  · exact (congrArg Mems.wf (State.setMe_mem ..)).trans h
  · exact h

theorem canonical_alertPend (v : W64) (h : s.mem.wf = true) : Canonical (execAlertPend v s) :=
  canonical_byMc h (by split <;> exact h)

theorem canonical_mcAsinval (v : W64) (h : s.mem.wf = true) : Canonical (execMcAsinval v s) := by
  refine canonical_byMc h ?_
  dsimp only
  split <;> simpa

theorem canonical_meterStep (v : W64) (h : s.mem.wf = true) : Canonical (execMeterStep v s) :=
  canonical_byMc h (by split <;> exact h)

theorem canonical_member (v : W64) (h : s.mem.wf = true) : Canonical (execMember v s) :=
  canonical_byMc h (by split <;> exact h)

theorem canonical_groupSetWrite (v : BitVec 576) (h : s.mem.wf = true) : Canonical (execGroupSetWrite v s) := canonical_byMc h h

theorem canonical_wfe (h : s.mem.wf = true) : Canonical (execWfe s) := by
  unfold execWfe
  split
  · exact canonical_onCore _ h
  · simpa

theorem canonical_trapInstr (code : BitVec 12) (h : s.mem.wf = true) : Canonical (execTrap code s) := by
  unfold execTrap
  split <;> simpa

theorem canonical_illegalInstruction (w : W32) (h : s.mem.wf = true) : Canonical (execIllegalInstruction w s) := by
  unfold execIllegalInstruction
  split <;> simpa

theorem mem_of_fetchAt {t : State} {x : CoreResolve} {v : Option Nat} {f : FetchRes} (h : s.fetchAt x v = (t, f)) : t.mem = s.mem := by
  cases x <;> grind [State.fetchAt, → mem_of_loadAt, = State.charge_mem, = State.dropReads_mem]

theorem mem_of_fetchWord {t : State} {f : FetchRes} (h : s.fetchWord = (t, f)) : t.mem = s.mem := by
  grind [State.fetchWord, → mem_of_fetchAt, → mem_of_translateRead, → mem_of_coreResolve]

theorem canonical_fetch (h : s.mem.wf = true) : Canonical (execFetch s) := by
  unfold execFetch
  split
  case h_1 hf => simpa [mem_of_fetchWord hf]
  · simpa

theorem canonical_exec (i : Instr) (h : s.mem.wf = true) : Canonical (exec i s) := by
  cases i with
  | add | sub | mul | mulh | mulhn | div | divn | rem | remn | and | or | xor | andn | sll | srl | sra | min | max | minn |
    maxn | sh1add | sh2add | sh3add | popc | clz | addi | andi | ori | xori | slli | srli | srai | ext | exts | ins | liz |
    lin | lik | sel | cmp | cmpi | plog | fence | fenceAcq | fenceRel =>
    exact canonical_setMe _ h
  | ldI8 | ldI16 | ldI32 | ld64 | ldN8 | ldN16 | ldN32 | lda | ldf => exact canonical_coreLoad _ _ _ _ _ _ h
  | st8 | st16 | st32 | st64 | stl => exact canonical_coreStore _ _ _ h
  | aadd | aand | aor | axor | amin | amax | aminn | amaxn | aswp | acas =>
    simp only [exec, execAadd, execAand, execAor, execAxor, execAmin, execAmax, execAminn, execAmaxn, execAswp, execAcas]
    exact canonical_atomic _ _ _ _ _ _ h
  | pclr => exact canonical_onGranule _ _ _ h fun _ _ hw => canonical_done _ (by simpa)
  | probe => exact canonical_onGranule _ _ _ h fun _ _ hw => canonical_done _ hw
  | scld | scst => exact canonical_scAccess _ _ _ _ _ h
  | brc | brcNot => exact canonical_branchIf _ _ h
  | jal => exact canonical_jal _ _ h
  | jalr => exact canonical_jalr _ _ _ h
  | copy | conv | coll => exact canonical_engineCommand _ _ _ _ _ h
  | csrr => exact canonical_csrAccess _ _ h (canonical_setMe _ h)
  | csrw | csrx => exact canonical_csrAccess _ _ h (canonical_csrStore _ _ _ _ h)
  | injData | injDataP => exact canonical_onSeq _ h fun _ => canonical_inject _ _ _ _ h
  | pref => exact (canonical_pref _ h :)
  | cfg => exact (canonical_cfg _ h :)
  | run => exact (canonical_run h :)
  | swo => exact (canonical_swo _ h :)
  | injStop => exact (canonical_injStop _ _ _ h :)
  | take => exact (canonical_take _ _ h :)
  | wex => exact (canonical_wex _ h :)
  | halta => exact (canonical_halta _ h :)
  | rela => exact (canonical_rela _ h :)
  | icomma => exact (canonical_icomma _ h :)
  | imode => exact (canonical_imode _ h :)
  | bar => exact (canonical_bar _ h :)
  | launch => exact (canonical_launch _ _ _ h :)
  | sema => exact (canonical_sema _ h :)
  | semr => exact (canonical_semr _ h :)
  | ewait => exact (canonical_ewait _ h :)
  | csrWrite => exact (canonical_csrWrite _ _ h :)
  | veAdd | veSub | veMul | veFma | veFms | veNeg | veAbs | veMin | veMax | veClamp | veCmp | veSelect | veCvt | veCvtEmit |
    veRint | veScale | veShl | veShr | veSar | veAnd | veOr | veXor | veNot | veAndn | veExp2 | veLog2 | veRcp | veRsqrt |
    veSqrt | veTanh | veLogistic | veBcast | vePerm | veRot | veRsum | vePsum | veRmax | veRmin | veTacc | veTaccClose |
    veMxpack | veMxpackEmit | veMxunpack | veMxunpackEmit | veAmask | veConst | veSteer | veMerge | veCarry | veInv | veFork |
    veSink | sqLoopa | sqLoopt | sqMxcmd | sqSeq | sqPipe | sqStream | sqPermit | sqDone | sqCount | sqExit | agDloadEmit |
    hdBvscan | hdBtscan | brEresp =>
    exact canonical_fireOp _ _ _ h
  | mxMma | mxMmt | mxMres | mxTxch | mxDrain | mxLdacc | mxZero | mxErrorCommand | mxStep | mxLdaccBeat | mxDrainBeat |
    mxStopBoundary =>
    exact canonical_fireMx _ h
  | agAload | agGather => exact canonical_agentOp _ _ mem_of_loadEvent h
  | agAstore => exact canonical_agentOp _ _ mem_of_astoreEvent h
  | agScatter => exact canonical_agentOp _ _ mem_of_scatterEvent h
  | agDload => exact canonical_agentOp _ _ mem_of_dloadEvent h
  | agPclear | agFill => exact canonical_agentOp _ _ mem_of_fillEvent h
  | hdMclass => exact canonical_hdOp _ mem_of_mclassFire h
  | hdPmask => exact canonical_hdOp _ mem_of_pmaskFire h
  | hdPmaskRow => exact canonical_hdOp _ mem_of_pmaskRow h
  | owOadd | owOmin | owOmax | owOand | owOor | owOxor | owOswp | owOcas | owOread => exact canonical_owOp _ wf_of_lineEvent h
  | owOinc => exact canonical_owOp _ wf_of_binEvent h
  | owOmxacc => exact canonical_owOp _ wf_of_omxaccEvent h
  | brEreq => exact canonical_brOp _ mem_of_ereqEvent h
  | brRload => exact canonical_brOp _ mem_of_rloadEvent h
  | brRstore => exact canonical_brOp _ mem_of_rstoreEvent h
  | brRatom => exact canonical_brOp _ mem_of_ratomEvent h
  | teCopy | cvCast => exact canonical_engineEvent _ _ _ wf_of_moveRows h
  | cvCsr => exact canonical_engineEvent _ _ _ wf_of_packRows h
  | clAllreduce | clRedscat | clAllgather | clBcast => exact canonical_engineEvent _ _ _ wf_of_collect h
  | resume | substitute | abort => exact (canonical_next _).mpr (wf_takeReply _ h)
  | evtPend => exact (canonical_evtPend _ h :)
  | alertPend => exact (canonical_alertPend _ h :)
  | mcAsinval => exact (canonical_mcAsinval _ h :)
  | meterStep => exact (canonical_meterStep _ h :)
  | member => exact (canonical_member _ h :)
  | groupSetWrite => exact (canonical_groupSetWrite _ h :)
  | halt => exact (canonical_next _).mpr (by simpa)
  | trap => exact canonical_trapInstr _ h
  | rtt => exact canonical_trapReturn _ h
  | wfe => exact canonical_wfe h
  | linkTrain => exact (canonical_next _).mpr (State.wf_train _ _ h)
  | lotarLinkDown => exact (canonical_next _).mpr (State.wf_dropLink _ h)
  | sensorSweep => exact (canonical_next _).mpr (wf_sweep _ _ h)
  | illegalInstruction => exact canonical_illegalInstruction _ h
  | fetch => exact canonical_fetch h
  | semAcq => exact (canonical_semAcq h :)
  | semRel => exact (canonical_semRel h :)
  | carReg => exact (canonical_carReg h :)
  | carUnreg => exact (canonical_carUnreg h :)
  | asSetSet => exact (canonical_asSetSet h :)
  | asSetRemove => exact (canonical_asSetRemove h :)
  | asSetInval => exact (canonical_asSetInval h :)
  | resSet => exact (canonical_resSet h :)
  | portReset => exact (canonical_portReset h :)
  | cellClr => exact (canonical_cellClr h :)
  | getCert => exact (canonical_getCert h :)
  | attest => exact (canonical_attest h :)
  | keyAgree => exact (canonical_keyAgree h :)
  | sessionOpen => exact (canonical_sessionOpen h :)
  | sessionClose => exact (canonical_sessionClose h :)
  | read => exact (canonical_read _ h :)
  | powerOn => exact (canonical_powerOn h :)
  | linkRekey => exact (canonical_linkRekey _ h :)
  | linkDown => exact (canonical_linkDown h :)
  | linkUp => exact (canonical_linkUp h :)
  | launchRecordRead => exact (canonical_launchRecordRead h :)
  | dependenceFill => exact (canonical_dependenceFill h :)
  | imageMeasure => exact (canonical_imageMeasure h :)
  | arbitrationRound => exact (canonical_arbitrationRound h :)
  | configLoad => exact (canonical_configLoad h :)
  | prefetchCheck => exact (canonical_prefetchCheck h :)
  | predictorFetch => exact (canonical_predictorFetch _ h :)
  | elementAdopt => exact (canonical_elementAdopt h :)
  | switchoverDiscard => exact (canonical_switchoverDiscard _ h :)
  | stopHandling => exact (canonical_stopHandling h :)
  | modeHandling => exact (canonical_modeHandling h :)
  | exitArrival => exact (canonical_exitArrival h :)
  | instanceRetire => exact (canonical_instanceRetire h :)
  | storeModeChange => exact (canonical_storeModeChange _ h :)
  | accessPerformed => exact (canonical_accessPerformed _ h :)
  | scAccessPerform => exact (canonical_scAccessPerform h :)
  | engineCommandEnd => exact (canonical_engineCommandEnd _ h :)
  | phaseMessage => exact (canonical_phaseMessage _ _ _ h :)
  | pacingDescriptorValid => exact (canonical_pacingDescriptorValid _ h :)
  | parkComplete => exact (canonical_parkComplete _ h :)
  | faultRecordWrite => exact (canonical_faultRecordWrite h :)
  | fqLinkRead => exact (canonical_fqLinkRead h :)
  | clusterAbort => exact (canonical_clusterAbort h :)
  | elementFreeze => exact (canonical_elementFreeze h :)
  | snapshotComplete => exact (canonical_snapshotComplete h :)
  | clusterComplete => exact (canonical_clusterComplete h :)
  | tickEnd => exact (canonical_tickEnd _ h :)
  | droop => exact (canonical_droop _ _ h :)
  | emergencyExpire => exact (canonical_emergencyExpire _ _ h :)
  | learnedHoldExpire => exact (canonical_learnedHoldExpire _ h :)
  | give => exact (canonical_give h :)
  | giveReceive => exact (canonical_giveReceive _ _ h :)
  | giveAnswer => exact (canonical_giveAnswer _ h :)
  | powerRemoval => exact (canonical_powerRemoval h :)
  | agResponseEmit => exact (canonical_agResponseEmit h :)
  | agCompletion => exact (canonical_agCompletion h :)
  | hdScanEmit => exact (canonical_hdScanEmit h :)
  | owCompletion => exact (canonical_owCompletion h :)

theorem canonical_runWord (w : W32) (h : s.mem.wf = true) : Canonical (runWord w s) := by
  unfold runWord
  split <;> exact canonical_exec _ h

theorem canonical_coreTurn (h : s.mem.wf = true) : Canonical (coreTurn s) := by
  unfold coreTurn
  split
  · exact canonical_runWord _ h
  · split
    case h_1 hf => exact canonical_runWord _ (by simpa [mem_of_fetchWord hf])
    case h_2 hf => simpa [mem_of_fetchWord hf]
    · exact canonical_exec _ h
    case h_4 hf => exact canonical_coreFatal _ (by rwa [mem_of_fetchWord hf])

theorem canonical_idleTurn (h : s.mem.wf = true) : Canonical (idleTurn s) := by
  unfold idleTurn
  split
  · split
    · exact canonical_exec _ h
    · exact canonical_coreTurn h
  · simp

theorem canonical_takeTurn (t : Turn) (h : s.mem.wf = true) : Canonical (takeTurn t s) := by
  cases t with
  | host a => exact (canonical_next _).mpr (wf_hostAct a h)
  | event i =>
    unfold takeTurn
    dsimp only
    split
    · simpa
    · exact canonical_exec _ h
  | core c =>
    unfold takeTurn
    dsimp only
    split
    · exact canonical_coreTurn h
    · simpa

theorem canonical_darkTurn (h : s.mem.wf = true) : Canonical (darkTurn s) := by
  unfold darkTurn
  split
  · exact (canonical_next _).mpr (wf_hostAct _ h)
  · exact canonical_exec _ h
  · split
    · split <;> exact canonical_exec _ h
    · simpa
  · split
    · exact canonical_exec _ h
    · simp

theorem canonical_step (h : s.mem.wf = true) : Canonical (step s) := by
  unfold step turn
  split
  · split
    · exact canonical_idleTurn h
    · exact canonical_takeTurn _ h
  · exact canonical_darkTurn h

end

end Sys2Proof.Machine
end

section

namespace Sys2Proof.Proofs

open Sys2Proof.Machine Sys2Proof.Claims

/-- Settles O57: the memories stay in canonical form, whatever a step makes of the state. -/
theorem memoryStaysCanonical : Obligations.MemoryStaysCanonical := fun _ _ hs hstep => canonical_step hs _ hstep

end Sys2Proof.Proofs
end

section
/-! SUPPORT. Where an effective address of a core goes (R140, R158, R159, R389): what `direct` and the core's own memory make of it. -/

namespace Sys2Proof.Machine

section
variable {o : Nat}

/-- The address with 0xFFFF in its top half and offset `o` below. -/
def topAddr (o : Nat) : W64 := BitVec.ofNat 64 (0xFFFF * 2 ^ 48 + o)

theorem topAddr_toNat (ho : o < 2 ^ 48) : (topAddr o).toNat = 0xFFFF * 2 ^ 48 + o := by
  rw [topAddr, BitVec.toNat_ofNat]
  omega

theorem topAddr_top (ho : o < 2 ^ 48) : (topAddr o).toNat / 2 ^ 48 = 0xFFFF ∧ (topAddr o).toNat % 2 ^ 48 = o := by
  rw [topAddr_toNat ho]
  omega

theorem direct_seq (r : Nat) (ho : o < 2 ^ 48) : direct (.seq r) (topAddr o) = .part o := by
  obtain ⟨htop, hoff⟩ := topAddr_top ho
  unfold direct
  rw [if_pos htop, hoff]

theorem direct_mc (ho : o < 2 ^ 48) : direct .mc (topAddr o) = .sram o := by
  obtain ⟨htop, hoff⟩ := topAddr_top ho
  unfold direct
  rw [if_pos htop, hoff]

end

section
variable {s : State}

theorem State.coreResolve_part {r o : Nat} {acc : Acc} (hs : s.cur = .seq r) (ho : o < 2 ^ 48) :
    s.coreResolve (topAddr o) acc = (s, s.partResolve o acc) := by
  simp only [State.coreResolve, hs, direct_seq r ho]

theorem State.coreResolve_sram {o : Nat} {acc : Acc} (hs : s.cur = .mc) (ho : o < 2 ^ 48) :
    s.coreResolve (topAddr o) acc = (s, sramResolve o acc) := by
  simp only [State.coreResolve, hs, direct_mc ho]

/-- What an access to a partition answers at a place of it, or beyond it (R140, R389). -/
def Cluster.partAnswer (c : Cluster) (acc : Acc) : Option Place → CoreResolve
  | none => .trap causeBounds
  | some p => if acc = .presence ∧ c.recd.psa = false then .trap causePermission else .ok p c.recd.psa

/- `islandPlace` is put out of sight, or the kernel would evaluate the size of the partition. -/
theorem State.partResolve_cluster {c : Cluster} (h : (s.coreCluster s.cur).bind s.cluster? = some c) (o : Nat) (acc : Acc) :
    s.partResolve o acc = c.partAnswer acc (islandPlace c.banks o) := by
  obtain ⟨place, hplace⟩ : ∃ f : Cluster → Option Place, ∀ k, islandPlace k.banks o = f k := ⟨_, fun _ => rfl⟩
  unfold State.partResolve
  simp only [hplace]
  rw [h]
  dsimp only
  cases place c <;> rfl

theorem State.partResolve_eq {r k : Nat} {c : Cluster} (hs : s.cur = .seq r) (hk : s.clusterOf r = some k) (hc : s.cluster? k = some c)
    (o : Nat) (acc : Acc) : s.partResolve o acc =
      if c.banks.length * 262144 ≤ o then .trap 0x09
      else if acc = .presence ∧ c.recd.psa = false then .trap 0x07
      else .ok (.bank (c.banks.getD (o / 4096 % c.banks.length) 0) (o / 4096 / c.banks.length * 4096 + o % 4096)) c.recd.psa := by
  rw [State.partResolve_cluster (c := c) (by simp [State.coreCluster, hs, hk, hc])]
  by_cases hout : c.banks.length * 262144 ≤ o
  · have hplace : islandPlace c.banks o = none := if_pos hout
    rw [hplace, if_pos hout]
    rfl
  · have hplace : islandPlace c.banks o = some (.bank (c.banks.getD (o / 4096 % c.banks.length) 0)
        (o / 4096 / c.banks.length * 4096 + o % 4096)) := if_neg hout
    rw [hplace, if_neg hout]
    rfl

end

end Sys2Proof.Machine

namespace Sys2Proof.Proofs

open Sys2Proof.Machine Sys2Proof.Claims

/-- Settles O4: the partition byte of a sequencer's address and the SRAM byte of the management core's, or their traps. -/
theorem addressesDirected : Obligations.AddressesDirected :=
  ⟨fun _ _ _ o _ acc hs hk hc ho => (State.coreResolve_part hs ho).trans (congrArg _ (State.partResolve_eq hs hk hc o acc)),
    fun _ _ _ hs ho => State.coreResolve_sram hs ho⟩

end Sys2Proof.Proofs
end

section
/-! SUPPORT. The walk of the page tables (R148, R149): what one entry does to it, and that cached entries (R152) leave it as it is
where none is cached at its levels. -/

namespace Sys2Proof.Machine

/-! ## One entry -/

/-- How a walk goes on from what its entry says, `go` giving the walk of the next table. -/
def EntryRes.follow (go : Nat → Except Nat Leaf) : EntryRes → Except Nat Leaf
  | .fault c => .error c
  | .leaf l => .ok l
  | .table b => go b

@[simp] theorem EntryRes.follow_fault (go : Nat → Except Nat Leaf) (c : Nat) : (EntryRes.fault c).follow go = .error c := rfl
@[simp] theorem EntryRes.follow_leaf (go : Nat → Except Nat Leaf) (l : Leaf) : (EntryRes.leaf l).follow go = .ok l := rfl
@[simp] theorem EntryRes.follow_table (go : Nat → Except Nat Leaf) (b : Nat) : (EntryRes.table b).follow go = go b := rfl

section
variable {m : List Host.Cell} {member va n a b cls : Nat}

/- The entry is put out of sight before the two sides are compared: `unfold` would evaluate the bytes it is read from. -/

theorem walk_zero : walk m member va 0 a =
    (entryRes member va 0 (tableEntry m va 0 a)).follow (fun _ => .error clsMalformed) := by
  rw [← Nat.zero_eq]
  delta walk walk._f
  dsimp only [Nat.brecOn, Nat.brecOn.go]
  generalize entryRes member va 0 (tableEntry m va 0 a) = x
  cases x <;> rfl

theorem walk_succ : walk m member va (n + 1) a =
    (entryRes member va (n + 1) (tableEntry m va (n + 1) a)).follow (walk m member va n) := by
  delta walk walk._f
  dsimp only [Nat.brecOn]
  generalize entryRes member va (n + 1) (tableEntry m va (n + 1) a) = x
  cases x <;> rfl

theorem walk_of_fault (h : entryRes member va n (tableEntry m va n a) = .fault cls) : walk m member va n a = .error cls := by
  cases n with
  | zero => simp only [walk_zero, h, EntryRes.follow_fault]
  | succ n => simp only [walk_succ, h, EntryRes.follow_fault]

theorem walk_of_leaf {l : Leaf} (h : entryRes member va n (tableEntry m va n a) = .leaf l) : walk m member va n a = .ok l := by
  cases n with
  | zero => simp only [walk_zero, h, EntryRes.follow_leaf]
  | succ n => simp only [walk_succ, h, EntryRes.follow_leaf]

theorem walk_of_table (h : entryRes member va (n + 1) (tableEntry m va (n + 1) a) = .table b) :
    walk m member va (n + 1) a = walk m member va n b := by
  simp only [walk_succ, h, EntryRes.follow_table]

theorem entryRes_invalid {e : Nat} (h : e % 2 = 0) : entryRes member va n e = .fault clsTranslation := if_pos h

/-- An entry that is valid, is no leaf and has no reserved bit set names the next table. -/
theorem entryRes_table {e : Nat} (hlow : bits e 5 0 = 1) (hhigh : bits e 63 57 = 0) (hmid : bits e 11 6 = 0)
    (hmember : bits e 56 47 = member) : entryRes member va (n + 1) e = .table (bits e 46 12 * 4096) := by
  have h6 : e % 64 = 1 := by simpa [bits] using hlow
  have h52 : bits e 5 2 = 0 := by simp only [bits]; omega
  unfold entryRes
  rw [if_neg (by omega), if_neg (by simp [hhigh, hmid]), if_pos (by omega), if_neg (by simp [h52, hmember])]

/-- A leaf below level 0 whose reserved bits are zero gives the page of its level. -/
theorem entryRes_leaf {e : Nat} (hn : n < 3) (hlow : e % 4 = 3) (hhigh : bits e 63 57 = 0) (hmid : bits e 11 6 = 0)
    (hkind : bits e 5 4 ≤ 1) (hpage : bits e (16 + 9 * n - 1) 12 = 0) (hhost : bits e 5 4 = 0 → bits e 56 47 ≤ 575) :
    entryRes member va n e =
      .leaf { base := va - va % 2 ^ (16 + 9 * n), size := 2 ^ (16 + 9 * n), phys := bits e 56 (16 + 9 * n) * 2 ^ (16 + 9 * n),
              kind := bits e 5 4, sa := e / 8 % 2 == 1, w := e / 4 % 2 == 1 } := by
  unfold entryRes
  dsimp only
  rw [if_neg (by omega), if_neg (by simp [hhigh, hmid]), if_neg (by omega), if_neg (by simp only [hpage]; omega), if_neg (by omega)]

end

/-! ## Cached entries -/

section
variable {s : State} {asid va n a : Nat}

/-- No entry is cached that an access could use at the level with `n` levels below it, or at a lower one. -/
def State.ColdBelow (s : State) (n : Nat) : Prop := ∀ c ∈ s.ports.tlb, 16 + 9 * n < Nat.log2 c.size

theorem State.coldBelow_of_empty (h : s.ports.tlb = []) (n : Nat) : s.ColdBelow n := by simp [State.ColdBelow, h]

theorem Cached.covers_size {c : Cached} (h : c.covers asid va n = true) : c.size = 2 ^ (16 + 9 * n) := by
  simp only [Cached.covers, Bool.and_eq_true, beq_iff_eq] at h
  exact h.1.2

theorem State.entryUsed_cold (h : s.ColdBelow n) (e : Nat) : s.entryUsed asid va n e = (s.cache asid va n e, e) := by
  have hnone : s.ports.tlb.find? (fun c => c.covers asid va n) = none := by
    refine List.find?_eq_none.mpr fun c hc hcov => ?_
    have hlt := h c hc
    rw [Cached.covers_size hcov, Nat.log2_two_pow] at hlt
    exact lt_irrefl _ hlt
  unfold State.entryUsed
  rw [hnone]

theorem State.coldBelow_cache (h : s.ColdBelow (n + 1)) (e : Nat) : (s.cache asid va (n + 1) e).ColdBelow n := by
  intro c hc
  simp only [State.cache, List.mem_append, List.mem_filter, List.mem_singleton] at hc
  obtain ⟨hold, -⟩ | rfl := hc
  · have := h c hold
    omega
  · rw [Nat.log2_two_pow]
    omega

/-- A walk that meets no cached entry follows the tables. -/
theorem State.walkCached_cold (h : s.ColdBelow n) : (s.walkCached asid va n a).2 = walk s.mem.hbm s.member va n a := by
  induction n generalizing s a with
  | zero =>
    rw [walk_zero]
    unfold State.walkCached
    rw [State.entryUsed_cold h]
    dsimp only
    split
    case h_4 hn => cases hn
    all_goals simp_all
  | succ n ih =>
    rw [walk_succ]
    unfold State.walkCached
    rw [State.entryUsed_cold h]
    dsimp only
    split
    case h_3 hn => cases hn
    case h_4 hx hn =>
      cases hn
      rw [hx, EntryRes.follow_table]
      exact ih (State.coldBelow_cache h _)
    all_goals simp_all

end

/-! ## The tables of an address space -/

/-- The local address of the table that a walk meets at level `l`, the entries above it given by `e`. -/
def tableAt (root : Nat) (e : Nat → Nat) (l : Nat) : Nat := if l = 0 then root % 2 ^ 47 else bits (e (l - 1)) 46 12 * 4096

section
variable {m : List Host.Cell} {member va root lvl : Nat} {e : Nat → Nat}

/-- A walk that meets tables down to a level goes on from the table of that level. -/
theorem walk_tableAt (hlvl : lvl < 4) (hread : ∀ l, l < lvl → tableEntry m va (3 - l) (tableAt root e l) = e l)
    (htable : ∀ l, l < lvl → bits (e l) 5 0 = 1 ∧ bits (e l) 63 57 = 0 ∧ bits (e l) 11 6 = 0 ∧ bits (e l) 56 47 = member) :
    walk m member va 3 (root % 2 ^ 47) = walk m member va (3 - lvl) (tableAt root e lvl) := by
  induction lvl with
  | zero => rfl
  | succ l ih =>
    rw [ih (by omega) (fun k hk => hread k (by omega)) (fun k hk => htable k (by omega))]
    obtain ⟨hlow, hhigh, hmid, hmember⟩ := htable l (by omega)
    have hlevel : 3 - l = 3 - (l + 1) + 1 := by omega
    have hentry := hread l (by omega)
    rw [hlevel] at hentry ⊢
    rw [walk_of_table ((congrArg (entryRes member va _) hentry).trans (entryRes_table hlow hhigh hmid hmember))]
    rfl

end

end Sys2Proof.Machine

namespace Sys2Proof.Proofs

open Sys2Proof.Machine Sys2Proof.Claims

/-- Settles O5: the walk goes on at each table, so its end is what the entry at level `lvl` says. -/
theorem walkFollowsTables : Obligations.WalkFollowsTables := by
  intro s asid va x e lvl hasid hx hva hlvl hread htable
  have hlow : ¬ va / 2 ^ 52 ≠ 0 := by omega
  have hlevel (l : Nat) (hl : l ≤ lvl) : tableEntry s.mem.hbm va (3 - l) (tableAt x.root e l) = e l := by
    have hbits : 24 + 9 * (3 - l) = 51 - 9 * l ∧ 16 + 9 * (3 - l) = 43 - 9 * l := by omega
    rw [tableEntry, hbits.1, hbits.2]
    exact hread l hl
  have hwalk : s.walkOf asid va = walk s.mem.hbm s.member va (3 - lvl) (tableAt x.root e lvl) := by
    rw [State.walkOf, if_neg hlow, if_neg hasid, hx]
    exact walk_tableAt hlvl (fun l hl => hlevel l hl.le) htable
  refine ⟨fun hinvalid => ?_, fun hleaf hpos hhigh hmid hkind hpage hhost => ?_, fun hcold => ?_⟩
  · rw [hwalk]
    exact walk_of_fault (by rw [hlevel lvl le_rfl]; exact entryRes_invalid hinvalid)
  · have hsize : 16 + 9 * (3 - lvl) = 43 - 9 * lvl := by omega
    have hres := entryRes_leaf (member := s.member) (va := va) (n := 3 - lvl) (by omega) hleaf hhigh hmid hkind
      (by rw [show 16 + 9 * (3 - lvl) - 1 = 42 - 9 * lvl by omega]; exact hpage) hhost
    rw [hsize] at hres
    refine ⟨_, hwalk.trans (walk_of_leaf (by rw [hlevel lvl le_rfl]; exact hres)), rfl, rfl, rfl, rfl, ?_, ?_⟩
    · simp [bits, Bool.beq_eq_decide_eq]
    · simp [bits, Bool.beq_eq_decide_eq]
  · rw [State.leafOf, if_neg (by simp only [hasid, or_false]; exact hlow), hx]
    dsimp only
    rw [State.walkCached_cold (State.coldBelow_of_empty hcold 3), State.walkOf, if_neg hlow, if_neg hasid, hx]

end Sys2Proof.Proofs
end

section
/-! SUPPORT. Where the scalar accesses of a core stop before they do anything (R178 to R180, R385, R387, R389, R391): the trap each of
their checks raises, and what TINFO says of it (R183). -/

namespace Sys2Proof.Machine

open Sys2Proof.Claims

/-! ## TINFO and the spaces of an address -/

theorem tinfo_eq_infoOf (g space : Nat) (pres wr : Bool) (lg : Nat) : tinfo 0 g space pres wr lg = infoOf g space pres wr lg :=
  congrArg (BitVec.ofNat 64) (by omega)

theorem top_iff (ea : W64) : ea.extractLsb' 48 16 = 0xFFFF#16 ↔ ea.toNat / 2 ^ 48 = 0xFFFF := by
  rw [← BitVec.toNat_inj, BitVec.extractLsb'_toNat, Nat.shiftRight_eq_div_pow, BitVec.toNat_ofNat]
  omega

theorem State.spaceOf_eq (s : State) (ea : W64) : s.spaceOf ea = spaceCode s ea := by
  unfold State.spaceOf spaceCode direct
  by_cases htop : ea.toNat / 2 ^ 48 = 0xFFFF
  · rw [if_pos htop, if_pos ((top_iff ea).mpr htop)]
    cases s.cur <;> rfl
  · rw [if_neg htop, if_neg (mt (top_iff ea).mp htop)]
    rfl

theorem gstCode_eq (g : Gst) : gstCode g = g.code := by cases g <;> rfl

/-- The address names a byte of the core's own memory. -/
theorem eq_topAddr {ea : W64} (htop : ea.extractLsb' 48 16 = 0xFFFF#16) : ea = topAddr (ea.toNat % 2 ^ 48) := by
  refine BitVec.eq_of_toNat_eq ?_
  have hdiv := (top_iff ea).mp htop
  rw [topAddr_toNat (Nat.mod_lt _ (by decide))]
  omega

theorem direct_virt {c : CoreId} {ea : W64} (htop : ea.extractLsb' 48 16 ≠ 0xFFFF#16) : direct c ea = .virt ea :=
  if_neg (mt (top_iff ea).mpr htop)

theorem State.standing_none {s : State} {rd : Reader} (h : ∀ r ∈ s.ports.reads, r.reader ≠ rd) (asid va : Nat) :
    s.standing rd asid va = none := by
  have hfind : s.ports.reads.find? (fun r => r.reader == rd && r.asid == asid && r.virt == some (va / 64)) = none :=
    List.find?_eq_none.mpr fun r hr => by simp [h r hr]
  rw [State.standing, hfind]
  rfl

/-- An access is translated through what the walk finds, where no entry is cached. -/
theorem State.leafOf_cold {s : State} (h : s.ports.tlb = []) (asid va : Nat) : (s.leafOf asid va).2 = s.walkOf asid va := by
  unfold State.leafOf
  by_cases hlow : va / 2 ^ 52 ≠ 0 ∨ asid = 0
  · rw [if_pos hlow]
  · obtain ⟨hva, hasid⟩ := not_or.mp hlow
    rw [if_neg hlow, State.walkOf, if_neg hva, if_neg hasid]
    cases s.aspace? asid with
    | none => rfl
    | some a => exact State.walkCached_cold (State.coldBelow_of_empty h 3)

section
variable {s : State} {ea : W64} {acc : Acc}

/-- A translated access of a core that stands at no granule: a fault of the translation is a trap. -/
theorem State.coreResolve_fault (htop : ea.extractLsb' 48 16 ≠ 0xFFFF#16) (hreads : ∀ r ∈ s.ports.reads, r.reader ≠ .core s.cur)
    {s1 : State} {c : Nat} (h : s.translate (s.coreAsid s.cur) ea.toNat acc = (s1, .fault c)) :
    s.coreResolve ea acc = (s1, .trap (c + 4)) := by
  simp only [State.coreResolve, State.translateRead, direct_virt htop, State.standing_none hreads, h]

theorem State.translate_cold (htlb : s.ports.tlb = []) (asid va : Nat) :
    s.translate asid va acc = match s.walkOf asid va with
      | .error c => ((s.leafOf asid va).1, .fault c)
      | .ok l => ((s.leafOf asid va).1, (s.leafOf asid va).1.throughLeaf asid l va acc) := by
  have hleaf : s.leafOf asid va = ((s.leafOf asid va).1, s.walkOf asid va) := Prod.ext rfl (State.leafOf_cold htlb asid va)
  unfold State.translate
  rw [hleaf]
  cases s.walkOf asid va <;> rfl

theorem State.coreResolve_walkFault (htop : ea.extractLsb' 48 16 ≠ 0xFFFF#16) (htlb : s.ports.tlb = [])
    (hreads : ∀ r ∈ s.ports.reads, r.reader ≠ .core s.cur) {c : Nat} (hwalk : s.walkOf (s.coreAsid s.cur) ea.toNat = .error c) :
    ∃ s1, s.coreResolve ea acc = (s1, .trap (c + 4)) :=
  ⟨_, State.coreResolve_fault htop hreads ((State.translate_cold htlb _ _).trans (by rw [hwalk]))⟩

/-- A write through a leaf without W, and a presence operation through one without SA. -/
theorem State.coreResolve_leafRefuses (htop : ea.extractLsb' 48 16 ≠ 0xFFFF#16) (htlb : s.ports.tlb = [])
    (hreads : ∀ r ∈ s.ports.reads, r.reader ≠ .core s.cur) {l : Leaf} (hwalk : s.walkOf (s.coreAsid s.cur) ea.toNat = .ok l)
    (hrefuse : acc = .write ∧ l.w = false ∨ acc = .presence ∧ l.sa = false) : ∃ s1, s.coreResolve ea acc = (s1, .trap 0x07) := by
  have hthrough (u : State) (asid va : Nat) : u.throughLeaf asid l va acc = .fault clsPermission := by
    unfold State.throughLeaf
    obtain ⟨rfl, hw⟩ | ⟨rfl, hsa⟩ := hrefuse
    · rw [if_pos ⟨rfl, hw⟩]
    · rw [if_neg (by simp), if_pos ⟨rfl, hsa⟩]
  exact ⟨_, State.coreResolve_fault htop hreads ((State.translate_cold htlb _ _).trans (by
    rw [hwalk]
    exact congrArg _ (hthrough _ _ _)))⟩

theorem State.coreResolve_partition {r k : Nat} {c : Cluster} (hs : s.cur = .seq r) (hk : s.clusterOf r = some k)
    (hc : s.cluster? k = some c) (htop : ea.extractLsb' 48 16 = 0xFFFF#16) :
    (c.banks.length * 262144 ≤ ea.toNat % 2 ^ 48 → s.coreResolve ea acc = (s, .trap 0x09)) ∧
    (ea.toNat % 2 ^ 48 < c.banks.length * 262144 → acc = .presence → c.recd.psa = false →
      s.coreResolve ea acc = (s, .trap 0x07)) := by
  have hresolve : s.coreResolve ea acc = (s, s.partResolve (ea.toNat % 2 ^ 48) acc) := by
    conv_lhs => rw [eq_topAddr htop]
    exact State.coreResolve_part hs (Nat.mod_lt _ (by decide))
  rw [hresolve, State.partResolve_eq hs hk hc]
  refine ⟨fun hout => by rw [if_pos hout], fun hin hacc hpsa => ?_⟩
  rw [if_neg (by omega), if_pos ⟨hacc, hpsa⟩]

theorem State.coreResolve_local (hs : s.cur = .mc) (htop : ea.extractLsb' 48 16 = 0xFFFF#16) :
    s.coreResolve ea acc = (s, sramResolve (ea.toNat % 2 ^ 48) acc) := by
  conv_lhs => rw [eq_topAddr htop]
  exact State.coreResolve_sram hs (Nat.mod_lt _ (by decide))

end

end Sys2Proof.Machine

namespace Sys2Proof.Claims

open Sys2Proof.Machine

section
variable {s s1 : State} {i : Instr} {x : ScalarAccess}

/-! ## The stop of an access -/

/-- The trap at which an access stops, the state its checks have left being `s1`. -/
def accessStop (x : ScalarAccess) (s s1 : State) (i : Instr) (cause g : Nat) : Out :=
  trap s1 i cause x.ea (tinfo 0 g (s.spaceOf x.ea) x.pres x.wr x.lg)

theorem trapped_of_sameButTlb {t : State} {cause : Nat} {addr info : W64} {code : BitVec 12} {w : W32} (h : SameButTlb s s1)
    (ht : Trapped s1 t cause addr info code w) : Trapped s t cause addr info code w := by
  obtain ⟨_, _, rfl⟩ := h
  exact ht

theorem accessRaises_of_stop {w : W32} {cause g : Nat} (hw : encode i = some w) (h : exec i s = accessStop x s s1 i cause g)
    (hsame : SameButTlb s s1) : AccessRaises i s x cause g := by
  have hword : wordOf i = w := by simp [wordOf, hw]
  rw [accessStop, tinfo_eq_infoOf, State.spaceOf_eq] at h
  exact ⟨w, hw, _, h, trapped_of_sameButTlb hsame (hword ▸ trapped_trapEntry s1 cause x.ea _ 0#12 _)⟩

/-- The outcome `o` of an access is the trap of the first check that refuses it. -/
structure StopsFirst (s : State) (i : Instr) (x : ScalarAccess) (o : Out) : Prop where
  misaligned : ¬x.isAligned → o = accessStop x s s i causeMisaligned 0
  translation {s1 : State} {c : Nat} : x.isAligned → s.coreResolve x.ea x.acc = (s1, .trap c) → o = accessStop x s s1 i c 0
  host {s1 : State} {p : Place} {sa : Bool} : x.isAligned → s.coreResolve x.ea x.acc = (s1, .ok p sa) → x.shape = .atomic →
    p.isHost = true → o = accessStop x s s1 i causePermission 0
  remote {s1 : State} {p : Place} {sa : Bool} : x.isAligned → s.coreResolve x.ea x.acc = (s1, .ok p sa) → x.shape = .sc →
    p.isLocal = false → o = accessStop x s s1 i causePermission 0
  void {s1 : State} {p : Place} : x.isAligned → Reaches s x.ea x.acc s1 p true → x.shape = .load →
    (s1.answerAt (.core s.cur) p = none ∧ s1.mem.gst p = .void ∨ s1.answerAt (.core s.cur) p = some .voided) →
    o = accessStop x s s1 i causePresence 2
  filled {s1 : State} {p : Place} : x.isAligned → Reaches s x.ea x.acc s1 p true → x.shape = .store → s1.mem.gst p ≠ .empty →
    o = accessStop x s s1 i causePresence (s1.mem.gst p).code
  atomicHeld {s1 : State} {p : Place} : x.isAligned → Reaches s x.ea x.acc s1 p true → x.shape = .atomic → p.isHost = false →
    o = accessStop x s s1 i causePresence (s1.mem.gst p).code
  scHeld {s1 : State} {p : Place} : x.isAligned → s.coreResolve x.ea x.acc = (s1, .ok p true) → x.shape = .sc →
    p.isLocal = true → o = accessStop x s s1 i causePresence (s1.mem.gst p).code

/-! ## The shapes of accesses -/

theorem aligned_iff : aligned x.ea (2 ^ x.lg) = true ↔ x.isAligned := by
  rw [aligned, beq_iff_eq, ScalarAccess.isAligned]

theorem lgw_two_pow {lg : Nat} (h : lg < 4 ∨ lg = 6) : lgw (2 ^ lg) = lg := by
  obtain h | rfl := h
  · interval_cases lg <;> rfl
  · rfl

theorem loadAt_void {p : Place} {n asid : Nat} {rd : Reader} {v : Option Nat}
    (h : s1.answerAt rd p = none ∧ s1.mem.gst p = .void ∨ s1.answerAt rd p = some .voided) :
    s1.loadAt rd asid p true n v = (s1, .void) := by
  obtain ⟨hnone, hvoid⟩ | hvoided := h
  · simp [State.loadAt, hnone, hvoid]
  · simp [State.loadAt, hvoided]

theorem storeAt_held {p : Place} {asid : Nat} {bs : List Byte} {mark : Bool} (h : s1.mem.gst p ≠ .empty) :
    s1.storeAt asid p true bs mark = .presence (s1.mem.gst p) := by
  unfold State.storeAt State.storeBy
  cases hg : s1.mem.gst p with
  | empty => exact absurd hg h
  | full => rfl
  | void => rfl

theorem coreLoad_stopsFirst {ea : W64} {lg : Nat} {acc : Acc} {pres : Bool} (hlg : lg < 4 ∨ lg = 6)
    (k : List Byte → Core → Core) :
    StopsFirst s i ⟨.load, ea, lg, acc, pres, false⟩ (coreLoad s i ea (2 ^ lg) acc pres k) := by
  have hal := aligned_iff (x := ⟨.load, ea, lg, acc, pres, false⟩)
  dsimp only at hal
  refine { misaligned := fun h => ?_, translation := fun h hr => ?_, void := fun h hr _ hv => ?_, host := nofun, remote := nofun,
           filled := nofun, atomicHeld := nofun, scHeld := nofun }
  · rw [← hal] at h
    simp only [coreLoad, h, lgw_two_pow hlg, accessStop]
    rfl
  · simp only [coreLoad, hal.mpr h, hr, lgw_two_pow hlg, accessStop]
    rfl
  · obtain ⟨hr, hecc⟩ := hr
    simp only [coreLoad, hal.mpr h, hr, hecc, loadAt_void hv, lgw_two_pow hlg, accessStop]
    rfl

theorem coreStore_stopsFirst {ea : W64} {lg : Nat} (hlg : lg < 4 ∨ lg = 6) {bs : List Byte} (hlen : bs.length = 2 ^ lg) :
    StopsFirst s i ⟨.store, ea, lg, .write, false, true⟩ (coreStore s i ea bs) := by
  have hal := aligned_iff (x := ⟨.store, ea, lg, .write, false, true⟩)
  dsimp only at hal
  refine { misaligned := fun h => ?_, translation := fun h hr => ?_, filled := fun h hr _ hg => ?_, host := nofun, remote := nofun,
           void := nofun, atomicHeld := nofun, scHeld := nofun }
  · rw [← hal] at h
    simp only [coreStore, hlen, h, lgw_two_pow hlg, accessStop]
    rfl
  · simp only [coreStore, hlen, hal.mpr h, hr, lgw_two_pow hlg, accessStop]
    rfl
  · obtain ⟨hr, hecc⟩ := hr
    simp only [coreStore, hlen, hal.mpr h, hr, hecc, storeAt_held hg, lgw_two_pow hlg, accessStop]
    rfl

theorem widthBytes_eq (w : Width) : widthBytes w = 2 ^ wLog w := by cases w <;> rfl

theorem wLog_small (w : Width) : wLog w < 4 ∨ wLog w = 6 := by cases w <;> decide

theorem atomic_stopsFirst (d a b : SReg) (w : Width) (f : W64 → W64 → Option W64) :
    StopsFirst s i ⟨.atomic, s.me.reg a, wLog w, .write, false, true⟩ (atomic s i d a b w f) := by
  have hal := aligned_iff (x := ⟨.atomic, s.me.reg a, wLog w, .write, false, true⟩)
  have hlg := lgw_two_pow (wLog_small w)
  dsimp only at hal
  refine { misaligned := fun h => ?_, translation := fun h hr => ?_, host := fun h hr _ hp => ?_,
           atomicHeld := fun h hr _ hp => ?_, remote := nofun, void := nofun, filled := nofun, scHeld := nofun }
  · rw [← hal] at h
    simp only [atomic, widthBytes_eq, h, hlg, accessStop]
    rfl
  · simp only [atomic, widthBytes_eq, hal.mpr h, hr, hlg, accessStop]
    rfl
  · simp only [atomic, widthBytes_eq, hal.mpr h, hr, hp, hlg, accessStop]
    rfl
  · obtain ⟨hr, hecc⟩ := hr
    simp only [atomic, widthBytes_eq, hal.mpr h, hr, hecc, hp, hlg, accessStop]
    rfl

theorem onGranule_stopsFirst (a : SReg) (wr : Bool) (k : State → Place → Out) :
    StopsFirst s i ⟨.granule, s.me.reg a, 6, .presence, true, wr⟩ (onGranule s i a wr k) := by
  have hal := aligned_iff (x := ⟨.granule, s.me.reg a, 6, .presence, true, wr⟩)
  dsimp only [Nat.reducePow] at hal
  refine { misaligned := fun h => ?_, translation := fun h hr => ?_, host := nofun, atomicHeld := nofun, remote := nofun,
           void := nofun, filled := nofun, scHeld := nofun }
  · rw [← hal] at h
    simp only [onGranule, h, accessStop]
    rfl
  · simp only [onGranule, hal.mpr h, hr, accessStop]
    rfl

theorem scAccess_stopsFirst (hwait : s.me.wait = .none) {v : Option W64} {acc : Acc} (hacc : acc = if v.isSome then .write else .read)
    {wr : Bool} (hwr : wr = v.isSome) (a : SReg) (w : Width) (k : W64 → Core → Core) :
    StopsFirst s i ⟨.sc, s.me.reg a, wLog w, acc, false, wr⟩ (scAccess s i a w v k) := by
  subst hacc hwr
  have hal := aligned_iff (x := ⟨.sc, s.me.reg a, wLog w, if v.isSome then .write else .read, false, v.isSome⟩)
  have hlg := lgw_two_pow (wLog_small w)
  dsimp only at hal
  rw [scAccess.eq_def, hwait]
  refine { misaligned := fun h => ?_, translation := fun h hr => ?_, remote := fun h hr _ hp => ?_, scHeld := fun h hr _ hp => ?_,
           host := nofun, atomicHeld := nofun, void := nofun, filled := nofun }
  · rw [← hal] at h
    simp only [widthBytes_eq, h, hlg, accessStop]
    rfl
  · simp only [widthBytes_eq, hal.mpr h, hr, hlg, accessStop]
    rfl
  · simp only [widthBytes_eq, hal.mpr h, hr, hp, hlg, accessStop]
    rfl
  · simp only [widthBytes_eq, hal.mpr h, hr, hp, hlg, accessStop]
    rfl

/-- Every access that begins is of one of these shapes, and its instruction has a word. -/
theorem Begins.stopsFirst (h : Begins s i x) : StopsFirst s i x (exec i s) ∧ ∃ w, encode i = some w := by
  obtain ⟨hx, hwait⟩ := h
  unfold scalarAccess at hx
  split at hx
  case h_29 => cases hx
  all_goals
    obtain rfl := Option.some.inj hx
    refine ⟨?_, _, rfl⟩
  case h_1 | h_2 | h_3 | h_4 | h_5 | h_6 | h_7 =>
    simp only [exec, execLdI8, execLdI16, execLdI32, execLd64, execLdN8, execLdN16, execLdN32, loadTo, effective]
    exact coreLoad_stopsFirst (by decide) _
  case h_8 | h_9 | h_10 | h_11 =>
    simp only [exec, execSt8, execSt16, execSt32, execSt64, storeFrom, effective]
    exact coreStore_stopsFirst (by decide) (length_leBytes _ _)
  case h_12 | h_13 =>
    simp only [exec, execLda, execLdf, widthBytes_eq]
    exact coreLoad_stopsFirst (wLog_small _) _
  case h_14 =>
    simp only [exec, execStl]
    exact coreStore_stopsFirst (wLog_small _) ((length_leBytes _ _).trans (widthBytes_eq _))
  case h_15 | h_16 | h_17 | h_18 | h_19 | h_20 | h_21 | h_22 | h_23 | h_24 =>
    simp only [exec, execAadd, execAand, execAor, execAxor, execAmin, execAmax, execAminn, execAmaxn, execAswp, execAcas]
    exact atomic_stopsFirst _ _ _ _ _
  case h_25 | h_26 =>
    simp only [exec, execPclr, execProbe]
    exact onGranule_stopsFirst _ _ _
  case h_27 =>
    simp only [exec, execScld]
    exact scAccess_stopsFirst (hwait rfl) (v := none) rfl rfl _ _ _
  case h_28 =>
    simp only [exec, execScst]
    exact scAccess_stopsFirst (hwait rfl) (v := some _) rfl rfl _ _ _

end

end Sys2Proof.Claims

namespace Sys2Proof.Proofs

open Sys2Proof.Machine Sys2Proof.Claims

theorem misalignedRaises : MisalignedRaises := by
  refine ⟨fun s d a imm h => ?_, fun s i x hbegins h => ?_⟩
  · exact raises_of_trap rfl (if_pos h)
  · obtain ⟨hstops, w, hw⟩ := hbegins.stopsFirst
    exact accessRaises_of_stop hw (hstops.misaligned h) (.refl s)

/-- Where an access of a core is refused, its instruction raises the cause. -/
theorem accessRaises_of_refused {s s1 : State} {i : Instr} {x : ScalarAccess} {c : Nat} (hbegins : Begins s i x) (hal : x.isAligned)
    (h : s.coreResolve x.ea x.acc = (s1, .trap c)) : AccessRaises i s x c 0 := by
  obtain ⟨hstops, w, hw⟩ := hbegins.stopsFirst
  have hsame := s.coreResolve_same x.ea x.acc
  rw [h] at hsame
  exact accessRaises_of_stop hw (hstops.translation hal h) hsame

theorem coreResolve_sameButTlb {s s1 : State} {ea : W64} {acc : Acc} {r : CoreResolve} (h : s.coreResolve ea acc = (s1, r)) :
    SameButTlb s s1 := by
  have hsame := s.coreResolve_same ea acc
  rwa [h] at hsame

theorem translationRaises : TranslationRaises := by
  intro s i x hbegins hal
  obtain ⟨hstops, w, hw⟩ := hbegins.stopsFirst
  refine ⟨fun htop htlb hreads => ⟨fun c hwalk => ?_, fun l hwalk => ⟨fun hacc hl => ?_, fun hacc hl => ?_⟩⟩,
    fun r k c hs hk hc htop => ?_, fun hs htop => ⟨fun hout => ?_, fun hin hor => ?_⟩,
    fun s1 p sa hr => ⟨fun hshape hp => ?_, fun hshape hp => ?_⟩⟩
  · obtain ⟨s1, h⟩ := State.coreResolve_walkFault (acc := x.acc) htop htlb hreads hwalk
    exact accessRaises_of_refused hbegins hal h
  · obtain ⟨s1, h⟩ := State.coreResolve_leafRefuses htop htlb hreads hwalk (.inl ⟨hacc, hl⟩)
    exact accessRaises_of_refused hbegins hal h
  · obtain ⟨s1, h⟩ := State.coreResolve_leafRefuses htop htlb hreads hwalk (.inr ⟨hacc, hl⟩)
    exact accessRaises_of_refused hbegins hal h
  · obtain ⟨hbeyond, hpresence⟩ := State.coreResolve_partition (acc := x.acc) hs hk hc htop
    exact ⟨fun hout => accessRaises_of_refused hbegins hal (hbeyond hout),
      fun hin hacc hpsa => accessRaises_of_refused hbegins hal (hpresence hin hacc hpsa)⟩
  · exact accessRaises_of_refused hbegins hal ((State.coreResolve_local hs htop).trans (congrArg _ (if_pos hout)))
  · have hresolve := State.coreResolve_local (acc := x.acc) hs htop
    rw [sramResolve, if_neg (by omega)] at hresolve
    by_cases hacc : x.acc = .presence
    · rw [if_pos hacc] at hresolve
      exact accessRaises_of_refused hbegins hal hresolve
    · rw [if_neg hacc] at hresolve
      exact accessRaises_of_stop hw (hstops.remote hal hresolve (hor.resolve_left hacc) rfl) (.refl s)
  · exact accessRaises_of_stop hw (hstops.host hal hr hshape hp) (coreResolve_sameButTlb hr)
  · exact accessRaises_of_stop hw (hstops.remote hal hr hshape hp) (coreResolve_sameButTlb hr)

theorem presenceRaises : PresenceRaises := by
  intro s s1 i x p hbegins hal
  obtain ⟨hstops, w, hw⟩ := hbegins.stopsFirst
  rw [gstCode_eq]
  exact ⟨fun hr hshape =>
      ⟨fun hnone hvoid => accessRaises_of_stop hw (hstops.void hal hr hshape (.inl ⟨hnone, hvoid⟩)) (coreResolve_sameButTlb hr.1),
        fun hvoided => accessRaises_of_stop hw (hstops.void hal hr hshape (.inr hvoided)) (coreResolve_sameButTlb hr.1)⟩,
    fun hr hshape hg => accessRaises_of_stop hw (hstops.filled hal hr hshape hg) (coreResolve_sameButTlb hr.1),
    fun hr hshape hp => accessRaises_of_stop hw (hstops.atomicHeld hal hr hshape hp) (coreResolve_sameButTlb hr.1),
    fun hr hshape hp => accessRaises_of_stop hw (hstops.scHeld hal hr hshape hp) (coreResolve_sameButTlb hr)⟩

/-- Settles O13: the checks of an access come first, and each that refuses it is a trap. -/
theorem accessTraps : Obligations.AccessTraps := ⟨misalignedRaises, translationRaises, presenceRaises⟩

end Sys2Proof.Proofs
end

section
/-! SUPPORT. A cluster that completes while a port waits for a semaphore one of its regions holds (R109, R466): the release grants it
to the port, whose status cell the dispatcher then fills. -/

namespace Sys2Proof.Machine

/-- A cluster of region 0 in an address space that is not set. -/
def endedCluster : Cluster :=
  { caravan := 0, asid := 1
    recd := { image := 0#64, next := 0#64, compl := 0#64, asidField := 1#16, prio := 0#8, shape := 0#8, csize := 0#8, rect := 0#8,
              part := 0#16, ndep := 0#8, deps := [], args := [], clean := true }
    header := { ncfg := 0, progOff := 0#64, progLen := 0#64, cdirOff := 0#64, imageLen := 0#64, digest := 0#384 }
    regions := [0], banks := [], dx := 0, dy := 0, barArrived := 0#128, barGen := 0#32, snapCount := 0#32, energy := 0#64
    placedTick := 0, order := 0, abort := none, snap := none, checkpoint := none }

/-- Region 0 has halted with semaphore 0 held; port A has asked for the semaphore, with its reply at the cell 0x10000. -/
def portWaiting : State :=
  { State.reset with
    power := .on
    regions := [(0, { Region.init with cluster := some 1, core := { Core.init with run := .halted } })]
    disp := { Disp.init with
      sems := [(0, { holder := 0, kept := none, waiters := [portHolder .a] })]
      portA := { Port.init with up := true, acq := some { sem := 0, reply := 0x10000#64, next := 0#64 } }
      clusters := [(1, endedCluster)] } }

/-- The granule of the cell 0x10000 of address space 0. -/
def replyCell : Place := .hbm (as0Base + 0x10000)

theorem portWaiting_completes : portWaiting.canComplete 1 endedCluster = true := by decide

/-- No record can be written in an address space that is not set. -/
theorem portWaiting_writeRecord (bs : List Byte) :
    portWaiting.writeRecord endedCluster bs = portWaiting.notify (.recordUnwritable 0) := rfl

theorem portWaiting_served : ((portWaiting.notify (.recordUnwritable 0)).teardown 1).mem.gst replyCell = .full := by decide

end Sys2Proof.Machine

namespace Sys2Proof.Proofs

open Sys2Proof.Machine Sys2Proof.Claims

/-- Refutes O45: the cluster's region holds a semaphore that port A waits for; completing the cluster releases it (R109), and the
reply to the port fills a cell of memory, which the statement says no completion does. -/
theorem not_clusterLife : ¬ Obligations.ClusterLife := by
  intro h
  obtain ⟨⟨-, hcompletes, -⟩, -⟩ := h
  obtain ⟨t, ht, ⟨c, -, hmem, -⟩, -⟩ := hcompletes portWaiting 1 endedCluster rfl portWaiting_completes
  have hexec : exec (.clusterComplete 1) portWaiting = .next ((portWaiting.notify (.recordUnwritable 0)).teardown 1) :=
    congrArg Host.Outcome.next (congrArg (fun u => State.teardown u 1) (portWaiting_writeRecord _))
  rw [hexec] at ht
  cases ht
  obtain ⟨-, hgst⟩ := hmem replyCell (by simp [replyCell])
  have hbefore : portWaiting.mem.gst replyCell = .empty := rfl
  have hfull : Gst.full = .empty := portWaiting_served.symm.trans (hgst.trans hbefore)
  cases hfull

end Sys2Proof.Proofs
end
